-- ==== Sys2Proof/Word.lean ====
section
/-!
DEFINITION. The words of the machine: bytes, 32-bit words, 64-bit words and 512-bit rows, with their little-endian
layout (R7) and the saturating counters of R14.
-/
namespace Sys2Proof

/-- One byte. -/
abbrev Byte := BitVec 8
/-- A 32-bit register value. -/
abbrev Word := BitVec 32
/-- A 64-bit value. -/
abbrev DWord := BitVec 64
/-- A 64-byte row: a vector register, a scratchpad row, the payload of a token. Byte 0 is bits 7:0 (R7). -/
abbrev Row := BitVec 512

/-- The value of a list of bytes, least significant first (R7). -/
def leNat : List Byte → Nat
  | [] => 0
  | b :: bs => b.toNat + 256 * leNat bs

/-- The `n` bytes of a value, least significant first (R7). -/
def leBytes : Nat → Nat → List Byte
  | 0, _ => []
  | n + 1, v => BitVec.ofNat 8 v :: leBytes n (v / 256)

/-- Field [hi:lo] of a value, as a number (R7). -/
def bits (v hi lo : Nat) : Nat := (v >>> lo) % 2 ^ (hi + 1 - lo)

/-- One bit of a value. -/
def bitOf (v i : Nat) : Bool := v.testBit i

/-- A value with bit `i` set to `b`. -/
def setBit (v i : Nat) (b : Bool) : Nat :=
  if v.testBit i = b then v else if b then v + 2 ^ i else v - 2 ^ i

/-- 1 for true, 0 for false. -/
def b2n (b : Bool) : Nat := if b then 1 else 0

/-- A counter of width `w` counts `k` events and stops at its largest value (R14). -/
def satAdd (w v k : Nat) : Nat := min (v + k) (2 ^ w - 1)

/-- Clamp into a range. -/
def clampTo (lo hi v : Nat) : Nat := max lo (min hi v)

/-- Lane `i` of a row: bits 32i + 31 : 32i. -/
def Row.lane (r : Row) (i : Nat) : Word := r.extractLsb' (32 * i) 32

/-- The row whose lane `i` is `f i` (lanes 0 to 15). -/
def Row.ofLanes (f : Nat → Word) : Row :=
  f 15 ++ f 14 ++ f 13 ++ f 12 ++ f 11 ++ f 10 ++ f 9 ++ f 8 ++
    f 7 ++ f 6 ++ f 5 ++ f 4 ++ f 3 ++ f 2 ++ f 1 ++ f 0

/-- Byte `i` of a row. -/
def Row.byte (r : Row) (i : Nat) : Byte := r.extractLsb' (8 * i) 8

/-- The 64 bytes of a row, lowest address first. -/
def Row.toBytes (r : Row) : List Byte := (List.range 64).map r.byte

/-- The row of a list of bytes (missing bytes are zero). -/
def Row.ofBytes (bs : List Byte) : Row := BitVec.ofNat 512 (leNat (bs.take 64))

/-- Sign extension of a 16-bit immediate. -/
def sext16 (v : BitVec 16) : Word := v.signExtend 32
/-- Zero extension of a 16-bit immediate. -/
def zext16 (v : BitVec 16) : Word := v.zeroExtend 32

end Sys2Proof
end

