-- ==== Sys2Proof/Syntax.lean ====
section
/-!
DEFINITION. The commands of the machine, one constructor per row of the opcode table (log 1): the instructions that threads issue,
the events of units and of time, the accesses of the host and the management, and what arrives from outside.
-/
namespace Sys2Proof

/-- A command. `n`: a core by its logical index; `t`: a thread; `r`: a region; `h`: a hub; `p`: a port of the module; `i`: a message,
a walk or a stack by its index; `d`, `a`, `b`, `c`, `pg`, `imm`: the fields of an instruction word. The definition of each command's
meaning says what its other operands are. -/
inductive Instr where
  /-- REGISTER_WRITE (R8). -/
  | registerWrite (who : BitVec 2) (id addr : Nat) (v : BitVec 32)
  /-- RC_REGISTER_READ (R9). -/
  | rcRegisterRead (who : BitVec 2) (id addr : Nat)
  /-- CONTEXT_SLOT_WRITE (R42). -/
  | contextSlotWrite (who : BitVec 2) (id : BitVec 16) (n : Nat) (k : BitVec 2) (off : BitVec 11) (v : BitVec 32)
  /-- LOAD (R61). -/
  | load
  /-- START (R61). -/
  | start
  /-- PREEMPT (R61). -/
  | preempt
  /-- PLAN_BASE_WRITE (R59). -/
  | planBaseWrite (hi : Bool) (v : BitVec 32)
  /-- PLAN_CHECK_DONE (R59). -/
  | planCheckDone
  /-- SECTION_START (R38). -/
  | sectionStart (n : Nat)
  /-- SECTION_CLOSE (R37). -/
  | sectionClose (n : Nat)
  /-- EPOCH_TIMEOUT (R55). -/
  | epochTimeout (n : Nat)
  /-- CONTEXT_LOAD_REPLY (R40). -/
  | contextLoadReply (n port : Nat)
  /-- RYUDON_TICK (R46). -/
  | ryudonTick (h i : Nat)
  /-- LOCAL_TICK_TIMER (R49). -/
  | localTickTimer
  /-- GROUP_TICK_TIMER (R327). -/
  | groupTickTimer
  /-- REGION_TICK (R57). -/
  | regionTick (r : Nat)
  /-- CORE_TICK (R48). -/
  | coreTick (n : Nat)
  /-- CORE_DONE (R48). -/
  | coreDone (n : Nat)
  /-- REGION_DONE (R48). -/
  | regionDone (r : Nat)
  /-- TICK_WATCHDOG_EXPIRY (R50). -/
  | tickWatchdogExpiry
  /-- SECTION_ABORT (R51). -/
  | sectionAbort
  /-- REGION_SECTION_ABORT (R51). -/
  | regionSectionAbort (r : Nat)
  /-- CORE_SECTION_ABORT (R51). -/
  | coreSectionAbort (n : Nat)
  /-- ABORT_APPLIED_REPORT (R52). -/
  | abortAppliedReport (r : Nat)
  /-- TOKEN_ARRIVAL (R54). -/
  | tokenArrival (n port : Nat)
  /-- TOKEN_LANDING (R191). -/
  | tokenLanding (n port : Nat)
  /-- COMBINING_CONTRIBUTION (R198). -/
  | combiningContribution (n port : Nat)
  /-- SIGNAL_ARRIVAL (R213). -/
  | signalArrival (n port : Nat)
  /-- ILLEGAL_INSN (R67). -/
  | illegalInsn (n : Nat) (t : BitVec 3) (w : Word)
  /-- ADD (R69). -/
  | add (n : Nat) (t : BitVec 3) (d a b : BitVec 5) (pg : BitVec 3)
  /-- SUB (R69). -/
  | sub (n : Nat) (t : BitVec 3) (d a b : BitVec 5) (pg : BitVec 3)
  /-- AND (R69). -/
  | and (n : Nat) (t : BitVec 3) (d a b : BitVec 5) (pg : BitVec 3)
  /-- OR (R69). -/
  | or (n : Nat) (t : BitVec 3) (d a b : BitVec 5) (pg : BitVec 3)
  /-- XOR (R69). -/
  | xor (n : Nat) (t : BitVec 3) (d a b : BitVec 5) (pg : BitVec 3)
  /-- SLL (R69). -/
  | sll (n : Nat) (t : BitVec 3) (d a b : BitVec 5) (pg : BitVec 3)
  /-- SRL (R69). -/
  | srl (n : Nat) (t : BitVec 3) (d a b : BitVec 5) (pg : BitVec 3)
  /-- SRA (R69). -/
  | sra (n : Nat) (t : BitVec 3) (d a b : BitVec 5) (pg : BitVec 3)
  /-- SLT (R69). -/
  | slt (n : Nat) (t : BitVec 3) (d a b : BitVec 5) (pg : BitVec 3)
  /-- SLTU (R69). -/
  | sltu (n : Nat) (t : BitVec 3) (d a b : BitVec 5) (pg : BitVec 3)
  /-- MUL (R69). -/
  | mul (n : Nat) (t : BitVec 3) (d a b : BitVec 5) (pg : BitVec 3)
  /-- MULH (R69). -/
  | mulh (n : Nat) (t : BitVec 3) (d a b : BitVec 5) (pg : BitVec 3)
  /-- MULHU (R69). -/
  | mulhu (n : Nat) (t : BitVec 3) (d a b : BitVec 5) (pg : BitVec 3)
  /-- MIN (R69). -/
  | min (n : Nat) (t : BitVec 3) (d a b : BitVec 5) (pg : BitVec 3)
  /-- MAX (R69). -/
  | max (n : Nat) (t : BitVec 3) (d a b : BitVec 5) (pg : BitVec 3)
  /-- MINU (R69). -/
  | minu (n : Nat) (t : BitVec 3) (d a b : BitVec 5) (pg : BitVec 3)
  /-- MAXU (R69). -/
  | maxu (n : Nat) (t : BitVec 3) (d a b : BitVec 5) (pg : BitVec 3)
  /-- CLZ (R69). -/
  | clz (n : Nat) (t : BitVec 3) (d a : BitVec 5) (pg : BitVec 3)
  /-- POPC (R69). -/
  | popc (n : Nat) (t : BitVec 3) (d a : BitVec 5) (pg : BitVec 3)
  /-- SLLI (R69). -/
  | slli (n : Nat) (t : BitVec 3) (d a b : BitVec 5) (pg : BitVec 3)
  /-- SRLI (R69). -/
  | srli (n : Nat) (t : BitVec 3) (d a b : BitVec 5) (pg : BitVec 3)
  /-- SRAI (R69). -/
  | srai (n : Nat) (t : BitVec 3) (d a b : BitVec 5) (pg : BitVec 3)
  /-- ADDI (R69). -/
  | addi (n : Nat) (t : BitVec 3) (d a : BitVec 5) (imm : BitVec 16)
  /-- ANDI (R69). -/
  | andi (n : Nat) (t : BitVec 3) (d a : BitVec 5) (imm : BitVec 16)
  /-- ORI (R69). -/
  | ori (n : Nat) (t : BitVec 3) (d a : BitVec 5) (imm : BitVec 16)
  /-- XORI (R69). -/
  | xori (n : Nat) (t : BitVec 3) (d a : BitVec 5) (imm : BitVec 16)
  /-- SLTI (R69). -/
  | slti (n : Nat) (t : BitVec 3) (d a : BitVec 5) (imm : BitVec 16)
  /-- SLTIU (R69). -/
  | sltiu (n : Nat) (t : BitVec 3) (d a : BitVec 5) (imm : BitVec 16)
  /-- LUI (R69). -/
  | lui (n : Nat) (t : BitVec 3) (d : BitVec 5) (imm : BitVec 16)
  /-- BR (R69). -/
  | br (n : Nat) (t p : BitVec 3) (sv : Bool) (off : BitVec 22)
  /-- JAL (R69). -/
  | jal (n : Nat) (t : BitVec 3) (d : BitVec 5) (off : BitVec 21)
  /-- JALR (R69). -/
  | jalr (n : Nat) (t : BitVec 3) (d a : BitVec 5) (imm : BitVec 16)
  /-- THR_END (R80). -/
  | thrEnd (n : Nat) (t pg : BitVec 3)
  /-- FENCE (R76). -/
  | fence (n : Nat) (t pg : BitVec 3)
  /-- THR_ID (R69). -/
  | thrId (n : Nat) (t : BitVec 3) (d : BitVec 5) (pg : BitVec 3)
  /-- DBG_BRK (R424). -/
  | dbgBrk (n : Nat) (t pg : BitVec 3)
  /-- CMP_EQ (R69). -/
  | cmpEq (n : Nat) (t d : BitVec 3) (a b : BitVec 5) (pg : BitVec 3)
  /-- CMP_NE (R69). -/
  | cmpNe (n : Nat) (t d : BitVec 3) (a b : BitVec 5) (pg : BitVec 3)
  /-- CMP_LT (R69). -/
  | cmpLt (n : Nat) (t d : BitVec 3) (a b : BitVec 5) (pg : BitVec 3)
  /-- CMP_GE (R69). -/
  | cmpGe (n : Nat) (t d : BitVec 3) (a b : BitVec 5) (pg : BitVec 3)
  /-- CMP_LTU (R69). -/
  | cmpLtu (n : Nat) (t d : BitVec 3) (a b : BitVec 5) (pg : BitVec 3)
  /-- CMP_GEU (R69). -/
  | cmpGeu (n : Nat) (t d : BitVec 3) (a b : BitVec 5) (pg : BitVec 3)
  /-- P_AND (R69). -/
  | pAnd (n : Nat) (t d a b pg : BitVec 3)
  /-- P_OR (R69). -/
  | pOr (n : Nat) (t d a b pg : BitVec 3)
  /-- P_XOR (R69). -/
  | pXor (n : Nat) (t d a b pg : BitVec 3)
  /-- P_ANDN (R69). -/
  | pAndn (n : Nat) (t d a b pg : BitVec 3)
  /-- P_SETG (R69). -/
  | pSetg (n : Nat) (t d : BitVec 3) (a : BitVec 5) (pg : BitVec 3)
  /-- P_GETG (R69). -/
  | pGetg (n : Nat) (t : BitVec 3) (d : BitVec 5) (a pg : BitVec 3)
  /-- P_ANY (R69). -/
  | pAny (n : Nat) (t d a pg : BitVec 3)
  /-- P_ALL (R69). -/
  | pAll (n : Nat) (t d a pg : BitVec 3)
  /-- LD_B (R73). -/
  | ldB (n : Nat) (t : BitVec 3) (d a : BitVec 5) (imm : BitVec 16)
  /-- LD_BU (R73). -/
  | ldBu (n : Nat) (t : BitVec 3) (d a : BitVec 5) (imm : BitVec 16)
  /-- LD_H (R73). -/
  | ldH (n : Nat) (t : BitVec 3) (d a : BitVec 5) (imm : BitVec 16)
  /-- LD_HU (R73). -/
  | ldHu (n : Nat) (t : BitVec 3) (d a : BitVec 5) (imm : BitVec 16)
  /-- LD_W (R73). -/
  | ldW (n : Nat) (t : BitVec 3) (d a : BitVec 5) (imm : BitVec 16)
  /-- LD_D (R73). -/
  | ldD (n : Nat) (t : BitVec 3) (d a : BitVec 5) (imm : BitVec 16)
  /-- ST_B (R73). -/
  | stB (n : Nat) (t : BitVec 3) (d a : BitVec 5) (imm : BitVec 16)
  /-- ST_H (R73). -/
  | stH (n : Nat) (t : BitVec 3) (d a : BitVec 5) (imm : BitVec 16)
  /-- ST_W (R73). -/
  | stW (n : Nat) (t : BitVec 3) (d a : BitVec 5) (imm : BitVec 16)
  /-- ST_D (R73). -/
  | stD (n : Nat) (t : BitVec 3) (d a : BitVec 5) (imm : BitVec 16)
  /-- FLD_W (R75). -/
  | fldW (n : Nat) (t : BitVec 3) (d a : BitVec 5) (imm : BitVec 16)
  /-- FLD_D (R75). -/
  | fldD (n : Nat) (t : BitVec 3) (d a : BitVec 5) (imm : BitVec 16)
  /-- FST_W (R76). -/
  | fstW (n : Nat) (t : BitVec 3) (d a : BitVec 5) (imm : BitVec 16)
  /-- FST_D (R76). -/
  | fstD (n : Nat) (t : BitVec 3) (d a : BitVec 5) (imm : BitVec 16)
  /-- VLD (R73). -/
  | vld (n : Nat) (t : BitVec 3) (d : BitVec 4) (a : BitVec 5) (imm : BitVec 16)
  /-- VST (R73). -/
  | vst (n : Nat) (t : BitVec 3) (d : BitVec 4) (a : BitVec 5) (imm : BitVec 16)
  /-- VADD (R139). -/
  | vadd (n : Nat) (t : BitVec 3) (d a b : BitVec 4) (pg : BitVec 3)
  /-- VSUB (R139). -/
  | vsub (n : Nat) (t : BitVec 3) (d a b : BitVec 4) (pg : BitVec 3)
  /-- VMUL (R139). -/
  | vmul (n : Nat) (t : BitVec 3) (d a b : BitVec 4) (pg : BitVec 3)
  /-- VFMA (R139). -/
  | vfma (n : Nat) (t : BitVec 3) (d a b c : BitVec 4) (pg : BitVec 3)
  /-- VMAX (R139). -/
  | vmax (n : Nat) (t : BitVec 3) (d a b : BitVec 4) (pg : BitVec 3)
  /-- VMIN (R139). -/
  | vmin (n : Nat) (t : BitVec 3) (d a b : BitVec 4) (pg : BitVec 3)
  /-- VABS (R139). -/
  | vabs (n : Nat) (t : BitVec 3) (d a : BitVec 4) (pg : BitVec 3)
  /-- VNEG (R139). -/
  | vneg (n : Nat) (t : BitVec 3) (d a : BitVec 4) (pg : BitVec 3)
  /-- VCMP_LT (R139). -/
  | vcmpLt (n : Nat) (t d : BitVec 3) (a b : BitVec 4) (pg : BitVec 3)
  /-- VCMP_LE (R139). -/
  | vcmpLe (n : Nat) (t d : BitVec 3) (a b : BitVec 4) (pg : BitVec 3)
  /-- VCMP_EQ (R139). -/
  | vcmpEq (n : Nat) (t d : BitVec 3) (a b : BitVec 4) (pg : BitVec 3)
  /-- VSEL (R69). -/
  | vsel (n : Nat) (t : BitVec 3) (d a b : BitVec 4) (c pg : BitVec 3)
  /-- VRED_ADD (R69). -/
  | vredAdd (n : Nat) (t : BitVec 3) (d a : BitVec 4)
  /-- VRED_MAX (R69). -/
  | vredMax (n : Nat) (t : BitVec 3) (d a : BitVec 4)
  /-- VAND (R69). -/
  | vand (n : Nat) (t : BitVec 3) (d a b : BitVec 4) (pg : BitVec 3)
  /-- VOR (R69). -/
  | vor (n : Nat) (t : BitVec 3) (d a b : BitVec 4) (pg : BitVec 3)
  /-- VXOR (R69). -/
  | vxor (n : Nat) (t : BitVec 3) (d a b : BitVec 4) (pg : BitVec 3)
  /-- VIADD (R69). -/
  | viadd (n : Nat) (t : BitVec 3) (d a b : BitVec 4) (pg : BitVec 3)
  /-- VPERM (R69). -/
  | vperm (n : Nat) (t : BitVec 3) (d a b : BitVec 4)
  /-- VMOV (R69). -/
  | vmov (n : Nat) (t : BitVec 3) (d a : BitVec 4) (pg : BitVec 3)
  /-- VBCAST (R69). -/
  | vbcast (n : Nat) (t : BitVec 3) (d : BitVec 4) (a : BitVec 5) (pg : BitVec 3)
  /-- VEXT (R69). -/
  | vext (n : Nat) (t : BitVec 3) (d : BitVec 5) (a : BitVec 4) (b : BitVec 5) (pg : BitVec 3)
  /-- VINS (R69). -/
  | vins (n : Nat) (t : BitVec 3) (d : BitVec 4) (a b : BitVec 5) (pg : BitVec 3)
  /-- CS_TSUM (R141). -/
  | csTsum (n : Nat) (t : BitVec 3) (d a b : BitVec 4) (pg : BitVec 3)
  /-- CS_TPROD (R141). -/
  | csTprod (n : Nat) (t : BitVec 3) (d a b : BitVec 4) (pg : BitVec 3)
  /-- CS_PADD (R141). -/
  | csPadd (n : Nat) (t : BitVec 3) (d a b : BitVec 4) (pg : BitVec 3)
  /-- CS_PMUL (R141). -/
  | csPmul (n : Nat) (t : BitVec 3) (d a b : BitVec 4) (pg : BitVec 3)
  /-- CS_NORM (R141). -/
  | csNorm (n : Nat) (t : BitVec 3) (d a : BitVec 4) (pg : BitVec 3)
  /-- CS_ROUND (R141). -/
  | csRound (n : Nat) (t : BitVec 3) (d a : BitVec 4) (pg : BitVec 3)
  /-- CS_PRED (R141). -/
  | csPred (n : Nat) (t : BitVec 3) (d a : BitVec 4)
  /-- SF_EXP2 (R140). -/
  | sfExp2 (n : Nat) (t : BitVec 3) (d a : BitVec 4) (pg : BitVec 3)
  /-- SF_LOG2 (R140). -/
  | sfLog2 (n : Nat) (t : BitVec 3) (d a : BitVec 4) (pg : BitVec 3)
  /-- SF_RCP (R140). -/
  | sfRcp (n : Nat) (t : BitVec 3) (d a : BitVec 4) (pg : BitVec 3)
  /-- SF_RSQRT (R140). -/
  | sfRsqrt (n : Nat) (t : BitVec 3) (d a : BitVec 4) (pg : BitVec 3)
  /-- SF_SIN (R140). -/
  | sfSin (n : Nat) (t : BitVec 3) (d a : BitVec 4) (pg : BitVec 3)
  /-- SF_COS (R140). -/
  | sfCos (n : Nat) (t : BitVec 3) (d a : BitVec 4) (pg : BitVec 3)
  /-- SF_ERF (R140). -/
  | sfErf (n : Nat) (t : BitVec 3) (d a : BitVec 4) (pg : BitVec 3)
  /-- VCVT_BF16 (R134). -/
  | vcvtBf16 (n : Nat) (t : BitVec 3) (d a b : BitVec 4) (pg : BitVec 3)
  /-- VCVT_F16 (R134). -/
  | vcvtF16 (n : Nat) (t : BitVec 3) (d a b : BitVec 4) (pg : BitVec 3)
  /-- VCVT_E4M3 (R135). -/
  | vcvtE4m3 (n : Nat) (t : BitVec 3) (d a : BitVec 4) (k : BitVec 2) (pg : BitVec 3)
  /-- VCVT_E5M2 (R135). -/
  | vcvtE5m2 (n : Nat) (t : BitVec 3) (d a : BitVec 4) (k : BitVec 2) (pg : BitVec 3)
  /-- VCVT_X_BF16 (R69). -/
  | vcvtXBf16 (n : Nat) (t : BitVec 3) (d a : BitVec 4) (k : BitVec 1) (pg : BitVec 3)
  /-- VCVT_X_F16 (R69). -/
  | vcvtXF16 (n : Nat) (t : BitVec 3) (d a : BitVec 4) (k : BitVec 1) (pg : BitVec 3)
  /-- VCVT_X_E4M3 (R69). -/
  | vcvtXE4m3 (n : Nat) (t : BitVec 3) (d a : BitVec 4) (k : BitVec 2) (pg : BitVec 3)
  /-- VCVT_X_E5M2 (R69). -/
  | vcvtXE5m2 (n : Nat) (t : BitVec 3) (d a : BitVec 4) (k : BitVec 2) (pg : BitVec 3)
  /-- VCVT_F_I32 (R139). -/
  | vcvtFI32 (n : Nat) (t : BitVec 3) (d a : BitVec 4) (pg : BitVec 3)
  /-- VCVT_I32_F (R134). -/
  | vcvtI32F (n : Nat) (t : BitVec 3) (d a : BitVec 4) (pg : BitVec 3)
  /-- MX_RUN (R122). -/
  | mxRun (n : Nat) (t : BitVec 3) (a : BitVec 5) (pg : BitVec 3)
  /-- MX_OUT (R126). -/
  | mxOut (n : Nat) (t : BitVec 3) (a : BitVec 5) (pg : BitVec 3)
  /-- MX_CLR (R119). -/
  | mxClr (n : Nat) (t pg : BitVec 3)
  /-- MX_CFG (R121). -/
  | mxCfg (n : Nat) (t : BitVec 3) (a : BitVec 5) (pg : BitVec 3)
  /-- MX_WAIT (R72). -/
  | mxWait (n : Nat) (t pg : BitVec 3)
  /-- MX_STAT (R69). -/
  | mxStat (n : Nat) (t : BitVec 3) (d : BitVec 5) (pg : BitVec 3)
  /-- CZ_CFG (R159). -/
  | czCfg (n : Nat) (t : BitVec 3) (a : BitVec 5) (pg : BitVec 3)
  /-- CZ_FLUSH (R162). -/
  | czFlush (n : Nat) (t pg : BitVec 3)
  /-- CZ_HIST (R166). -/
  | czHist (n : Nat) (t : BitVec 3) (a : BitVec 5) (pg : BitVec 3)
  /-- CZ_STAT (R69). -/
  | czStat (n : Nat) (t : BitVec 3) (d : BitVec 5) (pg : BitVec 3)
  /-- RND_EC (R69). -/
  | rndEc (n : Nat) (t : BitVec 3) (a : BitVec 5) (pg : BitVec 3)
  /-- RND_U32 (R137). -/
  | rndU32 (n : Nat) (t : BitVec 3) (d b : BitVec 5) (pg : BitVec 3)
  /-- VRND (R137). -/
  | vrnd (n : Nat) (t : BitVec 3) (d : BitVec 4) (b : BitVec 5) (pg : BitVec 3)
  /-- CH_SEND (R188). -/
  | chSend (n : Nat) (t : BitVec 3) (d : BitVec 5) (a : BitVec 4) (pg : BitVec 3)
  /-- CH_SENDG (R188). -/
  | chSendg (n : Nat) (t : BitVec 3) (d a : BitVec 5) (pg : BitVec 3)
  /-- CH_RECV (R191). -/
  | chRecv (n : Nat) (t : BitVec 3) (d : BitVec 4) (b : BitVec 5) (pg : BitVec 3)
  /-- CH_RECVG (R191). -/
  | chRecvg (n : Nat) (t : BitVec 3) (d b : BitVec 5) (pg : BitVec 3)
  /-- CH_CLOSE (R193). -/
  | chClose (n : Nat) (t : BitVec 3) (b : BitVec 5) (pg : BitVec 3)
  /-- CH_COUNT (R198). -/
  | chCount (n : Nat) (t : BitVec 3) (d b : BitVec 5) (pg : BitVec 3)
  /-- BZ_OPEN (R106). -/
  | bzOpen (n : Nat) (t d : BitVec 3) (a b : BitVec 5) (pg : BitVec 3)
  /-- BZ_CLOSE (R110). -/
  | bzClose (n : Nat) (t d pg : BitVec 3)
  /-- BZ_CLOSEA (R110). -/
  | bzClosea (n : Nat) (t d : BitVec 3) (a : BitVec 5) (pg : BitVec 3)
  /-- BZ_PUT (R108). -/
  | bzPut (n : Nat) (t : BitVec 3) (d a : BitVec 5) (b : BitVec 4) (pg : BitVec 3)
  /-- BZ_COUNT (R109). -/
  | bzCount (n : Nat) (t : BitVec 3) (d : BitVec 5) (a pg : BitVec 3)
  /-- SIG_T (R209). -/
  | sigT (n : Nat) (t d pg : BitVec 3)
  /-- SIG_WAIT (R209). -/
  | sigWait (n : Nat) (t pg : BitVec 3)
  /-- SIG_CNT (R212). -/
  | sigCnt (n : Nat) (t : BitVec 3) (d a : BitVec 5) (pg : BitVec 3)
  /-- SIG_TEST (R69). -/
  | sigTest (n : Nat) (t : BitVec 3) (d : BitVec 5) (pg : BitVec 3)
  /-- CL_ARR (R220). -/
  | clArr (n : Nat) (t : BitVec 3) (d : BitVec 4) (pg : BitVec 3)
  /-- CL_WAIT (R223). -/
  | clWait (n : Nat) (t : BitVec 3) (d : BitVec 4) (pg : BitVec 3)
  /-- CL_TEST (R69). -/
  | clTest (n : Nat) (t : BitVec 3) (d : BitVec 5) (a : BitVec 4) (pg : BitVec 3)
  /-- DMA_POST (R299). -/
  | dmaPost (n : Nat) (t : BitVec 3) (d a : BitVec 5) (pg : BitVec 3)
  /-- DMA_WAIT (R303). -/
  | dmaWait (n : Nat) (t : BitVec 3) (a : BitVec 5) (pg : BitVec 3)
  /-- DMA_TEST (R303). -/
  | dmaTest (n : Nat) (t : BitVec 3) (d a : BitVec 5) (pg : BitVec 3)
  /-- CSR_R (R69). -/
  | csrR (n : Nat) (t : BitVec 3) (d : BitVec 5) (imm : BitVec 16)
  /-- CSR_W (R86). -/
  | csrW (n : Nat) (t : BitVec 3) (d a : BitVec 5) (imm : BitVec 16)
  /-- CSR_S (R86). -/
  | csrS (n : Nat) (t : BitVec 3) (d a : BitVec 5) (imm : BitVec 16)
  /-- CSR_C (R86). -/
  | csrC (n : Nat) (t : BitVec 3) (d a : BitVec 5) (imm : BitVec 16)
  /-- HM_FOLD_WRITE (R263). -/
  | hmFoldWrite (n : Nat) (t : BitVec 3) (v : BitVec 32)
  /-- ENGINE_RUN_CMD (R123). -/
  | engineRunCmd (n : Nat)
  /-- ENGINE_OUT_CMD (R127). -/
  | engineOutCmd (n : Nat)
  /-- ENGINE_CLR_CMD (R119). -/
  | engineClrCmd (n : Nat)
  /-- ENGINE_CFG_CMD (R121). -/
  | engineCfgCmd (n : Nat)
  /-- CZ_CFG_CMD (R159). -/
  | czCfgCmd (n : Nat)
  /-- CZ_FLUSH_CMD (R162). -/
  | czFlushCmd (n : Nat)
  /-- CZ_HIST_CMD (R166). -/
  | czHistCmd (n : Nat)
  /-- SCRATCHPAD_SCRUB (R101). -/
  | scratchpadScrub (n : Nat)
  /-- ECC_WRITEBACK (R99). -/
  | eccWriteback (n : Nat)
  /-- BEZEL_NOTICE (R105). -/
  | bezelNotice (n d : Nat)
  /-- BEZEL_NOTICE_ACK (R106). -/
  | bezelNoticeAck (n d : Nat)
  /-- BEZEL_WRITE (R109). -/
  | bezelWrite (n : Nat)
  /-- BEZEL_REJECTION (R111). -/
  | bezelRejection (n d : Nat)
  /-- MESH_BLOCK_RECEIVE (R176). -/
  | meshBlockReceive (hub : Bool) (n k err : Nat) (bad : BitVec 3)
  /-- MESH_REPLAY_TIMEOUT (R176). -/
  | meshReplayTimeout (hub : Bool) (n k : Nat) (bad : BitVec 3)
  /-- BLOCK_FORWARD (R186). -/
  | blockForward (n out : Nat)
  /-- PROGRESS_WATCHDOG (R196). -/
  | progressWatchdog (n port : Nat)
  /-- BOOST_EPOCH (R205). -/
  | boostEpoch
  /-- BOOST_MESSAGE (R205). -/
  | boostMessage (r : Nat)
  /-- CLASP_ARRIVE (R221). -/
  | claspArrive (n d : Nat)
  /-- CLASP_RELEASE (R221). -/
  | claspRelease (n d : Nat)
  /-- CLASP_LEASE_EXPIRY (R227). -/
  | claspLeaseExpiry (n k : Nat)
  /-- JOB_LOAD (R238). -/
  | jobLoad (write : Bool × BitVec 16 × BitVec 10)
  /-- JOB_UNLOAD (R238). -/
  | jobUnload (write : Bool × BitVec 16 × BitVec 10)
  /-- REDUCE_START (R240). -/
  | reduceStart (h k : Nat)
  /-- REDUCE_CONTRIB_READ (R242). -/
  | reduceContribRead (slot b : Nat)
  /-- EXP_RECORD (R242). -/
  | expRecord (h i : Nat)
  /-- EXPMAX_RECORD (R242). -/
  | expmaxRecord (h i : Nat)
  /-- DATA_RECORD (R242). -/
  | dataRecord (h i : Nat)
  /-- THIN_RECORD (R253). -/
  | thinRecord (h i : Nat)
  /-- GATHER_RECORD (R256). -/
  | gatherRecord (h i : Nat)
  /-- CHECK_RETURN (R250). -/
  | checkReturn (h k : Nat)
  /-- REDUCE_LEASE_EXPIRY (R248). -/
  | reduceLeaseExpiry (slot : Nat)
  /-- MEMORY_REQUEST (R290). -/
  | memoryRequest (h k : Nat)
  /-- PAGE_WALK (R289). -/
  | pageWalk (h i : Nat)
  /-- DEMAND_MAP_DONE (R294). -/
  | demandMapDone (i : Nat)
  /-- RESOLVE_RETRY (R295). -/
  | resolveRetry
  /-- RESOLVE_DENY (R295). -/
  | resolveDeny
  /-- INVALIDATE (R291). -/
  | invalidate
  /-- INVALIDATE_DONE (R291). -/
  | invalidateDone
  /-- HBM_READ (R283). -/
  | hbmRead (h i : Nat)
  /-- HBM_WRITE (R284). -/
  | hbmWrite (h i : Nat)
  /-- FAR_REPLY (R77). -/
  | farReply (n port : Nat)
  /-- FAR_STORE_ACK (R76). -/
  | farStoreAck (n port : Nat)
  /-- DMA_DESCRIPTOR_START (R300). -/
  | dmaDescriptorStart (n : Nat)
  /-- DMA_ROW_ISSUE (R302). -/
  | dmaRowIssue (n : Nat)
  /-- DMA_LOAD_REPLY (R301). -/
  | dmaLoadReply (n port : Nat)
  /-- DMA_STORE_ACK (R301). -/
  | dmaStoreAck (n port : Nat)
  /-- FILL_COPY_DONE (R96). -/
  | fillCopyDone (n : Nat)
  /-- PATROL_SCRUB (R286). -/
  | patrolScrub (h i : Nat)
  /-- HBM_REFRESH (R286). -/
  | hbmRefresh (h i : Nat)
  /-- REFRESH_MANAGEMENT (R286). -/
  | refreshManagement (h i bank : Nat)
  /-- RETRAIN_TIMER (R286). -/
  | retrainTimer (h i c : Nat)
  /-- RETRAIN_DONE (R287). -/
  | retrainDone (h i : Nat) (ok : Bool)
  /-- RYUDON_DATA (R321). -/
  | ryudonData (p : Nat) (ce : Bool) (b : List Byte)
  /-- RYUDON_ACK (R322). -/
  | ryudonAck (p : Nat) (ce : Bool) (b : List Byte)
  /-- RYUDON_NAK (R323). -/
  | ryudonNak (p : Nat) (ce : Bool) (b : List Byte)
  /-- RETRANSMIT_TIMEOUT (R323). -/
  | retransmitTimeout (h node flow seq : Nat)
  /-- ACK_DELAY_EXPIRY (R322). -/
  | ackDelayExpiry (h node flow : Nat)
  /-- RATE_RAISE (R325). -/
  | rateRaise (h : Nat)
  /-- FLOW_CONTEXT_IDLE (R321). -/
  | flowContextIdle (h : Nat) (sending : Bool) (node flow : Nat)
  /-- TICK_REPORT (R329). -/
  | tickReport (h i : Nat)
  /-- MISSING_REPORT_EXPIRY (R329). -/
  | missingReportExpiry (member tick : Nat)
  /-- REPORT_WINDOW_EXPIRY (R330). -/
  | reportWindowExpiry
  /-- MGMT (R331). -/
  | mgmt (h i : Nat)
  /-- MGMT_RING_WAIT_EXPIRY (R331). -/
  | mgmtRingWaitExpiry (h i : Nat)
  /-- DATA_WRITE (R333). -/
  | dataWrite (h i : Nat)
  /-- DATA_READ_REQ (R333). -/
  | dataReadReq (h i : Nat)
  /-- DATA_READ_RESP (R337). -/
  | dataReadResp (h i : Nat)
  /-- DATA_SEND (R338). -/
  | dataSend (h i : Nat)
  /-- DATA_RESP_ERR (R336). -/
  | dataRespErr (h i : Nat)
  /-- DATA_DONE (R337). -/
  | dataDone (h i : Nat)
  /-- DATA_NOTIFY (R343). -/
  | dataNotify (h i : Nat)
  /-- ROCE_SEND (R338). -/
  | roceSend (p q : Nat) (psn : BitVec 24) (op : BitVec 2) (hasImm : Bool) (imm : BitVec 32) (ce : Bool) (b : List Byte)
  /-- ROCE_RDMA_WRITE (R336). -/
  | roceRdmaWrite (p q : Nat) (psn : BitVec 24) (op : BitVec 2) (hasImm : Bool) (imm : BitVec 32) (ce : Bool) (va : BitVec 64)
      (rkey len : BitVec 32) (b : List Byte)
  /-- ROCE_RDMA_READ (R337). -/
  | roceRdmaRead (p q : Nat) (psn : BitVec 24) (ce : Bool) (va : BitVec 64) (rkey len : BitVec 32)
  /-- ROCE_CNP (R334). -/
  | roceCnp (p q : Nat)
  /-- RING_ENDPOINT_TOKEN (R344). -/
  | ringEndpointToken (h k : Nat)
  /-- ARP_REQUEST (R311). -/
  | arpRequest (p : Nat) (mac : BitVec 48) (sender target : BitVec 32)
  /-- NEIGHBOR_SOLICITATION (R311). -/
  | neighborSolicitation (p : Nat) (mac : BitVec 48) (sender target : BitVec 128)
  /-- FRAME_DISCARD (R311). -/
  | frameDiscard (frame : Nat × BitVec 3 × Nat × BitVec 24)
  /-- LINK_TRAINING_DONE (R308). -/
  | linkTrainingDone (p : Nat) (ok : Bool) (lanes : BitVec 4)
  /-- LINK_DOWN (R319). -/
  | linkDown (p : Nat)
  /-- CABLE_PRESENT_CHANGE (R436). -/
  | cablePresentChange (c : Nat) (present : Bool)
  /-- REF_SOURCE_REQ_WRITE (R349). -/
  | refSourceReqWrite (req : Bool) (port : BitVec 4)
  /-- REF_SETTLE_EXPIRY (R349). -/
  | refSettleExpiry
  /-- SOURCE_CHANGE_STEP (R354). -/
  | sourceChangeStep
  /-- DIVIDER_UPDATE (R353). -/
  | dividerUpdate
  /-- DOMAIN_ON (R359). -/
  | domainOn (host : Bool) (id : BitVec 16) (d : BitVec 9)
  /-- DOMAIN_OFF (R359). -/
  | domainOff (host : Bool) (id : BitVec 16) (d : BitVec 9)
  /-- DOMAIN_RAMP_DONE (R357). -/
  | domainRampDone (d : Nat)
  /-- DOMAIN_REGULATION_TIMEOUT (R360). -/
  | domainRegulationTimeout (d : Nat)
  /-- RAIL_SAMPLE (R361). -/
  | railSample (rails : List (Nat × Nat)) (pin : Nat)
  /-- POWER_CAP_WRITE (R364). -/
  | powerCapWrite (v : BitVec 16)
  /-- CAP_SLEW_UPDATE (R364). -/
  | capSlewUpdate
  /-- FILLER_UPDATE (R366). -/
  | fillerUpdate (r : Nat)
  /-- FILLER_DUTY (R367). -/
  | fillerDuty (n : Nat)
  /-- SENSOR_SAMPLE (R368). -/
  | sensorSample (u : Nat) (ts : List (BitVec 16))
  /-- THERMAL_STEP (R369). -/
  | thermalStep (r : Nat)
  /-- ECLIPSE_WRITE (R370). -/
  | eclipseWrite (hi : Bool) (v : BitVec 32)
  /-- ECLIPSE_APPLY (R371). -/
  | eclipseApply (r : Nat)
  /-- STAGE_POWER (R377). -/
  | stagePower (ok : Bool) (pll : Nat)
  /-- STAGE_IMAGE (R415). -/
  | stageImage (readOk : Bool)
  /-- STAGE_HUBS (R377). -/
  | stageHubs (fail : Bool) (h : Nat)
  /-- STAGE_REGIONS (R381). -/
  | stageRegions (fail : Option Nat) (dead : List Nat)
  /-- STAGE_NEIGHBOUR (R382). -/
  | stageNeighbour (silent : List (Nat × Nat × Nat)) (verdicts : List (Nat × Nat × Nat × Nat))
  /-- STAGE_DEFECTS (R384). -/
  | stageDefects (saved : Bool)
  /-- STAGE_TRAIN (R387). -/
  | stageTrain (fail : Bool) (stack channel : Nat)
  /-- HELLO_TIMER (R388). -/
  | helloTimer (p : Nat)
  /-- HELLO (R388). -/
  | hello (p : Nat) (b : List Byte)
  /-- HELLO_ACK (R388). -/
  | helloAck (p : Nat) (b : List Byte)
  /-- TOPO_EXPECT_WRITE (R390). -/
  | topoExpectWrite (off : BitVec 16) (v : BitVec 32)
  /-- BOOT_SCAN (R386). -/
  | bootScan
  /-- RESET_CORE_CMD (R392). -/
  | resetCoreCmd (cause : BitVec 4) (id : BitVec 16) (n : Nat)
  /-- RESET_REGION_CMD (R392). -/
  | resetRegionCmd (cause : BitVec 4) (id : BitVec 16) (r : Nat)
  /-- RESET_HUB_CMD (R392). -/
  | resetHubCmd (cause : BitVec 4) (id : BitVec 16) (h : Nat)
  /-- RESET_MODULE_CMD (R392). -/
  | resetModuleCmd (cause : BitVec 4) (id : BitVec 16)
  /-- RESET_RELEASE (R394). -/
  | resetRelease (region : Bool) (index : Nat)
  /-- SR_READ (R396). -/
  | srRead (own : BitVec 2) (r l off : Nat)
  /-- SR_WRITE (R396). -/
  | srWrite (own : BitVec 2) (r l off : Nat) (v : BitVec 32)
  /-- SR_STOP (R396). -/
  | srStop (own : BitVec 2) (r l : Nat) (ack : Bool)
  /-- SR_FLUSH (R396). -/
  | srFlush (own : BitVec 2) (r l : Nat)
  /-- SR_RESET_CORE (R396). -/
  | srResetCore (own : BitVec 2) (r l : Nat)
  /-- SR_GATE (R396). -/
  | srGate (own : BitVec 2) (r l : Nat)
  /-- SR_LIVENESS (R396). -/
  | srLiveness (own : BitVec 2) (r l : Nat)
  /-- LIVENESS_ADVANCE (R398). -/
  | livenessAdvance (n : Nat)
  /-- LIVENESS_SWEEP (R398). -/
  | livenessSweep (sweep : Nat × List Nat)
  /-- STOP_ACK_TIMEOUT (R398). -/
  | stopAckTimeout (r : Nat)
  /-- REGION_HEARTBEAT (R399). -/
  | regionHeartbeat (r : Nat)
  /-- HEARTBEAT_TIMEOUT (R399). -/
  | heartbeatTimeout (r : Nat)
  /-- MOD_WDOG_PET (R400). -/
  | modWdogPet
  /-- MP_WATCHDOG_EXPIRY (R400). -/
  | mpWatchdogExpiry
  /-- FM_STATUS (R405). -/
  | fmStatus (h i : Nat)
  /-- FM_RESET_REPORT (R405). -/
  | fmResetReport (h i : Nat)
  /-- FM_DEFECT (R405). -/
  | fmDefect (h i : Nat)
  /-- PEER_RESET (R407). -/
  | peerReset (h i : Nat)
  /-- MEMBER_LOST (R408). -/
  | memberLost (h i : Nat)
  /-- SET_MASTER (R408). -/
  | setMaster (h i : Nat)
  /-- FM_COMMAND_RECORD (R405). -/
  | fmCommandRecord
  /-- RECOVERY_WRITE (R416). -/
  | recoveryWrite (mac : BitVec 48) (src : BitVec 128 × BitVec 16) (b : List Byte) (busy : Bool)
  /-- RECOVERY_COMMIT (R416). -/
  | recoveryCommit (mac : BitVec 48) (src : BitVec 128 × BitVec 16) (b : List Byte) (busy readOk : Bool)
  /-- RECOVERY_STATUS (R416). -/
  | recoveryStatus (mac : BitVec 48) (src : BitVec 128) (port : BitVec 16) (b : List Byte)
  /-- FW_UPDATE (R418). -/
  | fwUpdate
  /-- UCAL_UPDATE (R418). -/
  | ucalUpdate
  /-- ROLLBACK_COMMIT (R417). -/
  | rollbackCommit
  /-- BOOTCFG_UPDATE (R418). -/
  | bootcfgUpdate
  /-- UPDATE_WRITE_DONE (R418). -/
  | updateWriteDone (ok : Bool)
  /-- ATTESTATION_REQUEST (R422). -/
  | attestationRequest
  /-- ATTESTATION_WRITTEN (R422). -/
  | attestationWritten
  /-- DBG_CHALLENGE (R425). -/
  | dbgChallenge
  /-- DBG_SUBMIT (R425). -/
  | dbgSubmit
  /-- DBG_CLOSE (R424). -/
  | dbgClose
  /-- JTAG_DBG_AUTH (R425). -/
  | jtagDbgAuth (b : List Byte)
  /-- JTAG_INSTRUCTION (R424). -/
  | jtagInstruction (i : BitVec 2)
  /-- ISLAND_UP (R432). -/
  | islandUp
  /-- INRUSH_START (R432). -/
  | inrushStart
  /-- POWER_GOOD (R432). -/
  | powerGood
  /-- INPUT_SAMPLE (R433). -/
  | inputSample (mv ma : Nat)
  /-- POWER_FAIL_HOLD_END (R434). -/
  | powerFailHoldEnd
  /-- CONTACT_SAMPLE (R431). -/
  | contactSample (ts : List Nat)
  /-- COOLANT_SAMPLE (R435). -/
  | coolantSample (inlet outlet : BitVec 16)
  /-- REF_LOSS (R438). -/
  | refLoss
  /-- REF_RETURN (R438). -/
  | refReturn (long : Bool)
  /-- READ_DEV (R441). -/
  | readDev (tag : BitVec 8) (addr : BitVec 64) (len : BitVec 8)
  /-- WRITE_DEV (R441). -/
  | writeDev (tag : BitVec 8) (addr : BitVec 64) (b : List Byte)
  /-- READ_LOG (R440). -/
  | readLog (tag : BitVec 8) (seq : BitVec 32)
  /-- DBG_PUT (R440). -/
  | dbgPut (tag : BitVec 8) (off : BitVec 16) (b : List Byte)
  /-- GET_FM (R440). -/
  | getFm (tag typ : BitVec 8)
  /-- MCTP_CONTROL (R440). -/
  | mctpControl (b : List Byte)
  /-- SMBUS_ALERT_RESPONSE (R439). -/
  | smbusAlertResponse
  /-- CORE_WATCHDOG_EXPIRY (R82). -/
  | coreWatchdogExpiry (n : Nat)
  /-- LOAD_COMPLETE (R61). -/
  | loadComplete
  /-- SCAN_COMPLETE (R386). -/
  | scanComplete (silent : List (Nat × Nat × Nat)) (verdicts : List (Nat × Nat × Nat × Nat)) (saved : Bool)
  /-- JOB_CHECK_DONE (R238). -/
  | jobCheckDone
  /-- DBG_CHECK_DONE (R425). -/
  | dbgCheckDone
  /-- ROLLBACK_COMMIT_DONE (R417). -/
  | rollbackCommitDone
  /-- SHARE_BALANCE_GAIN (R204). -/
  | shareBalanceGain
  /-- REGION_CONTROLLER_REPLY (R197). -/
  | regionControllerReply (r : Nat)
  /-- ROCE_NOTICE_RESPONSE (R343). -/
  | roceNoticeResponse (q : Nat) (ack : Bool)
  /-- NOTICE_RETRY_EXPIRY (R343). -/
  | noticeRetryExpiry (q : Nat)
  /-- MP_DEBUG_PORT_INPUT (R424). -/
  | mpDebugPortInput (b : List Byte)
  deriving DecidableEq, Repr

end Sys2Proof
end

