-- ==== Sys2Proof/Decode.lean ====
section
/-!
DEFINITION. The opcode table gives no row any bits: commands reach the machine as they are, and no word spells one.
-/
namespace Sys2Proof

/-- The command that a word of the opcode table spells: none. -/
def decodeTableWord (_nbits _w : Nat) : Option Instr := none

end Sys2Proof
end

