-- ==== Sys2Proof/Machine/Store.lean ====
section
/-!
DEFINITION. Sparse plain-data maps, the one form in which the machine's memories, register files and tables of units
are held: a list of (key, value) pairs with the keys strictly rising, an unlisted key standing for a default value.
-/
namespace Sys2Proof.Machine

/-- A sparse map. -/
abbrev Sparse (α : Type) := List (Nat × α)

/-- The value of key `k`; `d` where the key is not listed. -/
def Sparse.get {α : Type} (d : α) : Sparse α → Nat → α
  | [], _ => d
  | (j, v) :: m, k => if j = k then v else Sparse.get d m k

/-- The map without key `k`. -/
def Sparse.erase {α : Type} : Sparse α → Nat → Sparse α
  | [], _ => []
  | (j, v) :: m, k => if j = k then Sparse.erase m k else (j, v) :: Sparse.erase m k

/-- The pair put before the first larger key. -/
def Sparse.insertAt {α : Type} (k : Nat) (v : α) : Sparse α → Sparse α
  | [] => [(k, v)]
  | (j, w) :: m => if k < j then (k, v) :: (j, w) :: m else (j, w) :: Sparse.insertAt k v m

/-- Key `k` given a value, listed whatever the value. -/
def Sparse.put {α : Type} (m : Sparse α) (k : Nat) (v : α) : Sparse α := Sparse.insertAt k v (Sparse.erase m k)

/-- Key `k` given a value in the canonical form: a value equal to the default is not listed. -/
def Sparse.set {α : Type} [DecidableEq α] (d : α) (m : Sparse α) (k : Nat) (v : α) : Sparse α :=
  if v = d then Sparse.erase m k else Sparse.put m k v

/-- Keys strictly rising. -/
def Sparse.sorted {α : Type} : Sparse α → Bool
  | [] => true
  | [_] => true
  | (j, _) :: (k, v) :: m => decide (j < k) && Sparse.sorted ((k, v) :: m)

/-- The canonical form: keys strictly rising and no entry equal to the default. -/
def Sparse.wf {α : Type} [DecidableEq α] (d : α) (m : Sparse α) : Bool :=
  Sparse.sorted m && m.all (fun e => decide (e.2 ≠ d))

/-- The keys that are listed. -/
def Sparse.keys {α : Type} (m : Sparse α) : List Nat := m.map (·.1)

/-- Key `k` changed by a function. -/
def Sparse.upd {α : Type} (d : α) (m : Sparse α) (k : Nat) (f : α → α) : Sparse α := Sparse.put m k (f (Sparse.get d m k))

/-- `n` values at the keys from `k`. -/
def Sparse.slice {α : Type} (d : α) (m : Sparse α) : Nat → Nat → List α
  | _, 0 => []
  | k, n + 1 => Sparse.get d m k :: Sparse.slice d m (k + 1) n

/-- A list of values written at the keys from `k`. -/
def Sparse.blit {α : Type} [DecidableEq α] (d : α) : Sparse α → Nat → List α → Sparse α
  | m, _, [] => m
  | m, k, v :: vs => Sparse.blit d (Sparse.set d m k v) (k + 1) vs

/-- Element `k` of a list that stands for a fixed number of things, with a default. -/
def nth {α : Type} (d : α) (xs : List α) (k : Nat) : α := (xs[k]?).getD d

/-! ### Registers (R8, R11, R12) -/

/-- The access codes of R8. -/
inductive Acc where
  | ro | rw | w1c | wo | rc
  deriving DecidableEq, Repr

/-- One field of a register table: its word's offset in the window, its lowest bit, its width, its access code, its
reset value, and whether it is a TICK field (R11). -/
structure Fld where
  off : Nat
  lo : Nat
  w : Nat
  acc : Acc
  rst : Nat
  tick : Bool
  deriving DecidableEq, Repr

/-- The same field in an array of registers, `d` bytes further. -/
def Fld.at (f : Fld) (d : Nat) : Fld := { f with off := f.off + d }

/-- Where a field is kept in a register store. -/
def Fld.key (f : Fld) : Nat := f.off * 32 + f.lo

/-- The registers of one window: each field's last written value, and the value in force of the TICK fields (R12). A
field that is not listed holds its reset value. -/
structure Regs where
  cur : Sparse Nat
  force : Sparse Nat
  deriving DecidableEq, Repr

/-- A window whose registers all hold their reset values. -/
def Regs.reset : Regs := ⟨[], []⟩

/-- The value of a field. -/
def Regs.rd (r : Regs) (f : Fld) : Nat := Sparse.get f.rst r.cur f.key

/-- A field given a value, cut to its width. -/
def Regs.wr (r : Regs) (f : Fld) (v : Nat) : Regs := { r with cur := Sparse.set f.rst r.cur f.key (v % 2 ^ f.w) }

/-- The value in force of a TICK field (R12). -/
def Regs.inForce (r : Regs) (f : Fld) : Nat := Sparse.get f.rst r.force f.key

/-- A commit cut: every TICK field's last written value comes into force (R57). -/
def Regs.commit (r : Regs) : Regs := { r with force := r.cur }

/-- An event counter of a field: it saturates (R14). -/
def Regs.count (r : Regs) (f : Fld) (k : Nat) : Regs := r.wr f (satAdd f.w (r.rd f) k)

/-- An event counter with its sticky flag, which sets when the counter reaches its largest value (R14). -/
def Regs.countSat (r : Regs) (f flag : Fld) (k : Nat) : Regs :=
  let r' := r.count f k
  if r'.rd f = 2 ^ f.w - 1 then r'.wr flag 1 else r'

/-- Several fields written in one go. -/
def Regs.wrs (r : Regs) (l : List (Fld × Nat)) : Regs := l.foldl (fun r e => r.wr e.1 e.2) r

end Sys2Proof.Machine
end

