-- ==== Sys2Proof/Machine/Crypto.lean ====
section
/-!
DEFINITION. The checks and hashes of the module: CRC-16 (R175), CRC-32C (R316), and SHAKE256 of FIPS 202 (R270, R385, R412
to R429), and the verification of Falcon-1024 (R414, log 15).
-/
namespace Sys2Proof.Machine

/-- One bit of CRC-16, polynomial 0x1021, most significant bit first. -/
def crc16Step (c : BitVec 16) : BitVec 16 := if c.msb then (c <<< 1) ^^^ 0x1021 else c <<< 1

/-- A function applied `n` times. -/
def applyN {α : Type} (f : α → α) : Nat → α → α
  | 0, x => x
  | n + 1, x => applyN f n (f x)

/-- CRC-16 of R175: initial value 0xFFFF, no final XOR. -/
def crc16 (bs : List Byte) : Nat :=
  (bs.foldl (fun c b => applyN crc16Step 8 (c ^^^ (b ++ (0 : Byte)))) (0xFFFF : BitVec 16)).toNat

/-- One bit of CRC-32C in reflected form. -/
def crc32Step (c : BitVec 32) : BitVec 32 := if c.getLsbD 0 then (c >>> 1) ^^^ 0x82F63B78 else c >>> 1

/-- CRC-32C of R316: initial value and final XOR 0xFFFF_FFFF. -/
def crc32c (bs : List Byte) : Nat :=
  ((bs.foldl (fun c b => applyN crc32Step 8 (c ^^^ b.setWidth 32)) (0xFFFFFFFF : BitVec 32)) ^^^ 0xFFFFFFFF).toNat

/-! ### SHAKE256 (FIPS 202) -/

/-- A sponge state: 25 words of 64 bits, the word of column `x` and row `y` at place `5 y + x`. -/
abbrev Sponge := List (BitVec 64)

/-- The word at a column and a row, both taken modulo 5. -/
def Sponge.at (a : Sponge) (x y : Nat) : BitVec 64 := nth 0 a (y % 5 * 5 + x % 5)

/-- A sponge state from the word of each place. -/
def Sponge.of (f : Nat → Nat → BitVec 64) : Sponge := (List.range 25).map fun i => f (i % 5) (i / 5)

/-- The parity of a column. -/
def Sponge.parity (a : Sponge) (x : Nat) : BitVec 64 := (List.range 5).foldl (fun w y => w ^^^ a.at x y) 0

/-- theta: every word takes in the parities of the columns beside its own. -/
def Sponge.theta (a : Sponge) : Sponge :=
  let ps := (List.range 5).map a.parity
  let mix := (List.range 5).map fun x => nth 0 ps ((x + 4) % 5) ^^^ (nth 0 ps ((x + 1) % 5)).rotateLeft 1
  .of fun x y => a.at x y ^^^ nth 0 mix x

/-- rho and pi in one walk over the places from column 1, row 0: step `k` turns the word it stands on by the triangular number
(k + 1)(k + 2)/2 and lays it down at the next place of the walk. -/
def Sponge.walk (a : Sponge) : Nat → Nat → Nat → Nat → Sponge → Sponge
  | 0, _, _, _, b => b
  | n + 1, k, x, y, b =>
    let y' := (2 * x + 3 * y) % 5
    Sponge.walk a n (k + 1) y y' (b.set (y' * 5 + y) ((a.at x y).rotateLeft ((k + 1) * (k + 2) / 2 % 64)))

/-- chi: every word is flipped where the next one in its row is 0 and the one after that is 1. -/
def Sponge.chi (a : Sponge) : Sponge := .of fun x y => a.at x y ^^^ (a.at (x + 2) y &&& ~~~(a.at (x + 1) y))

/-- The register of iota stepped once: x^8 + x^6 + x^5 + x^4 + 1. -/
def iotaStep (r : Nat) : Nat := if r < 128 then 2 * r else (2 * r) ^^^ 0x171

/-- The constant of a round, from the register's first value in it: its seven steps give the bits 0, 1, 3, 7, 15, 31 and 63. -/
def iotaWord (r : Nat) : BitVec 64 :=
  (List.range 7).foldl (fun w j => if (applyN iotaStep j r).testBit 0 then w ^^^ BitVec.ofNat 64 (2 ^ (2 ^ j - 1)) else w) 0

/-- `n` rounds of the permutation, with the register of iota at `r`. -/
def Sponge.rounds : Nat → Nat → Sponge → Sponge
  | 0, _, a => a
  | n + 1, r, a =>
    let t := a.theta
    let b := (t.walk 24 0 1 0 t).chi
    Sponge.rounds n (applyN iotaStep 7 r) (b.set 0 (b.at 0 0 ^^^ iotaWord r))

/-- The permutation Keccak-f[1600]: 24 rounds. -/
def Sponge.permute (a : Sponge) : Sponge := a.rounds 24 1

/-- A block of 136 bytes taken into the first 17 words. -/
def Sponge.take (a : Sponge) (blk : List Byte) : Sponge :=
  Sponge.permute (.of fun x y => a.at x y ^^^ BitVec.ofNat 64 (leNat ((blk.drop (8 * (5 * y + x))).take 8)))

/-- The blocks of a message taken in one after another; `n` bounds their number. -/
def Sponge.takeAll : Nat → Sponge → List Byte → Sponge
  | 0, a, _ => a
  | n + 1, a, bs => if bs = [] then a else Sponge.takeAll n (a.take (bs.take 136)) (bs.drop 136)

/-- The padding of SHAKE256: the suffix 1111, then pad10*1. -/
def shakePad (len : Nat) : List Byte :=
  let q := 136 - len % 136
  if q = 1 then [0x9F] else 0x1F :: List.replicate (q - 2) 0 ++ [0x80]

/-- The `n` next bytes of the output; `k` bounds the blocks they are squeezed from. -/
def Sponge.give : Nat → Nat → Sponge → List Byte
  | 0, _, _ => []
  | k + 1, n, a => if n ≤ 136 then (a.flatMap fun v => leBytes 8 v.toNat).take n
      else (a.flatMap fun v => leBytes 8 v.toNat).take 136 ++ Sponge.give k (n - 136) a.permute

/-- The first `n` bytes of SHAKE256 of a message. -/
def shake256 (bs : List Byte) (n : Nat) : List Byte :=
  let m := bs ++ shakePad bs.length
  Sponge.give (n / 136 + 1) n (Sponge.takeAll (m.length / 136) (List.replicate 25 0) m)

/-! ### Falcon-1024 (R414): the specification of Falcon, version 1.2, is not part of this spec (PRESUMED, log 15) -/

/-- The modulus. -/
def falconQ : Nat := 12289
/-- The bound of the squared norm of a signature. -/
def falconBound : Nat := 70265242

/-- The bits of some bytes, the most significant of each byte first. -/
def bigBits (bs : List Byte) : List Bool := bs.flatMap fun b => (List.range 8).map fun i => b.getMsbD i
/-- The value of some bits, the most significant first. -/
def bitsNat (l : List Bool) : Nat := l.foldl (fun a b => 2 * a + b2n b) 0

/-- `n` coefficients of 14 bits. -/
def falconCoeffs : Nat → List Bool → List Nat
  | 0, _ => []
  | n + 1, l => bitsNat (l.take 14) :: falconCoeffs n (l.drop 14)

/-- The polynomial of a public key of 1,793 bytes; `none` where its encoding is not valid. -/
def falconKey (key : List Byte) : Option (List Nat) :=
  let h := falconCoeffs 1024 (bigBits (key.drop 1))
  if key.length = 1793 ∧ key.head? = some 0x0A ∧ h.all (fun c => decide (c < falconQ)) then some h else none

/-- A coefficient of a signature: a sign, the seven low bits of its magnitude, and the rest of that as zeros before a one. -/
def falconCoeff (l : List Bool) : Option (Int × List Bool) :=
  let high := ((l.drop 8).takeWhile (!·)).length
  let m := bitsNat ((l.drop 1).take 7) + 128 * high
  let neg := l.head? = some true
  if l.length ≤ 8 + high ∨ (neg ∧ m = 0) then none
  else some (if neg then -(m : Int) else m, l.drop (9 + high))

/-- `n` coefficients of a signature, after which only zeros may stand. -/
def falconPoly : Nat → List Bool → Option (List Int)
  | 0, l => if l.all (!·) then some [] else none
  | n + 1, l => match falconCoeff l with
    | none => none
    | some (c, rest) => (falconPoly n rest).map (c :: ·)

/-- The first `n` samples of 16 bits that are less than five times the modulus, modulo it. -/
def falconSamples : Nat → List Byte → List Nat
  | 0, _ => []
  | n + 1, a :: b :: l =>
    let t := 256 * a.toNat + b.toNat
    if t < 5 * falconQ then t % falconQ :: falconSamples n l else falconSamples (n + 1) l
  | _ + 1, _ => []

/-- The point of a message with its salt: of the stream's first 4,096 samples, which hold far more than the 1,024 wanted. -/
def falconPoint (salt msg : List Byte) : List Nat := falconSamples 1024 (shake256 (salt ++ msg) 8192)

/-- A polynomial times x, modulo x^1024 + 1 and the modulus. -/
def timesX (h : List Nat) : List Nat := (falconQ - h.getLastD 0) % falconQ :: h.dropLast
/-- The product of a polynomial with small coefficients and another, added to a third. -/
def mulAdd : List Int → List Nat → List Int → List Int
  | [], _, acc => acc
  | c :: cs, h, acc => mulAdd cs (timesX h) (List.zipWith (fun a (x : Nat) => (a + c * x) % falconQ) acc h)
/-- A residue, between minus half the modulus and half of it. -/
def centred (a : Int) : Int := let r := a % falconQ; if 2 * r ≤ falconQ then r else r - falconQ
/-- The squared norm of coefficients. -/
def normSq (l : List Int) : Nat := l.foldl (fun a c => a + c.natAbs * c.natAbs) 0

/-- A Falcon-1024 signature in the padded format verifies over a message under a public key. -/
def falconVerify (key sig msg : List Byte) : Bool :=
  match falconKey key, falconPoly 1024 (bigBits (sig.drop 41)) with
  | some h, some s2 =>
    let c := (falconPoint ((sig.drop 1).take 40) msg).map fun (x : Nat) => (x : Int)
    let s1 := (mulAdd (s2.map (-·)) h c).map centred
    decide (sig.length = 1280) && decide (sig.head? = some 0x3A) && decide (c.length = 1024) &&
      decide (normSq s1 + normSq s2 ≤ falconBound)
  | _, _ => false

end Sys2Proof.Machine
end

