-- ==== Sys2Proof/Machine/Numerics.lean ====
section
/-!
DEFINITION. Formats, exact values, the one rounding procedure and the generator of the numerical rules
(R115 to R117, R134 to R139). Every floating-point result of the model is an exact dyadic value passed once through
`roundTo`.
-/
namespace Sys2Proof.Machine

/-! ### Formats (R115) -/

/-- How a format spends its top codes (R115): infinities and NaNs, only the NaN S.1111.111, or neither. -/
inductive Specials where
  | ieee | nanOnly | none
  deriving DecidableEq, Repr

/-- A sign-exponent-significand format (R115). -/
structure Fmt where
  ebits : Nat
  mbits : Nat
  bias : Int
  specials : Specials
  deriving DecidableEq, Repr

namespace Fmt
def fp32 : Fmt := ⟨8, 23, 127, .ieee⟩
def bf16 : Fmt := ⟨8, 7, 127, .ieee⟩
def fp16 : Fmt := ⟨5, 10, 15, .ieee⟩
def e4m3 : Fmt := ⟨4, 3, 7, .nanOnly⟩
def e5m2 : Fmt := ⟨5, 2, 15, .ieee⟩
def e3m2 : Fmt := ⟨3, 2, 3, .none⟩
def e2m3 : Fmt := ⟨2, 3, 1, .none⟩
def e2m1 : Fmt := ⟨2, 1, 1, .none⟩

/-- Bits of an element. -/
def width (f : Fmt) : Nat := 1 + f.ebits + f.mbits
/-- The exponent of the smallest subnormal. -/
def emin (f : Fmt) : Int := 1 - f.bias - f.mbits
/-- The magnitude code of the largest finite value. -/
def maxMag (f : Fmt) : Nat :=
  match f.specials with
  | .ieee => (2 ^ f.ebits - 1) * 2 ^ f.mbits - 1
  | .nanOnly => 2 ^ (f.ebits + f.mbits) - 2
  | .none => 2 ^ (f.ebits + f.mbits) - 1
/-- The magnitude code of infinity (IEEE formats). -/
def infMag (f : Fmt) : Nat := (2 ^ f.ebits - 1) * 2 ^ f.mbits
/-- The canonical NaN of a format (R116): positive, and quiet in the IEEE formats. -/
def nanBits (f : Fmt) : Nat :=
  match f.specials with
  | .ieee => f.infMag + 2 ^ (f.mbits - 1)
  | _ => 2 ^ (f.ebits + f.mbits) - 1
/-- A magnitude code with its sign bit. -/
def signed (f : Fmt) (neg : Bool) (mag : Nat) : Nat := if neg then mag + 2 ^ (f.ebits + f.mbits) else mag
end Fmt

/-! ### Exact values -/

/-- An exact value: NaN, an infinity, or the dyadic number (-1)^neg × m × 2^e (a zero keeps its sign). -/
inductive FV where
  | nan
  | inf (neg : Bool)
  | fin (neg : Bool) (m : Nat) (e : Int)
  deriving DecidableEq, Repr

/-- Reads an element (R115, R117). -/
def Fmt.decode (f : Fmt) (v : Nat) : FV :=
  let mag := v % 2 ^ (f.ebits + f.mbits)
  let neg := v.testBit (f.ebits + f.mbits)
  let ex := mag / 2 ^ f.mbits
  let m := mag % 2 ^ f.mbits
  let finite : FV :=
    if ex = 0 then .fin neg m f.emin else .fin neg (2 ^ f.mbits + m) (f.emin + (ex : Int) - 1)
  match f.specials with
  | .ieee => if ex = 2 ^ f.ebits - 1 then (if m = 0 then .inf neg else .nan) else finite
  | .nanOnly => if mag = 2 ^ (f.ebits + f.mbits) - 1 then .nan else finite
  | .none => finite

namespace FV

def isNan : FV → Bool
  | .nan => true
  | _ => false
def isInf : FV → Bool
  | .inf _ => true
  | _ => false
def isZero : FV → Bool
  | .fin _ 0 _ => true
  | _ => false
def sign : FV → Bool
  | .nan => false
  | .inf n => n
  | .fin n _ _ => n

def neg : FV → FV
  | .nan => .nan
  | .inf n => .inf (!n)
  | .fin n m e => .fin (!n) m e

/-- The signed integer of a finite value at exponent `e`, which must not exceed its own. -/
def atExp (x : FV) (e : Int) : Int :=
  match x with
  | .fin n m e' =>
    let v : Int := (m <<< (e' - e).toNat : Nat)
    if n then -v else v
  | _ => 0

def expOf : FV → Int
  | .fin _ _ e => e
  | _ => 0

/-- The finite value s × 2^e, with sign `zn` if it is zero. -/
def ofInt (s : Int) (e : Int) (zn : Bool := false) : FV :=
  if s = 0 then .fin zn 0 0 else .fin (decide (s < 0)) s.natAbs e

/-- Exact sum (IEEE 754 for the special values). An exact zero sum is +0 unless both operands are -0 (R139). -/
def add : FV → FV → FV
  | .nan, _ => .nan
  | _, .nan => .nan
  | .inf a, .inf b => if a = b then .inf a else .nan
  | .inf a, _ => .inf a
  | _, .inf b => .inf b
  | .fin n m e, .fin n' m' e' =>
    let lo := min e e'
    ofInt ((FV.fin n m e).atExp lo + (FV.fin n' m' e').atExp lo) lo (n && n')

/-- Exact product: infinity times zero is NaN (R132). -/
def mul : FV → FV → FV
  | .nan, _ => .nan
  | _, .nan => .nan
  | .inf a, .inf b => .inf (a != b)
  | .inf a, .fin n m _ => if m = 0 then .nan else .inf (a != n)
  | .fin n m _, .inf b => if m = 0 then .nan else .inf (n != b)
  | .fin n m e, .fin n' m' e' => .fin (n != n') (m * m') (e + e')

/-- Exact scaling by a power of two. -/
def scale (x : FV) (k : Int) : FV :=
  match x with
  | .fin n m e => .fin n m (e + k)
  | y => y

/-- `x < y` on numbers; the caller excludes NaN. -/
def lt : FV → FV → Bool
  | .nan, _ => false
  | _, .nan => false
  | .inf a, .inf b => a && !b
  | .inf a, .fin _ _ _ => a
  | .fin _ _ _, .inf b => !b
  | .fin n m e, .fin n' m' e' =>
    let lo := min e e'
    decide ((FV.fin n m e).atExp lo < (FV.fin n' m' e').atExp lo)

/-- Numeric equality (+0 equals -0; NaN equals nothing). -/
def eq (x y : FV) : Bool := !x.isNan && !y.isNan && !lt x y && !lt y x

/-- floor(log2 |x|) of a non-zero finite value. -/
def log2 : FV → Int
  | .fin _ m e => (Nat.log2 m : Int) + e
  | _ => 0

/-- A finite value truncated toward zero to a multiple of 2^q (R131). -/
def truncTo (x : FV) (q : Int) : FV :=
  match x with
  | .fin n m e => if q ≤ e then .fin n m e else .fin n (m >>> (q - e).toNat) q
  | y => y

end FV

/-! ### Numeric events (R142) -/

/-- Counts of numeric events. -/
structure Events where
  nan : Nat := 0
  ovf : Nat := 0
  clamp : Nat := 0
  unf : Nat := 0
  deriving DecidableEq, Repr

namespace Events
def zero : Events := {}
def add (a b : Events) : Events := ⟨a.nan + b.nan, a.ovf + b.ovf, a.clamp + b.clamp, a.unf + b.unf⟩
def sum (l : List Events) : Events := l.foldl add zero
/-- The four sticky flags, bit 0 NAN, 1 OVF, 2 CLAMP, 3 UNF (ENGINE_FLAGS). -/
def flags (a : Events) : BitVec 4 :=
  BitVec.ofBool (decide (0 < a.unf)) ++ BitVec.ofBool (decide (0 < a.clamp)) ++
    BitVec.ofBool (decide (0 < a.ovf)) ++ BitVec.ofBool (decide (0 < a.nan))
end Events

/-! ### Rounding into a format (R134 to R136) -/

/-- The rounding in force: nearest even, or seeded with the generator word `r` of the element (R136). -/
inductive Rnd where
  | rne
  | seeded (r : Nat)
  deriving DecidableEq, Repr

/-- Step 3 of R134 on `m` / 2^sh: the multiple of the quantum chosen. -/
def roundShift (rnd : Rnd) (m sh : Nat) : Nat :=
  let lo := m >>> sh
  let rem := m % 2 ^ sh
  if rem = 0 then lo
  else
    match rnd with
    | .rne =>
      if 2 * rem < 2 ^ sh then lo
      else if 2 ^ sh < 2 * rem then lo + 1
      else if lo % 2 = 0 then lo else lo + 1
    | .seeded r => if r < rem * 2 ^ 32 / 2 ^ sh then lo + 1 else lo

/-- The magnitude code of m × 2^e (m non-zero) before the overflow rule: R134 steps 1 to 3. -/
def roundMag (f : Fmt) (rnd : Rnd) (m : Nat) (e : Int) : Nat :=
  let q := max ((Nat.log2 m : Int) + e - f.mbits) f.emin
  let n := if q ≤ e then m <<< (e - q).toNat else roundShift rnd m (q - e).toNat
  (q - f.emin).toNat * 2 ^ f.mbits + n

/-- Conversion of an exact value into a floating-point format (R134, R135). `ieee` is FP8_OVF = IEEE; `nanIn` says that
an operand was NaN, so that a NaN result counts nothing (R142). -/
def roundTo (f : Fmt) (rnd : Rnd) (ieee nanIn : Bool) (x : FV) : Nat × Events :=
  let ovf (neg : Bool) : Nat × Events :=
    if f.width = 8 ∧ ieee = false then (f.signed neg f.maxMag, { clamp := 1 })
    else
      match f.specials with
      | .ieee => (f.signed neg f.infMag, { ovf := 1 })
      | _ => (f.nanBits, { ovf := 1 })
  match x with
  | .nan => (f.nanBits, if nanIn then {} else { nan := 1 })
  | .inf neg =>
    match f.specials with
    | .ieee => (f.signed neg f.infMag, {})
    | _ => ovf neg
  | .fin neg m e =>
    if m = 0 then (f.signed neg 0, {})
    else
      let mag := roundMag f rnd m e
      if f.maxMag < mag then ovf neg
      else if mag = 0 then (f.signed neg 0, { unf := 1 })
      else (f.signed neg mag, {})

/-- Saturates an integer into a two's complement width, counting OVF (R129, R135). -/
def satInt (w : Nat) (v : Int) : Nat × Events :=
  let hi : Int := 2 ^ (w - 1) - 1
  let lo : Int := -(2 ^ (w - 1))
  if hi < v then ((BitVec.ofInt w hi).toNat, { ovf := 1 })
  else if v < lo then ((BitVec.ofInt w lo).toNat, { ovf := 1 })
  else ((BitVec.ofInt w v).toNat, {})

/-- vcvt.i32.f on one lane (R134, R135). -/
def toI32 (x : FV) : Nat × Events :=
  match x with
  | .nan => (0, {})
  | .inf neg => ((BitVec.ofInt 32 (if neg then -(2 ^ 31) else 2 ^ 31 - 1)).toNat, { ovf := 1 })
  | .fin neg m e =>
    let n := if 0 ≤ e then m <<< e.toNat else roundShift .rne m (-e).toNat
    if n = 0 then (0, if m = 0 then {} else { unf := 1 })
    else satInt 32 (if neg then -(n : Int) else n)

/-! ### FP32 arithmetic (R139) -/

/-- The value of an FP32 word. -/
def fpv (w : Word) : FV := Fmt.fp32.decode w.toNat

/-- An exact value rounded to FP32, nearest even. -/
def toFp32 (nanIn : Bool) (x : FV) : Word × Events :=
  let r := roundTo .fp32 .rne false nanIn x
  (BitVec.ofNat 32 r.1, r.2)

def nanW : Word := 0x7FC00000

def fpAdd (a b : Word) : Word × Events :=
  toFp32 ((fpv a).isNan || (fpv b).isNan) ((fpv a).add (fpv b))
def fpSub (a b : Word) : Word × Events :=
  toFp32 ((fpv a).isNan || (fpv b).isNan) ((fpv a).add (fpv b).neg)
def fpMul (a b : Word) : Word × Events :=
  toFp32 ((fpv a).isNan || (fpv b).isNan) ((fpv a).mul (fpv b))
def fpFma (a b c : Word) : Word × Events :=
  toFp32 ((fpv a).isNan || (fpv b).isNan || (fpv c).isNan) (((fpv a).mul (fpv b)).add (fpv c))

/-- vmax: NaN if either operand is NaN; vmax(+0, -0) = +0. -/
def fpMax (a b : Word) : Word :=
  if (fpv a).isNan || (fpv b).isNan then nanW
  else if (fpv a).lt (fpv b) then b
  else if (fpv b).lt (fpv a) then a
  else if (fpv a).sign then b else a

/-- vmin: NaN if either operand is NaN; vmin(+0, -0) = -0. -/
def fpMin (a b : Word) : Word :=
  if (fpv a).isNan || (fpv b).isNan then nanW
  else if (fpv a).lt (fpv b) then a
  else if (fpv b).lt (fpv a) then b
  else if (fpv a).sign then a else b

def fpLt (a b : Word) : Bool := (fpv a).lt (fpv b)
def fpEq (a b : Word) : Bool := (fpv a).eq (fpv b)
def fpLe (a b : Word) : Bool := fpLt a b || fpEq a b

/-! ### Compensated sums (R140, R141) -/

/-- twosum: hi = RNE(a + b), lo = the exact error; lo = +0 where hi is not finite. Events are counted on hi only. -/
def twoSum (a b : Word) : (Word × Word) × Events :=
  let h := fpAdd a b
  match fpv h.1 with
  | .fin n m e =>
    let err := ((fpv a).add (fpv b)).add (FV.fin n m e).neg
    ((h.1, if err.isZero then 0 else (toFp32 false err).1), h.2)
  | _ => ((h.1, 0), h.2)

/-- twoprod: hi = RNE(a × b), lo = RNE(a × b - hi). -/
def twoProd (a b : Word) : (Word × Word) × Events :=
  let h := fpMul a b
  match fpv h.1 with
  | .fin n m e =>
    let err := ((fpv a).mul (fpv b)).add (FV.fin n m e).neg
    ((h.1, if err.isZero then 0 else (toFp32 false err).1), h.2)
  | _ => ((h.1, 0), h.2)

/-- An FP32 value that is neither infinite nor NaN. -/
def fpFinite (w : Word) : Bool := match fpv w with | .fin _ _ _ => true | _ => false

/-- The events of a sum or product of pairs on one lane, from its operands and the hi of its result: NAN where hi is NaN and no operand is,
OVF where hi is infinite and every operand is finite, UNF where hi is zero and a step rounded to zero (`low`). Each counts once (R141,
R142). -/
def pairEvents (ops : List Word) (hi : Word) (low : Bool) : Events :=
  { nan := if (fpv hi).isNan && !ops.any fun w => (fpv w).isNan then 1 else 0,
    ovf := if !(fpv hi).isNan && !fpFinite hi && ops.all fpFinite then 1 else 0,
    unf := if (fpv hi).isZero && low then 1 else 0 }

/-- cs.padd on one lane. -/
def csPadd (a b : Word × Word) : (Word × Word) × Events :=
  let se := (twoSum a.1 b.1).1
  let t := (fpAdd a.2 b.2).1
  let u := (fpAdd se.2 t).1
  let r := (twoSum se.1 u).1
  (r, pairEvents [a.1, a.2, b.1, b.2] r.1 false)

/-- cs.pmul on one lane. -/
def csPmul (a : Word × Word) (b : Word) : (Word × Word) × Events :=
  let pe := twoProd a.1 b
  let u := fpFma a.2 b pe.1.2
  let r := (twoSum pe.1.1 u.1).1
  (r, pairEvents [a.1, a.2, b] r.1 (decide (pe.2.unf ≠ 0) || decide (u.2.unf ≠ 0)))

/-! ### The generator (R137) -/

def mix (z : DWord) : DWord :=
  let z := z ^^^ (z >>> 31)
  let z := z * 0xA3C59AC26F1DE4B7#64
  let z := z ^^^ (z >>> 29)
  let z := z * 0xE35A7D21C4F60B8D#64
  z ^^^ (z >>> 32)

/-- gen(seed, tick, index, stream, elem) (R137). -/
def gen (seed tick : DWord) (index stream : Nat) (elem : Word) : Word :=
  let d : DWord := BitVec.ofNat 64 ((stream <<< 51) ||| (index <<< 32) ||| elem.toNat)
  let k := mix (seed ^^^ 0x5C3D91A60E7BF24B#64)
  let t := mix (k ^^^ tick)
  (mix (t + d)).truncate 32

end Sys2Proof.Machine
end

