-- ==== Sys2Proof/Config.lean ====
section
/-!
DEFINITION. What an implementation fixes and the free values: constants with no body, of which no proof can see a value.
-/
namespace Sys2Proof.Config

/-- A value that the spec leaves open, fresh at each count of the state's counter (log 3). -/
opaque freeValue (w : Nat) (k : Nat) : BitVec w

/-- The current limit in mA of rail `rail` for the average over `k` µs, where it is the factory's (R361). -/
opaque railLimit (rail k : Nat) : Nat

/-- The factory value of a calibration item by class and index (R426). -/
opaque factoryCal (cls index : Nat) : Int

/-- ROOT_KEY_HASH of the fuses (R412). -/
opaque rootKeyHash : BitVec 256

/-- DEVICE_SECRET of the fuses (R412). -/
opaque deviceSecret : BitVec 256

/-- The length of a program image's header, and the areas (address and length) that it names (R61, R423, log 45). -/
opaque imageLen : Nat
/-- See `imageLen`. -/
opaque imageAreas (header : List Byte) : List (Nat × Nat)

/-- The Falcon-1024 public key that key generation from a seed gives (R419, log 15). -/
opaque falconPublic (seed : List Byte) : BitVec 14344
/-- The private key that belongs to it (R419, log 15). -/
opaque falconPrivate (seed : List Byte) : BitVec 18440
/-- What a Falcon-1024 signature in the padded format holds after its header and its salt (R421, log 15). -/
opaque falconBody (privateKey msg salt : List Byte) : BitVec 9912

/-- MAC_BASE of the fuses (R311, R412). -/
opaque macBase : BitVec 48

/-- The address straps SA1 and SA0 (R440). -/
opaque straps : BitVec 2

end Sys2Proof.Config
end

