-- ==== Sys2Proof/Machine/Fields.lean ====
section
/-!
DEFINITION. The register tables of the spec, one definition per field: offset of its 32-bit word in its window, lowest
bit, width, access code, reset value, and whether it is a TICK field (R8, R11). MR: the module window; RR: a region
window; HR: a hub window; KR: a memory controller; PR: a port; CR: a core. A field whose reset the spec derives (from
the remap, the context, the fuses) carries 0 here and is computed where it is read. The lists give each window's
fields with the stride and the number of its array. Log 6.
-/
namespace Sys2Proof.Machine

/-! ### the module window -/

/-- Vangierel vendor code -/
def MR.VENDOR_ID : Fld := ⟨0x0, 16, 16, .ro, 22087, false⟩
/-- Part number -/
def MR.PART_ID : Fld := ⟨0x0, 0, 16, .ro, 10336, false⟩
/-- Wafer mask stepping: bits 7:4 the letter (0 A, 1 B, and so on), bits 3:0 the number. … -/
def MR.WAFER_STEP : Fld := ⟨0x4, 16, 8, .ro, 17, false⟩
/-- Hub chiplet stepping, common to H0–H3, coded as WAFER_STEP. Shipped modules read 0x02 (A2) -/
def MR.HUB_STEP : Fld := ⟨0x4, 8, 8, .ro, 2, false⟩
/-- MP boot ROM version. Shipped modules read 0x04 -/
def MR.ROM_VERSION : Fld := ⟨0x4, 0, 8, .ro, 4, false⟩
/-- Module serial number, bits 31:0. The 64-bit serial number is unique per module and is … -/
def MR.SERIAL_LO : Fld := ⟨0x8, 0, 32, .ro, 0, false⟩
/-- Module serial number, bits 63:32 -/
def MR.SERIAL_HI : Fld := ⟨0xC, 0, 32, .ro, 0, false⟩
/-- Logical rows; the register reads 0x01F8_0240 -/
def MR.GRID_Y : Fld := ⟨0x10, 16, 10, .ro, 504, false⟩
/-- Logical columns -/
def MR.GRID_X : Fld := ⟨0x10, 0, 10, .ro, 576, false⟩
/-- Physical and logical rows per region -/
def MR.ROWS_PER_REGION : Fld := ⟨0x14, 24, 7, .ro, 72, false⟩
/-- Logical columns per region -/
def MR.LOG_COLS : Fld := ⟨0x14, 16, 7, .ro, 72, false⟩
/-- Physical columns per region -/
def MR.PHYS_COLS : Fld := ⟨0x14, 8, 7, .ro, 75, false⟩
/-- Region rows -/
def MR.REGIONS_Y : Fld := ⟨0x14, 4, 4, .ro, 7, false⟩
/-- Region columns -/
def MR.REGIONS_X : Fld := ⟨0x14, 0, 4, .ro, 8, false⟩
/-- Bit r = 1: region r is DEGRADED (regions 0–31), in force; changes when the in-force … -/
def MR.DEGRADED_LO : Fld := ⟨0x18, 0, 32, .ro, 0, false⟩
/-- Bit r − 32 = 1: region r is DEGRADED (regions 32–55), in force; changes when the … -/
def MR.DEGRADED_HI : Fld := ⟨0x1C, 0, 24, .ro, 0, false⟩
/-- Unusable physical cores in the defect list -/
def MR.UNUSABLE_TOTAL : Fld := ⟨0x20, 0, 19, .ro, 0, false⟩
/-- ABSENT logical cores in the in-force remap -/
def MR.ABSENT_TOTAL : Fld := ⟨0x24, 0, 19, .ro, 0, false⟩
/-- 1: some region's pending view differs from its in-force view -/
def MR.MOD_REMAP_PENDING : Fld := ⟨0x28, 16, 1, .ro, 0, false⟩
/-- Incremented each time R25 puts a remap in force; wraps from 0xFFFF to 0 -/
def MR.MOD_REMAP_GEN : Fld := ⟨0x28, 0, 16, .ro, 0, false⟩
/-- MOD_ADDR_FAULT: address bits 31:0 of the first refused access since the last clear -/
def MR.ADDR_FAULT_LO : Fld := ⟨0x30, 0, 32, .ro, 0, false⟩
/-- Address bits 47:32 of the same access -/
def MR.ADDR_FAULT_HI : Fld := ⟨0x34, 0, 16, .ro, 0, false⟩
/-- 1: the record at 0x0030–0x0038 is held; writing 1 frees it for the next refusal -/
def MR.ADDR_FAULT_VALID : Fld := ⟨0x38, 31, 1, .w1c, 0, false⟩
/-- 0 core, 1 host, 2 MP, 3 hub agent -/
def MR.REQ_CLASS : Fld := ⟨0x38, 18, 2, .ro, 0, false⟩
/-- 0 UNMAPPED, 1 NOT_HBM, 2 NOT_HALTED, 3 ABSENT -/
def MR.CAUSE : Fld := ⟨0x38, 16, 2, .ro, 0, false⟩
/-- Logical core index bits 15:0, queue pair number, or agent number -/
def MR.REQ_ID : Fld := ⟨0x38, 0, 16, .ro, 0, false⟩
/-- Sticky: ADDR_FAULT_COUNT reached 0xFFFF -/
def MR.ADDR_FAULT_SAT : Fld := ⟨0x3C, 16, 1, .w1c, 0, false⟩
/-- Refused device accesses, saturating (R14) -/
def MR.ADDR_FAULT_COUNT : Fld := ⟨0x3C, 0, 16, .rc, 0, false⟩
/-- 0 none, 1 START, 2 PREEMPT, 3 LOAD -/
def MR.RUN_CMD : Fld := ⟨0x100, 0, 2, .wo, 0, false⟩
/-- Sticky: CMD_IGNORED reached 0xFF -/
def MR.CMD_IGNORED_SAT : Fld := ⟨0x104, 20, 1, .w1c, 0, false⟩
/-- Commands ignored under R61, saturating -/
def MR.CMD_IGNORED : Fld := ⟨0x104, 12, 8, .rc, 0, false⟩
/-- 1: TICK values or a plan wait to commit -/
def MR.COMMIT_PENDING : Fld := ⟨0x104, 4, 1, .ro, 0, false⟩
/-- 1: a pre-empted tick can resume -/
def MR.RESUME_VALID : Fld := ⟨0x104, 3, 1, .ro, 0, false⟩
/-- 0 HALTED, 1 LOADING, 2 RUNNING, 3 PREEMPTING, 4 ABORTING -/
def MR.RUN_STATE : Fld := ⟨0x104, 0, 3, .ro, 0, false⟩
/-- Last load or plan-check result, codes above -/
def MR.LOAD_RESULT : Fld := ⟨0x108, 28, 4, .ro, 0, false⟩
/-- Lowest logical index concerned, for codes 4–7 and 10 -/
def MR.LOAD_CORE : Fld := ⟨0x108, 0, 19, .ro, 0, false⟩
/-- Image header, physical HBM address, bits 31:0 -/
def MR.PROG_BASE_LO : Fld := ⟨0x110, 0, 32, .rw, 0, false⟩
/-- Bits 47:32 -/
def MR.PROG_BASE_HI : Fld := ⟨0x114, 0, 16, .rw, 0, false⟩
/-- 1: TICK messages carry COMMIT clear (R58) -/
def MR.COMMIT_HOLD : Fld := ⟨0x118, 8, 1, .rw, 0, false⟩
/-- Port P0–P8 accepting TICK; values 9–15 act as 8 -/
def MR.TICK_PORT : Fld := ⟨0x118, 4, 4, .rw, 0, true⟩
/-- 0 GROUP, 1 LOCAL -/
def MR.TICK_SOURCE : Fld := ⟨0x118, 1, 1, .rw, 1, true⟩
/-- 0 STRETCH, 1 STRICT -/
def MR.TICK_MODE : Fld := ⟨0x118, 0, 1, .rw, 0, true⟩
/-- STRICT local period in ns, clamped to 10,000–1,000,000,000 -/
def MR.TICK_PERIOD : Fld := ⟨0x11C, 0, 30, .rw, 1000000, true⟩
/-- Plan, physical HBM address, bits 31:0; 32-byte aligned (R45) -/
def MR.PLAN_BASE_LO : Fld := ⟨0x120, 0, 32, .rw, 0, true⟩
/-- Bits 47:32 -/
def MR.PLAN_BASE_HI : Fld := ⟨0x124, 0, 16, .rw, 0, true⟩
/-- First tick number at START, bits 31:0 -/
def MR.START_TICK_LO : Fld := ⟨0x130, 0, 32, .rw, 0, false⟩
/-- Bits 63:32 -/
def MR.START_TICK_HI : Fld := ⟨0x134, 0, 32, .rw, 0, false⟩
/-- Tick in progress, bits 31:0 -/
def MR.TICK_NUM_LO : Fld := ⟨0x138, 0, 32, .ro, 0, false⟩
/-- Bits 63:32 -/
def MR.TICK_NUM_HI : Fld := ⟨0x13C, 0, 32, .ro, 0, false⟩
/-- Region of the first abort cause of the last completed tick; 0x3F none -/
def MR.FAULT_REGION : Fld := ⟨0x140, 16, 6, .ro, 63, false⟩
/-- FLT_CHAN_CLOSED reported in the last completed tick -/
def MR.CHAN_CLOSED_SEEN : Fld := ⟨0x140, 10, 1, .ro, 0, false⟩
/-- FLT_EPOCH_LATE reported in the last completed tick -/
def MR.EPOCH_LATE_SEEN : Fld := ⟨0x140, 9, 1, .ro, 0, false⟩
/-- FLT_EPOCH_RESIDUE in the last completed tick -/
def MR.EPOCH_RESIDUE_SEEN : Fld := ⟨0x140, 8, 1, .ro, 0, false⟩
/-- 0 COMPLETE, 1 FAULTED, 2 DROPPED, 3 PREEMPTED -/
def MR.OUTCOME : Fld := ⟨0x140, 0, 2, .ro, 0, false⟩
/-- Sticky: OVERRUN_COUNT reached 0xFFFF -/
def MR.OVERRUN_SAT : Fld := ⟨0x144, 16, 1, .w1c, 0, false⟩
/-- FLT_TICK_OVERRUN events -/
def MR.OVERRUN_COUNT : Fld := ⟨0x144, 0, 16, .rc, 0, false⟩
/-- Sticky: DUP_TICK_COUNT reached 0xFFFF -/
def MR.DUP_TICK_SAT : Fld := ⟨0x148, 16, 1, .w1c, 0, false⟩
/-- Duplicate or wrong-port TICK messages discarded -/
def MR.DUP_TICK_COUNT : Fld := ⟨0x148, 0, 16, .rc, 0, false⟩
/-- Sticky: FLT_TICK_SEQUENCE recorded -/
def MR.SEQ_FAULT : Fld := ⟨0x14C, 0, 1, .w1c, 0, false⟩
/-- Tick number of the first out-of-sequence TICK, bits 31:0 -/
def MR.SEQ_GOT_LO : Fld := ⟨0x150, 0, 32, .ro, 0, false⟩
/-- Bits 63:32 -/
def MR.SEQ_GOT_HI : Fld := ⟨0x154, 0, 32, .ro, 0, false⟩
/-- Address of the recorded refused host write, bits 31:0 -/
def MR.BUSY_ADDR_LO : Fld := ⟨0x158, 0, 32, .ro, 0, false⟩
/-- Bits 47:32 -/
def MR.BUSY_ADDR_HI : Fld := ⟨0x15C, 0, 16, .ro, 0, false⟩
/-- 1: the record is held; writing 1 frees it -/
def MR.BUSY_VALID : Fld := ⟨0x160, 31, 1, .w1c, 0, false⟩
/-- As REQ_CLASS of MOD_ADDR_FAULT -/
def MR.BUSY_REQ_CLASS : Fld := ⟨0x160, 18, 2, .ro, 0, false⟩
/-- Queue pair number -/
def MR.BUSY_REQ_ID : Fld := ⟨0x160, 0, 16, .ro, 0, false⟩
/-- Sticky: BUSY_COUNT reached 0xFFFF -/
def MR.BUSY_SAT : Fld := ⟨0x164, 16, 1, .w1c, 0, false⟩
/-- Refused host and MP writes -/
def MR.BUSY_COUNT : Fld := ⟨0x164, 0, 16, .rc, 0, false⟩
/-- Program seed, bits 31:0 -/
def MR.PROG_SEED_LO : Fld := ⟨0x200, 0, 32, .rw, 0, true⟩
/-- Program seed, bits 63:32 -/
def MR.PROG_SEED_HI : Fld := ⟨0x204, 0, 32, .rw, 0, true⟩
/-- Share gain in 1/65,536 byte per 6.4 ns (R204) -/
def MR.SHARE_RATE : Fld := ⟨0x300, 0, 16, .rw, 46233, true⟩
/-- Balance limit in bytes; clamped to 64–32,768 and rounded down to a multiple of 64 -/
def MR.SHARE_BURST : Fld := ⟨0x304, 0, 16, .rw, 4096, true⟩
/-- 0: BOOST held at 16 -/
def MR.BOOST_EN : Fld := ⟨0x308, 16, 1, .rw, 1, true⟩
/-- Epoch in µs; clamped to 1–1,000 -/
def MR.BOOST_EPOCH : Fld := ⟨0x308, 0, 10, .rw, 10, true⟩
/-- Waiting blocks above which BOOST falls -/
def MR.BOOST_HIGH : Fld := ⟨0x30C, 16, 16, .rw, 8192, true⟩
/-- Waiting blocks below which BOOST rises -/
def MR.BOOST_LOW : Fld := ⟨0x30C, 0, 16, .rw, 1024, true⟩
/-- Multiplier in force -/
def MR.BOOST : Fld := ⟨0x310, 0, 8, .ro, 16, false⟩
/-- Snapshot area, bits 31:0; 4 KiB aligned -/
def MR.SNAP_BASE_LO : Fld := ⟨0x318, 0, 32, .rw, 0, false⟩
/-- 1: write snapshots (R197) -/
def MR.SNAP_EN : Fld := ⟨0x31C, 31, 1, .rw, 0, false⟩
/-- Bits 47:32 -/
def MR.SNAP_BASE_HI : Fld := ⟨0x31C, 0, 16, .rw, 0, false⟩
/-- Tick of the last formed tick hallmark, bits 31:0 -/
def MR.HM_TICK_LO : Fld := ⟨0x400, 0, 32, .ro, 0, false⟩
/-- Bits 63:32 -/
def MR.HM_TICK_HI : Fld := ⟨0x404, 0, 32, .ro, 0, false⟩
/-- 1: that tick updated the head -/
def MR.LAST_CHAINED : Fld := ⟨0x408, 0, 1, .ro, 0, false⟩
/-- Word w (0–7) of TH(n); word 0 holds bytes 0–3 (one of 8, 4 bytes apart) -/
def MR.TICK_HM : Fld := ⟨0x410, 0, 32, .ro, 0, false⟩
/-- Word w of the chain head (one of 8, 4 bytes apart) -/
def MR.HM_HEAD : Fld := ⟨0x430, 0, 32, .ro, 0, false⟩
/-- Word w of the starting head (R272) (one of 8, 4 bytes apart) -/
def MR.HM_CHAIN_INIT : Fld := ⟨0x450, 0, 32, .rw, 0, false⟩
/-- Log base, bits 31:0; 64-byte aligned -/
def MR.HM_LOG_BASE_LO : Fld := ⟨0x470, 0, 32, .rw, 0, true⟩
/-- 1: write log records (R273) -/
def MR.HM_LOG_EN : Fld := ⟨0x474, 31, 1, .rw, 0, true⟩
/-- 2^value records; clamped to 0–20 -/
def MR.HM_LOG_ORDER : Fld := ⟨0x474, 16, 5, .rw, 10, true⟩
/-- Bits 47:32 -/
def MR.HM_LOG_BASE_HI : Fld := ⟨0x474, 0, 16, .rw, 0, true⟩
/-- Stop tick, bits 31:0 (R274) -/
def MR.STOP_TICK_LO : Fld := ⟨0x478, 0, 32, .rw, 0, false⟩
/-- Bits 63:32 -/
def MR.STOP_TICK_HI : Fld := ⟨0x47C, 0, 32, .rw, 0, false⟩
/-- Sticky: the module halted at STOP_TICK -/
def MR.STOP_HIT : Fld := ⟨0x480, 1, 1, .w1c, 0, false⟩
/-- 1: halt after local completion of STOP_TICK -/
def MR.STOP_EN : Fld := ⟨0x480, 0, 1, .rw, 0, false⟩
/-- L1 table, address bits 31:12 (R292) -/
def MR.PT_ROOT_LO : Fld := ⟨0x500, 12, 20, .rw, 0, true⟩
/-- Bits 47:32 -/
def MR.PT_ROOT_HI : Fld := ⟨0x504, 0, 16, .rw, 0, true⟩
/-- Start of range, bits 31:0; bits 15:0 ignored -/
def MR.INV_VA_LO : Fld := ⟨0x508, 0, 32, .rw, 0, false⟩
/-- 64 KiB pages in the range; 0 all -/
def MR.INV_PAGES : Fld := ⟨0x50C, 16, 16, .rw, 0, false⟩
/-- Bits 47:32 -/
def MR.INV_VA_HI : Fld := ⟨0x50C, 0, 16, .rw, 0, false⟩
/-- 1: start an invalidation (R291) -/
def MR.INV_GO : Fld := ⟨0x510, 31, 1, .wo, 0, false⟩
/-- 1: invalidation in progress -/
def MR.INV_BUSY : Fld := ⟨0x510, 30, 1, .ro, 0, false⟩
/-- Pool ring of u64 entries, bits 31:0; 64-byte aligned -/
def MR.POOL_BASE_LO : Fld := ⟨0x518, 0, 32, .rw, 0, false⟩
/-- 2^value entries; clamped to 0–16 -/
def MR.POOL_ORDER : Fld := ⟨0x51C, 16, 5, .rw, 0, false⟩
/-- Bits 47:32 -/
def MR.POOL_BASE_HI : Fld := ⟨0x51C, 0, 16, .rw, 0, false⟩
/-- Entries supplied by the runtime, modulo 2^16 -/
def MR.POOL_TAIL : Fld := ⟨0x520, 16, 16, .rw, 0, false⟩
/-- Entries taken by the MP; equal to POOL_TAIL when empty -/
def MR.POOL_HEAD : Fld := ⟨0x520, 0, 16, .ro, 0, false⟩
/-- Ring for fault records (R295) -/
def MR.FAULT_RING : Fld := ⟨0x524, 0, 18, .rw, 0, false⟩
/-- FAULT_ID of the next RESOLVE_ACT -/
def MR.RESOLVE_ID : Fld := ⟨0x528, 0, 32, .wo, 0, false⟩
/-- 1 RETRY, 2 DENY; 0 and 3 ignored -/
def MR.RESOLVE_ACT : Fld := ⟨0x52C, 0, 2, .wo, 0, false⟩
/-- Pending faults, 0–256 -/
def MR.FAULTS_PENDING : Fld := ⟨0x530, 16, 9, .ro, 0, false⟩
/-- Pages mapped under R294, saturating -/
def MR.DEMAND_MAPS : Fld := ⟨0x530, 0, 16, .rc, 0, false⟩
/-- Pool entries skipped, saturating -/
def MR.POOL_BAD : Fld := ⟨0x534, 16, 16, .rc, 0, false⟩
/-- RESOLVE writes ignored, saturating -/
def MR.STALE_RESOLVE : Fld := ⟨0x534, 0, 16, .rc, 0, false⟩
/-- This module's node; refused with BUSY while RUN_STATE is RUNNING, PREEMPTING or ABORTING -/
def MR.NODE_ID : Fld := ⟨0x600, 0, 10, .rw, 0, false⟩
/-- 1: accept RoCEv2 (R334); refused as NODE_ID -/
def MR.BRIDGE_EN : Fld := ⟨0x604, 17, 1, .rw, 0, false⟩
/-- 1: tick master (R327) -/
def MR.GROUP_MASTER : Fld := ⟨0x604, 16, 1, .rw, 0, true⟩
/-- GROUP_SIZE − 1 -/
def MR.GROUP_SIZE_M1 : Fld := ⟨0x604, 8, 5, .rw, 0, true⟩
/-- This module's MEMBER_INDEX -/
def MR.GROUP_INDEX : Fld := ⟨0x604, 0, 5, .rw, 0, true⟩
/-- Node of the tick master -/
def MR.MASTER_NODE : Fld := ⟨0x608, 0, 10, .rw, 0, true⟩
/-- H0 port of flow 1, 0–8; values 9–15 act as 8 -/
def MR.REPORT_PORT_B : Fld := ⟨0x60C, 16, 4, .rw, 3, true⟩
/-- Deadline; clamped to 1,000–20,000 -/
def MR.REPORT_WINDOW_NS : Fld := ⟨0x60C, 0, 15, .rw, 5000, true⟩
/-- Re-send time of flows 0 and 1; clamped to 200–20,000 -/
def MR.TICK_RTO_NS : Fld := ⟨0x610, 0, 16, .rw, 1500, true⟩
/-- R329 -/
def MR.MISSING_LIMIT_US : Fld := ⟨0x614, 0, 24, .rw, 110000, true⟩
/-- Node table, bits 31:0; 64-byte aligned; refused as NODE_ID -/
def MR.NODE_TABLE_LO : Fld := ⟨0x618, 0, 32, .rw, 0, false⟩
/-- Entries, 0–1,024; refused as NODE_ID -/
def MR.NODE_COUNT : Fld := ⟨0x61C, 16, 11, .rw, 0, false⟩
/-- Bits 47:32 -/
def MR.NODE_TABLE_HI : Fld := ⟨0x61C, 0, 16, .rw, 0, false⟩
/-- Ring table, bits 31:0; 4 KiB aligned; refused as NODE_ID -/
def MR.RING_TABLE_LO : Fld := ⟨0x620, 0, 32, .rw, 0, false⟩
/-- Bits 47:32 -/
def MR.RING_TABLE_HI : Fld := ⟨0x624, 0, 16, .rw, 0, false⟩
/-- Queue pair table, bits 31:0; 64-byte aligned -/
def MR.QP_TABLE_LO : Fld := ⟨0x628, 0, 32, .rw, 0, false⟩
/-- Entries, 0–4,096 -/
def MR.QP_COUNT : Fld := ⟨0x62C, 16, 13, .rw, 0, false⟩
/-- Bits 47:32 -/
def MR.QP_TABLE_HI : Fld := ⟨0x62C, 0, 16, .rw, 0, false⟩
/-- Ring for group events and FM traffic -/
def MR.FM_RING : Fld := ⟨0x630, 0, 18, .rw, 0, false⟩
/-- 1: the LATE record is held; writing 1 frees it -/
def MR.LATE_VALID : Fld := ⟨0x634, 31, 1, .w1c, 0, false⟩
/-- 1: this module's report (R330); 0: a member's (master) -/
def MR.LATE_SELF : Fld := ⟨0x634, 30, 1, .ro, 0, false⟩
/-- Member concerned -/
def MR.LATE_MEMBER : Fld := ⟨0x634, 0, 5, .ro, 0, false⟩
/-- Tick, bits 31:0 -/
def MR.LATE_TICK : Fld := ⟨0x638, 0, 32, .ro, 0, false⟩
/-- ELAPSED_NS accepted; 0xFFFF_FFFF for LATE_SELF -/
def MR.LATE_ELAPSED_NS : Fld := ⟨0x63C, 0, 32, .ro, 0, false⟩
/-- Sticky: REPORTS_LATE reached 0xFFFF -/
def MR.LATE_SAT : Fld := ⟨0x640, 16, 1, .w1c, 0, false⟩
/-- Late or missing reports seen -/
def MR.REPORTS_LATE : Fld := ⟨0x640, 0, 16, .rc, 0, false⟩
/-- Node of the first FLT_PEER_UNREACHABLE -/
def MR.UNREACH_NODE : Fld := ⟨0x644, 0, 32, .ro, 0, false⟩
/-- 1: record held; writing 1 frees it -/
def MR.UNREACH_VALID : Fld := ⟨0x648, 31, 1, .w1c, 0, false⟩
/-- Flow -/
def MR.UNREACH_FLOW : Fld := ⟨0x648, 0, 16, .ro, 0, false⟩
/-- HOST_PORT_MASK bits 31:0 -/
def MR.HOST_PORTS_LO : Fld := ⟨0x650, 0, 32, .rw, 0, false⟩
/-- Bits 35:32 -/
def MR.HOST_PORTS_HI : Fld := ⟨0x654, 0, 4, .rw, 0, false⟩
/-- Port P0–P8 for RECOVERED; values 9–15 act as 8 -/
def MR.TIMING_PORT : Fld := ⟨0x700, 1, 4, .rw, 0, false⟩
/-- 0 CHASSIS, 1 RECOVERED (R349) -/
def MR.REF_SOURCE_REQ : Fld := ⟨0x700, 0, 1, .rw, 0, false⟩
/-- Settle delay (R348) -/
def MR.REF_SETTLE_US : Fld := ⟨0x704, 0, 20, .ro, 0, false⟩
/-- 0 none, 1 park ramp, 2 pull-in, 3 return ramp (R354) -/
def MR.SWITCH_STEP : Fld := ⟨0x708, 3, 2, .ro, 0, false⟩
/-- 1: PLLs in holdover -/
def MR.REF_HOLDOVER : Fld := ⟨0x708, 2, 1, .ro, 0, false⟩
/-- 1: settle timer running -/
def MR.REF_SETTLING : Fld := ⟨0x708, 1, 1, .ro, 0, false⟩
/-- 0 CHASSIS, 1 RECOVERED -/
def MR.REF_IN_USE : Fld := ⟨0x708, 0, 1, .ro, 0, false⟩
/-- Sticky: SWITCH_COUNT reached 0xFFFF -/
def MR.SWITCH_SAT : Fld := ⟨0x70C, 16, 1, .w1c, 0, false⟩
/-- Source changes -/
def MR.SWITCH_COUNT : Fld := ⟨0x70C, 0, 16, .rc, 0, false⟩
/-- Minimum time between steps (R352); clamped to 500–65,535 -/
def MR.DWELL_NS : Fld := ⟨0x710, 0, 16, .rw, 2000, true⟩
/-- W per ms (R364); clamped to 100–27,000 -/
def MR.CAP_SLEW_W : Fld := ⟨0x714, 16, 16, .rw, 1000, false⟩
/-- Cap; clamped to 5,000–27,000 -/
def MR.POWER_CAP_W : Fld := ⟨0x714, 0, 16, .rw, 27000, false⟩
/-- Input power, 5 µs average -/
def MR.P_IN_W : Fld := ⟨0x718, 16, 16, .ro, 0, false⟩
/-- Cap in force -/
def MR.CAP_EFF_W : Fld := ⟨0x718, 0, 16, .ro, 27000, false⟩
/-- ΣP(VM) -/
def MR.P_MEM_W : Fld := ⟨0x71C, 16, 16, .ro, 0, false⟩
/-- ΣP(VL) -/
def MR.P_LINK_W : Fld := ⟨0x71C, 0, 16, .ro, 0, false⟩
/-- ΣP(VR) -/
def MR.P_COMPUTE_W : Fld := ⟨0x720, 16, 16, .ro, 0, false⟩
/-- ΣP(VH) -/
def MR.P_HUB_W : Fld := ⟨0x720, 0, 16, .ro, 0, false⟩
/-- B (R363) -/
def MR.COMPUTE_BUDGET_W : Fld := ⟨0x724, 16, 16, .ro, 0, false⟩
/-- Sticky: the cap could not be met (R363) -/
def MR.CAP_UNMET : Fld := ⟨0x724, 2, 1, .w1c, 0, false⟩
/-- 1: memory throttled for the cap -/
def MR.MEM_THROTTLE : Fld := ⟨0x724, 1, 1, .ro, 0, false⟩
/-- 1: some region's LIMIT_D is set by its share -/
def MR.CAP_BINDING : Fld := ⟨0x724, 0, 1, .ro, 0, false⟩
/-- 1: load filler enabled -/
def MR.FILLER_EN : Fld := ⟨0x728, 24, 1, .rw, 1, true⟩
/-- Release, 0.1% of P_ref per ms; clamped to 1–255 -/
def MR.FILLER_SLOPE : Fld := ⟨0x728, 16, 8, .rw, 50, true⟩
/-- Initial floor, % of P_ref; clamped to 0–100 -/
def MR.FILLER_FLOOR_PCT : Fld := ⟨0x728, 0, 7, .rw, 85, true⟩
/-- P_ref window; clamped to 100–10,000 -/
def MR.FILLER_REF_US : Fld := ⟨0x72C, 0, 16, .rw, 1000, true⟩
/-- °C (R373); clamped to 50–110 -/
def MR.TRIP_CLEAR_C : Fld := ⟨0x730, 24, 8, .rw, 90, true⟩
/-- °C; clamped to 70–120; below THROTTLE_C + 5 acts as THROTTLE_C + 5 -/
def MR.TRIP_C : Fld := ⟨0x730, 16, 8, .rw, 115, true⟩
/-- °C; clamped to 1–20 -/
def MR.HYST_C : Fld := ⟨0x730, 8, 8, .rw, 5, true⟩
/-- °C (R369); clamped to 60–110 -/
def MR.THROTTLE_C : Fld := ⟨0x730, 0, 8, .rw, 100, true⟩
/-- R362, R363; clamped to 5–10,000 -/
def MR.CCLK_RESTORE_US : Fld := ⟨0x734, 0, 16, .rw, 50, true⟩
/-- Bit r: eclipse region r, regions 0–31 (R370) -/
def MR.ECLIPSE_LO : Fld := ⟨0x740, 0, 32, .rw, 0, true⟩
/-- Bit r − 32: regions 32–55 -/
def MR.ECLIPSE_HI : Fld := ⟨0x744, 0, 24, .rw, 0, true⟩
/-- Eclipse in force, regions 0–31 -/
def MR.ECL_NOW_LO : Fld := ⟨0x748, 0, 32, .ro, 0, false⟩
/-- Regions 32–55 -/
def MR.ECL_NOW_HI : Fld := ⟨0x74C, 0, 24, .ro, 0, false⟩
/-- Bit r: region r tripped (R373) -/
def MR.TRIPPED_LO : Fld := ⟨0x750, 0, 32, .ro, 0, false⟩
/-- Regions 32–55 -/
def MR.TRIPPED_HI : Fld := ⟨0x754, 0, 24, .ro, 0, false⟩
/-- 1: R374 in effect -/
def MR.THERMAL_SHUTDOWN : Fld := ⟨0x758, 3, 1, .ro, 0, false⟩
/-- Sticky: START ignored (R370) -/
def MR.ECL_CONFLICT : Fld := ⟨0x758, 2, 1, .w1c, 0, false⟩
/-- Sticky: pending mask discarded (R370) -/
def MR.ECL_REFUSED : Fld := ⟨0x758, 1, 1, .w1c, 0, false⟩
/-- Sticky: a clear was not stored (R373) -/
def MR.TRIP_CLEAR_REFUSED : Fld := ⟨0x758, 0, 1, .w1c, 0, false⟩
/-- 1 ON, 2 OFF; 0 and 3 ignored -/
def MR.DOM_ACT : Fld := ⟨0x760, 30, 2, .wo, 0, false⟩
/-- Domain 0–263 -/
def MR.DOM_NUM : Fld := ⟨0x760, 0, 9, .wo, 0, false⟩
/-- Domain of the last command -/
def MR.DOM_RESULT_NUM : Fld := ⟨0x764, 16, 9, .ro, 0, false⟩
/-- 0 OK, 1 BUSY, 2 BAD_DOMAIN (264 or above), 3 FAILED -/
def MR.DOM_RESULT : Fld := ⟨0x764, 0, 2, .ro, 0, false⟩
/-- 1: FLT_POWER_DOMAIN record held; writing 1 frees it -/
def MR.PD_VALID : Fld := ⟨0x768, 31, 1, .w1c, 0, false⟩
/-- Failed domain -/
def MR.PD_NUM : Fld := ⟨0x768, 0, 9, .ro, 0, false⟩
/-- w = 0–32; domain 8w + j in bits 4j + 3 : 4j: 0 OFF, 1 RAMP_ON, 2 ON, 3 RAMP_OFF, 4 … (one of 33, 4 bytes apart) -/
def MR.DOM_STATE : Fld := ⟨0x770, 0, 32, .ro, 0, false⟩
/-- Stage detail (R377) -/
def MR.DETAIL : Fld := ⟨0x800, 16, 16, .ro, 0, false⟩
/-- 0 BOOTING, 1 READY, 2 RECOVERY, 3 FAILED, 4 SHUTDOWN -/
def MR.MOD_STATE : Fld := ⟨0x800, 8, 3, .ro, 0, false⟩
/-- 0 OK, 1 WARN, 2 FAILED, 3 WAITING -/
def MR.STAGE_RESULT : Fld := ⟨0x800, 4, 2, .ro, 3, false⟩
/-- Stage 1–9 -/
def MR.STAGE : Fld := ⟨0x800, 0, 4, .ro, 1, false⟩
/-- Bring-ups since manufacture, incremented at stage 2 -/
def MR.BOOT_COUNT : Fld := ⟨0x804, 0, 32, .ro, 0, false⟩
/-- Core, region or hub of the last reset -/
def MR.LAST_INDEX : Fld := ⟨0x808, 7, 19, .ro, 0, false⟩
/-- 0 core, 1 region, 2 hub, 3 module -/
def MR.LAST_DOMAIN : Fld := ⟨0x808, 5, 2, .ro, 3, false⟩
/-- CAUSE of R392 -/
def MR.LAST_CAUSE : Fld := ⟨0x808, 0, 4, .ro, 0, false⟩
/-- 0 core, 1 region, 2 hub, 3 module -/
def MR.RESET_DOMAIN : Fld := ⟨0x80C, 30, 2, .wo, 0, false⟩
/-- 1: request the reset -/
def MR.RESET_GO : Fld := ⟨0x80C, 29, 1, .wo, 0, false⟩
/-- Logical index, region or hub -/
def MR.RESET_INDEX : Fld := ⟨0x80C, 0, 19, .wo, 0, false⟩
/-- 0 OK, 1 BUSY, 2 BAD_INDEX, 3 HOT -/
def MR.RESET_RESULT : Fld := ⟨0x810, 0, 2, .ro, 0, false⟩
/-- MP only; 1 restarts the MP watchdog -/
def MR.MOD_WDOG_PET : Fld := ⟨0x814, 31, 1, .wo, 0, false⟩
/-- Clamped to 10–10,000 -/
def MR.MOD_WDOG_MS : Fld := ⟨0x814, 0, 14, .rw, 100, true⟩
/-- 1 SCAN (R386); others ignored -/
def MR.BOOT_CMD : Fld := ⟨0x818, 0, 2, .wo, 0, false⟩
/-- Suspect cores at the last test (R382) -/
def MR.VOTE_SUSPECT : Fld := ⟨0x81C, 16, 16, .ro, 0, false⟩
/-- Cores retired at the last test -/
def MR.VOTE_RETIRED : Fld := ⟨0x81C, 0, 16, .ro, 0, false⟩
/-- Word w (0–7) of R385 (one of 8, 4 bytes apart) -/
def MR.DEFECT_HASH : Fld := ⟨0x820, 0, 32, .ro, 0, false⟩
/-- SEQ of the next log record (R379) -/
def MR.LOG_WR : Fld := ⟨0x840, 0, 32, .ro, 0, false⟩
/-- Node accepted as fabric manager (R405) -/
def MR.FM_NODE : Fld := ⟨0x844, 0, 10, .rw, 0, false⟩
/-- Ring of forwarded FM records, bridge only -/
def MR.FM_CMD_RING : Fld := ⟨0x848, 0, 18, .rw, 0, false⟩
/-- 1: TOPO_EXP supplied (R390) -/
def MR.TOPO_EXPECT_VALID : Fld := ⟨0x84C, 31, 1, .rw, 0, false⟩
/-- Bit p: port p TOPO_OK, ports 0–31 -/
def MR.TOPO_OK_LO : Fld := ⟨0x850, 0, 32, .ro, 0, false⟩
/-- Ports 32–35 -/
def MR.TOPO_OK_HI : Fld := ⟨0x854, 0, 4, .ro, 0, false⟩
/-- 36 entries of R389; port p at 0x0900 + 16p (one of 144, 4 bytes apart) -/
def MR.TOPO_EXP : Fld := ⟨0x900, 0, 32, .rw, 0, false⟩
/-- 36 entries of R389; FLAGS bit 0 = peer heard (one of 144, 4 bytes apart) -/
def MR.DISC_PEER : Fld := ⟨0xB40, 0, 32, .ro, 0, false⟩
/-- R415; 0 none -/
def MR.RECOVERY_CODE : Fld := ⟨0xE00, 24, 8, .ro, 0, false⟩
/-- ROLLBACK of the running image -/
def MR.IMAGE_ROLLBACK : Fld := ⟨0xE00, 16, 8, .ro, 0, false⟩
/-- R417 -/
def MR.ROLLBACK_LEVEL : Fld := ⟨0xE00, 8, 8, .ro, 0, false⟩
/-- 1: debug opened since the last module reset -/
def MR.DEBUG_EVER : Fld := ⟨0xE00, 7, 1, .ro, 0, false⟩
/-- 0 NONE, 1 APPLIED, 2 REJECTED (R428) -/
def MR.UCAL_STATE : Fld := ⟨0xE00, 4, 2, .ro, 0, false⟩
/-- 1: the certificate's MAGIC, SERIAL and SIG check -/
def MR.CERT_VALID : Fld := ⟨0xE00, 3, 1, .ro, 0, false⟩
/-- R419 -/
def MR.SIGNET_OK : Fld := ⟨0xE00, 2, 1, .ro, 0, false⟩
/-- 0 CLOSED, 1 OWNER, 2 VENDOR -/
def MR.DEBUG_STATE : Fld := ⟨0xE00, 0, 2, .ro, 0, false⟩
/-- R414 -/
def MR.FW_VERSION : Fld := ⟨0xE04, 0, 32, .ro, 0, false⟩
/-- Word w (0–15) of D (one of 16, 4 bytes apart) -/
def MR.FW_MEASUREMENT : Fld := ⟨0xE10, 0, 32, .ro, 0, false⟩
/-- Word w (0–7) (one of 8, 4 bytes apart) -/
def MR.USERCAL_HASH : Fld := ⟨0xE50, 0, 32, .ro, 0, false⟩
/-- Word w (0–7) (R423) (one of 8, 4 bytes apart) -/
def MR.PROG_HASH : Fld := ⟨0xE70, 0, 32, .ro, 0, false⟩
/-- Report address, bits 31:0; 64-byte aligned -/
def MR.ATT_DEST_LO : Fld := ⟨0xE90, 0, 32, .rw, 0, false⟩
/-- 1: make a report (R422) -/
def MR.ATT_GO : Fld := ⟨0xE94, 31, 1, .wo, 0, false⟩
/-- 1: report in progress -/
def MR.ATT_BUSY : Fld := ⟨0xE94, 30, 1, .ro, 0, false⟩
/-- Bits 47:32 -/
def MR.ATT_DEST_HI : Fld := ⟨0xE94, 0, 16, .rw, 0, false⟩
/-- Word w (0–7) (one of 8, 4 bytes apart) -/
def MR.ATT_NONCE : Fld := ⟨0xEA0, 0, 32, .rw, 0, false⟩
/-- 1: a submission is being checked -/
def MR.DBG_BUSY : Fld := ⟨0xEC0, 16, 1, .ro, 0, false⟩
/-- R425 -/
def MR.DBG_RESULT : Fld := ⟨0xEC0, 8, 4, .ro, 0, false⟩
/-- 1: DEBUG_STATE ← CLOSED -/
def MR.DBG_CLOSE : Fld := ⟨0xEC0, 2, 1, .wo, 0, false⟩
/-- 1: check the response buffer -/
def MR.DBG_SUBMIT : Fld := ⟨0xEC0, 1, 1, .wo, 0, false⟩
/-- 1: draw DBG_NONCE -/
def MR.DBG_CHALLENGE : Fld := ⟨0xEC0, 0, 1, .wo, 0, false⟩
/-- Sticky: DBG_FAILS reached 0xFFFF -/
def MR.DBG_FAILS_SAT : Fld := ⟨0xEC4, 16, 1, .w1c, 0, false⟩
/-- Failed submissions since module reset -/
def MR.DBG_FAILS : Fld := ⟨0xEC4, 0, 16, .ro, 0, false⟩
/-- Seconds until a challenge is accepted -/
def MR.DBG_WAIT_S : Fld := ⟨0xEC8, 0, 7, .ro, 0, false⟩
/-- Word w (0–7) (one of 8, 4 bytes apart) -/
def MR.DBG_NONCE : Fld := ⟨0xED0, 0, 32, .ro, 0, false⟩
/-- Bit k: slot k revoked -/
def MR.OWNER_REVOKED : Fld := ⟨0xEF0, 4, 4, .ro, 0, false⟩
/-- Bit k: slot k non-zero -/
def MR.OWNER_ENROLLED : Fld := ⟨0xEF0, 0, 4, .ro, 0, false⟩
/-- 1: update in progress -/
def MR.UPD_BUSY : Fld := ⟨0xEF4, 16, 1, .ro, 0, false⟩
/-- 0 OK, 1 IN_PROGRESS, 2 BUSY, 3 BAD_FORMAT, 4 KEY_MISMATCH, 5 ROLLBACK, 6 … -/
def MR.UPD_RESULT : Fld := ⟨0xEF4, 8, 4, .ro, 0, false⟩
/-- 1 FW_UPDATE, 2 UCAL_UPDATE, 3 ROLLBACK_COMMIT, 4 BOOTCFG_UPDATE; others ignored -/
def MR.UPD_CMD : Fld := ⟨0xEF4, 0, 3, .wo, 0, false⟩
/-- Staged bytes, physical HBM, bits 31:0; 64-byte aligned -/
def MR.UPD_SRC_LO : Fld := ⟨0xEF8, 0, 32, .rw, 0, false⟩
/-- Bits 47:32 -/
def MR.UPD_SRC_HI : Fld := ⟨0xEFC, 0, 16, .rw, 0, false⟩
/-- Staged bytes -/
def MR.UPD_LEN : Fld := ⟨0xF00, 0, 32, .rw, 0, false⟩
/-- Class viewed, 1–4 -/
def MR.CAL_CLASS : Fld := ⟨0xF04, 16, 3, .rw, 0, false⟩
/-- Item viewed -/
def MR.CAL_INDEX : Fld := ⟨0xF04, 0, 16, .rw, 0, false⟩
/-- User offset in force, signed; 0 if none -/
def MR.CAL_USER : Fld := ⟨0xF08, 16, 16, .ro, 0, false⟩
/-- Factory value, signed for classes 2 and 3 -/
def MR.CAL_FACTORY : Fld := ⟨0xF08, 0, 16, .ro, 0, false⟩
/-- Applied value (R426) -/
def MR.CAL_APPLIED : Fld := ⟨0xF0C, 0, 16, .ro, 0, false⟩
/-- Response buffer (R425) (one of 832, 4 bytes apart) -/
def MR.DBG_RESP : Fld := ⟨0x1000, 0, 32, .rw, 0, false⟩
/-- Certificate (R420) (one of 832, 4 bytes apart) -/
def MR.SIGNET_CERT : Fld := ⟨0x2000, 0, 32, .ro, 0, false⟩
/-- Derived public key, 1,793 bytes (one of 449, 4 bytes apart) -/
def MR.SIGNET_PUB : Fld := ⟨0x2D00, 0, 32, .ro, 0, false⟩
/-- Input current, 0.1 A, 5 µs average -/
def MR.I_IN : Fld := ⟨0xF40, 16, 16, .ro, 0, false⟩
/-- Input voltage, 10 mV, 5 µs average -/
def MR.V_IN : Fld := ⟨0xF40, 0, 16, .ro, 0, false⟩
/-- Outlet, signed, 1/16 °C -/
def MR.COOLANT_OUT_T : Fld := ⟨0xF44, 16, 16, .ro, 0, false⟩
/-- Inlet, signed, 1/16 °C -/
def MR.COOLANT_IN_T : Fld := ⟨0xF44, 0, 16, .ro, 0, false⟩
/-- A stage report, STATUS or RESET_REPORT body was made (R439) -/
def MR.FM_NOTICE : Fld := ⟨0xF48, 10, 1, .w1c, 0, false⟩
/-- R434; unmaskable; held while the management island has power -/
def MR.POWER_FAIL : Fld := ⟨0xF48, 9, 1, .w1c, 0, false⟩
/-- R438 -/
def MR.REF_LOSS : Fld := ⟨0xF48, 8, 1, .w1c, 0, false⟩
/-- Module in RECOVERY (R416) -/
def MR.RECOVERY : Fld := ⟨0xF48, 7, 1, .w1c, 0, false⟩
/-- A stage ended FAILED (R377) -/
def MR.STAGE_FAILED : Fld := ⟨0xF48, 6, 1, .w1c, 0, false⟩
/-- R374; unmaskable -/
def MR.THERMAL_SHUTDOWN_2 : Fld := ⟨0xF48, 5, 1, .w1c, 0, false⟩
/-- VL or VH breach (R361) -/
def MR.RAIL_BREACH : Fld := ⟨0xF48, 4, 1, .w1c, 0, false⟩
/-- R431 -/
def MR.CONTACT_HOT : Fld := ⟨0xF48, 3, 1, .w1c, 0, false⟩
/-- R435 -/
def MR.COOLANT_HOT : Fld := ⟨0xF48, 2, 1, .w1c, 0, false⟩
/-- R433 -/
def MR.OV_WARN : Fld := ⟨0xF48, 1, 1, .w1c, 0, false⟩
/-- R433 -/
def MR.UV_WARN : Fld := ⟨0xF48, 0, 1, .w1c, 0, false⟩
/-- Bit b masks bit b of ALERT_CAUSE; bits 5 and 9 ignored -/
def MR.ALERT_MASK : Fld := ⟨0xF4C, 0, 11, .rw, 0, false⟩
/-- Pairs 0–3, 8 bits each, °C, pair 0 in 7:0 -/
def MR.CONTACT_T_LO : Fld := ⟨0xF50, 0, 32, .ro, 0, false⟩
/-- Pairs 4–7 -/
def MR.CONTACT_T_HI : Fld := ⟨0xF54, 0, 32, .ro, 0, false⟩
/-- Last power fail of this power cycle: 0 none, 1 UNDERVOLT, 2 OVERVOLT, 3 OVERCURRENT, 4 … -/
def MR.PF_CAUSE : Fld := ⟨0xF58, 16, 3, .ro, 0, false⟩
/-- J8–J11 -/
def MR.CABLE_PRESENT_HI : Fld := ⟨0xF58, 12, 4, .ro, 0, false⟩
/-- R440 -/
def MR.SMB_ADDR : Fld := ⟨0xF58, 0, 7, .ro, 0, false⟩
/-- Bit c: cable at Jc, J0–J7 -/
def MR.CABLE_PRESENT_LO : Fld := ⟨0xF5C, 0, 8, .ro, 0, false⟩

/-- Fields of the module window, part 0. -/
def MR.part0 : List (Fld × Nat × Nat) :=
  [(MR.VENDOR_ID, 0, 1), (MR.PART_ID, 0, 1), (MR.WAFER_STEP, 0, 1), (MR.HUB_STEP, 0, 1), (MR.ROM_VERSION, 0, 1), (MR.SERIAL_LO, 0, 1), (MR.SERIAL_HI, 0, 1), (MR.GRID_Y, 0, 1), (MR.GRID_X, 0, 1), (MR.ROWS_PER_REGION, 0, 1), (MR.LOG_COLS, 0, 1), (MR.PHYS_COLS, 0, 1), (MR.REGIONS_Y, 0, 1), (MR.REGIONS_X, 0, 1), (MR.DEGRADED_LO, 0, 1), (MR.DEGRADED_HI, 0, 1), (MR.UNUSABLE_TOTAL, 0, 1), (MR.ABSENT_TOTAL, 0, 1), (MR.MOD_REMAP_PENDING, 0, 1), (MR.MOD_REMAP_GEN, 0, 1), (MR.ADDR_FAULT_LO, 0, 1), (MR.ADDR_FAULT_HI, 0, 1), (MR.ADDR_FAULT_VALID, 0, 1), (MR.REQ_CLASS, 0, 1)]
/-- Fields of the module window, part 1. -/
def MR.part1 : List (Fld × Nat × Nat) :=
  [(MR.CAUSE, 0, 1), (MR.REQ_ID, 0, 1), (MR.ADDR_FAULT_SAT, 0, 1), (MR.ADDR_FAULT_COUNT, 0, 1), (MR.RUN_CMD, 0, 1), (MR.CMD_IGNORED_SAT, 0, 1), (MR.CMD_IGNORED, 0, 1), (MR.COMMIT_PENDING, 0, 1), (MR.RESUME_VALID, 0, 1), (MR.RUN_STATE, 0, 1), (MR.LOAD_RESULT, 0, 1), (MR.LOAD_CORE, 0, 1), (MR.PROG_BASE_LO, 0, 1), (MR.PROG_BASE_HI, 0, 1), (MR.COMMIT_HOLD, 0, 1), (MR.TICK_PORT, 0, 1), (MR.TICK_SOURCE, 0, 1), (MR.TICK_MODE, 0, 1), (MR.TICK_PERIOD, 0, 1), (MR.PLAN_BASE_LO, 0, 1), (MR.PLAN_BASE_HI, 0, 1), (MR.START_TICK_LO, 0, 1), (MR.START_TICK_HI, 0, 1), (MR.TICK_NUM_LO, 0, 1)]
/-- Fields of the module window, part 2. -/
def MR.part2 : List (Fld × Nat × Nat) :=
  [(MR.TICK_NUM_HI, 0, 1), (MR.FAULT_REGION, 0, 1), (MR.CHAN_CLOSED_SEEN, 0, 1), (MR.EPOCH_LATE_SEEN, 0, 1), (MR.EPOCH_RESIDUE_SEEN, 0, 1), (MR.OUTCOME, 0, 1), (MR.OVERRUN_SAT, 0, 1), (MR.OVERRUN_COUNT, 0, 1), (MR.DUP_TICK_SAT, 0, 1), (MR.DUP_TICK_COUNT, 0, 1), (MR.SEQ_FAULT, 0, 1), (MR.SEQ_GOT_LO, 0, 1), (MR.SEQ_GOT_HI, 0, 1), (MR.BUSY_ADDR_LO, 0, 1), (MR.BUSY_ADDR_HI, 0, 1), (MR.BUSY_VALID, 0, 1), (MR.BUSY_REQ_CLASS, 0, 1), (MR.BUSY_REQ_ID, 0, 1), (MR.BUSY_SAT, 0, 1), (MR.BUSY_COUNT, 0, 1), (MR.PROG_SEED_LO, 0, 1), (MR.PROG_SEED_HI, 0, 1), (MR.SHARE_RATE, 0, 1), (MR.SHARE_BURST, 0, 1)]
/-- Fields of the module window, part 3. -/
def MR.part3 : List (Fld × Nat × Nat) :=
  [(MR.BOOST_EN, 0, 1), (MR.BOOST_EPOCH, 0, 1), (MR.BOOST_HIGH, 0, 1), (MR.BOOST_LOW, 0, 1), (MR.BOOST, 0, 1), (MR.SNAP_BASE_LO, 0, 1), (MR.SNAP_EN, 0, 1), (MR.SNAP_BASE_HI, 0, 1), (MR.HM_TICK_LO, 0, 1), (MR.HM_TICK_HI, 0, 1), (MR.LAST_CHAINED, 0, 1), (MR.TICK_HM, 4, 8), (MR.HM_HEAD, 4, 8), (MR.HM_CHAIN_INIT, 4, 8), (MR.HM_LOG_BASE_LO, 0, 1), (MR.HM_LOG_EN, 0, 1), (MR.HM_LOG_ORDER, 0, 1), (MR.HM_LOG_BASE_HI, 0, 1), (MR.STOP_TICK_LO, 0, 1), (MR.STOP_TICK_HI, 0, 1), (MR.STOP_HIT, 0, 1), (MR.STOP_EN, 0, 1), (MR.PT_ROOT_LO, 0, 1), (MR.PT_ROOT_HI, 0, 1)]
/-- Fields of the module window, part 4. -/
def MR.part4 : List (Fld × Nat × Nat) :=
  [(MR.INV_VA_LO, 0, 1), (MR.INV_PAGES, 0, 1), (MR.INV_VA_HI, 0, 1), (MR.INV_GO, 0, 1), (MR.INV_BUSY, 0, 1), (MR.POOL_BASE_LO, 0, 1), (MR.POOL_ORDER, 0, 1), (MR.POOL_BASE_HI, 0, 1), (MR.POOL_TAIL, 0, 1), (MR.POOL_HEAD, 0, 1), (MR.FAULT_RING, 0, 1), (MR.RESOLVE_ID, 0, 1), (MR.RESOLVE_ACT, 0, 1), (MR.FAULTS_PENDING, 0, 1), (MR.DEMAND_MAPS, 0, 1), (MR.POOL_BAD, 0, 1), (MR.STALE_RESOLVE, 0, 1), (MR.NODE_ID, 0, 1), (MR.BRIDGE_EN, 0, 1), (MR.GROUP_MASTER, 0, 1), (MR.GROUP_SIZE_M1, 0, 1), (MR.GROUP_INDEX, 0, 1), (MR.MASTER_NODE, 0, 1), (MR.REPORT_PORT_B, 0, 1)]
/-- Fields of the module window, part 5. -/
def MR.part5 : List (Fld × Nat × Nat) :=
  [(MR.REPORT_WINDOW_NS, 0, 1), (MR.TICK_RTO_NS, 0, 1), (MR.MISSING_LIMIT_US, 0, 1), (MR.NODE_TABLE_LO, 0, 1), (MR.NODE_COUNT, 0, 1), (MR.NODE_TABLE_HI, 0, 1), (MR.RING_TABLE_LO, 0, 1), (MR.RING_TABLE_HI, 0, 1), (MR.QP_TABLE_LO, 0, 1), (MR.QP_COUNT, 0, 1), (MR.QP_TABLE_HI, 0, 1), (MR.FM_RING, 0, 1), (MR.LATE_VALID, 0, 1), (MR.LATE_SELF, 0, 1), (MR.LATE_MEMBER, 0, 1), (MR.LATE_TICK, 0, 1), (MR.LATE_ELAPSED_NS, 0, 1), (MR.LATE_SAT, 0, 1), (MR.REPORTS_LATE, 0, 1), (MR.UNREACH_NODE, 0, 1), (MR.UNREACH_VALID, 0, 1), (MR.UNREACH_FLOW, 0, 1), (MR.HOST_PORTS_LO, 0, 1), (MR.HOST_PORTS_HI, 0, 1)]
/-- Fields of the module window, part 6. -/
def MR.part6 : List (Fld × Nat × Nat) :=
  [(MR.TIMING_PORT, 0, 1), (MR.REF_SOURCE_REQ, 0, 1), (MR.REF_SETTLE_US, 0, 1), (MR.SWITCH_STEP, 0, 1), (MR.REF_HOLDOVER, 0, 1), (MR.REF_SETTLING, 0, 1), (MR.REF_IN_USE, 0, 1), (MR.SWITCH_SAT, 0, 1), (MR.SWITCH_COUNT, 0, 1), (MR.DWELL_NS, 0, 1), (MR.CAP_SLEW_W, 0, 1), (MR.POWER_CAP_W, 0, 1), (MR.P_IN_W, 0, 1), (MR.CAP_EFF_W, 0, 1), (MR.P_MEM_W, 0, 1), (MR.P_LINK_W, 0, 1), (MR.P_COMPUTE_W, 0, 1), (MR.P_HUB_W, 0, 1), (MR.COMPUTE_BUDGET_W, 0, 1), (MR.CAP_UNMET, 0, 1), (MR.MEM_THROTTLE, 0, 1), (MR.CAP_BINDING, 0, 1), (MR.FILLER_EN, 0, 1), (MR.FILLER_SLOPE, 0, 1)]
/-- Fields of the module window, part 7. -/
def MR.part7 : List (Fld × Nat × Nat) :=
  [(MR.FILLER_FLOOR_PCT, 0, 1), (MR.FILLER_REF_US, 0, 1), (MR.TRIP_CLEAR_C, 0, 1), (MR.TRIP_C, 0, 1), (MR.HYST_C, 0, 1), (MR.THROTTLE_C, 0, 1), (MR.CCLK_RESTORE_US, 0, 1), (MR.ECLIPSE_LO, 0, 1), (MR.ECLIPSE_HI, 0, 1), (MR.ECL_NOW_LO, 0, 1), (MR.ECL_NOW_HI, 0, 1), (MR.TRIPPED_LO, 0, 1), (MR.TRIPPED_HI, 0, 1), (MR.THERMAL_SHUTDOWN, 0, 1), (MR.ECL_CONFLICT, 0, 1), (MR.ECL_REFUSED, 0, 1), (MR.TRIP_CLEAR_REFUSED, 0, 1), (MR.DOM_ACT, 0, 1), (MR.DOM_NUM, 0, 1), (MR.DOM_RESULT_NUM, 0, 1), (MR.DOM_RESULT, 0, 1), (MR.PD_VALID, 0, 1), (MR.PD_NUM, 0, 1), (MR.DOM_STATE, 4, 33)]
/-- Fields of the module window, part 8. -/
def MR.part8 : List (Fld × Nat × Nat) :=
  [(MR.DETAIL, 0, 1), (MR.MOD_STATE, 0, 1), (MR.STAGE_RESULT, 0, 1), (MR.STAGE, 0, 1), (MR.BOOT_COUNT, 0, 1), (MR.LAST_INDEX, 0, 1), (MR.LAST_DOMAIN, 0, 1), (MR.LAST_CAUSE, 0, 1), (MR.RESET_DOMAIN, 0, 1), (MR.RESET_GO, 0, 1), (MR.RESET_INDEX, 0, 1), (MR.RESET_RESULT, 0, 1), (MR.MOD_WDOG_PET, 0, 1), (MR.MOD_WDOG_MS, 0, 1), (MR.BOOT_CMD, 0, 1), (MR.VOTE_SUSPECT, 0, 1), (MR.VOTE_RETIRED, 0, 1), (MR.DEFECT_HASH, 4, 8), (MR.LOG_WR, 0, 1), (MR.FM_NODE, 0, 1), (MR.FM_CMD_RING, 0, 1), (MR.TOPO_EXPECT_VALID, 0, 1), (MR.TOPO_OK_LO, 0, 1), (MR.TOPO_OK_HI, 0, 1)]
/-- Fields of the module window, part 9. -/
def MR.part9 : List (Fld × Nat × Nat) :=
  [(MR.TOPO_EXP, 4, 144), (MR.DISC_PEER, 4, 144), (MR.RECOVERY_CODE, 0, 1), (MR.IMAGE_ROLLBACK, 0, 1), (MR.ROLLBACK_LEVEL, 0, 1), (MR.DEBUG_EVER, 0, 1), (MR.UCAL_STATE, 0, 1), (MR.CERT_VALID, 0, 1), (MR.SIGNET_OK, 0, 1), (MR.DEBUG_STATE, 0, 1), (MR.FW_VERSION, 0, 1), (MR.FW_MEASUREMENT, 4, 16), (MR.USERCAL_HASH, 4, 8), (MR.PROG_HASH, 4, 8), (MR.ATT_DEST_LO, 0, 1), (MR.ATT_GO, 0, 1), (MR.ATT_BUSY, 0, 1), (MR.ATT_DEST_HI, 0, 1), (MR.ATT_NONCE, 4, 8), (MR.DBG_BUSY, 0, 1), (MR.DBG_RESULT, 0, 1), (MR.DBG_CLOSE, 0, 1), (MR.DBG_SUBMIT, 0, 1), (MR.DBG_CHALLENGE, 0, 1)]
/-- Fields of the module window, part 10. -/
def MR.part10 : List (Fld × Nat × Nat) :=
  [(MR.DBG_FAILS_SAT, 0, 1), (MR.DBG_FAILS, 0, 1), (MR.DBG_WAIT_S, 0, 1), (MR.DBG_NONCE, 4, 8), (MR.OWNER_REVOKED, 0, 1), (MR.OWNER_ENROLLED, 0, 1), (MR.UPD_BUSY, 0, 1), (MR.UPD_RESULT, 0, 1), (MR.UPD_CMD, 0, 1), (MR.UPD_SRC_LO, 0, 1), (MR.UPD_SRC_HI, 0, 1), (MR.UPD_LEN, 0, 1), (MR.CAL_CLASS, 0, 1), (MR.CAL_INDEX, 0, 1), (MR.CAL_USER, 0, 1), (MR.CAL_FACTORY, 0, 1), (MR.CAL_APPLIED, 0, 1), (MR.DBG_RESP, 4, 832), (MR.SIGNET_CERT, 4, 832), (MR.SIGNET_PUB, 4, 449), (MR.I_IN, 0, 1), (MR.V_IN, 0, 1), (MR.COOLANT_OUT_T, 0, 1), (MR.COOLANT_IN_T, 0, 1)]
/-- Fields of the module window, part 11. -/
def MR.part11 : List (Fld × Nat × Nat) :=
  [(MR.FM_NOTICE, 0, 1), (MR.POWER_FAIL, 0, 1), (MR.REF_LOSS, 0, 1), (MR.RECOVERY, 0, 1), (MR.STAGE_FAILED, 0, 1), (MR.THERMAL_SHUTDOWN_2, 0, 1), (MR.RAIL_BREACH, 0, 1), (MR.CONTACT_HOT, 0, 1), (MR.COOLANT_HOT, 0, 1), (MR.OV_WARN, 0, 1), (MR.UV_WARN, 0, 1), (MR.ALERT_MASK, 0, 1), (MR.CONTACT_T_LO, 0, 1), (MR.CONTACT_T_HI, 0, 1), (MR.PF_CAUSE, 0, 1), (MR.CABLE_PRESENT_HI, 0, 1), (MR.SMB_ADDR, 0, 1), (MR.CABLE_PRESENT_LO, 0, 1)]
/-- Every field of the module window: field, stride, number. -/
def MR.table : List (Fld × Nat × Nat) := MR.part0 ++ MR.part1 ++ MR.part2 ++ MR.part3 ++ MR.part4 ++ MR.part5 ++ MR.part6 ++ MR.part7 ++ MR.part8 ++ MR.part9 ++ MR.part10 ++ MR.part11

/-! ### a region window -/

/-- 1: a row of this region is ROW_DEGRADED in the in-force view -/
def RR.REGION_DEGRADED : Fld := ⟨0x0, 16, 1, .ro, 0, false⟩
/-- Region row 0–6 -/
def RR.RY : Fld := ⟨0x0, 12, 3, .ro, 0, false⟩
/-- Region column 0–7 -/
def RR.RX : Fld := ⟨0x0, 8, 3, .ro, 0, false⟩
/-- ry × 8 + rx -/
def RR.REGION_INDEX : Fld := ⟨0x0, 0, 6, .ro, 0, false⟩
/-- ABSENT logical cores in this region, in force -/
def RR.REGION_ABSENT : Fld := ⟨0x4, 16, 16, .ro, 0, false⟩
/-- Unusable physical cores in this region's defect-list entries -/
def RR.REGION_UNUSABLE : Fld := ⟨0x4, 0, 16, .ro, 0, false⟩
/-- 1: the pending view differs from the in-force view -/
def RR.REGION_REMAP_PENDING : Fld := ⟨0x8, 0, 1, .ro, 0, false⟩
/-- 1: ROW_DEAD > 3 (one of 72, 16 bytes apart) -/
def RR.ROW_DEGRADED : Fld := ⟨0x1000, 31, 1, .ro, 0, false⟩
/-- 1: ROW_DEAD > 3 Pending view. -/
def RR.PEND_ROW_DEGRADED : Fld := ⟨0x1800, 31, 1, .ro, 0, false⟩
/-- Unusable physical cores in the row, 0–75 (one of 72, 16 bytes apart) -/
def RR.ROW_DEAD : Fld := ⟨0x1000, 24, 7, .ro, 0, false⟩
/-- Unusable physical cores in the row, 0–75 Pending view. -/
def RR.PEND_ROW_DEAD : Fld := ⟨0x1800, 24, 7, .ro, 0, false⟩
/-- Highest skipped physical column; 0x7F if ROW_DEGRADED (one of 72, 16 bytes apart) -/
def RR.ROW_SKIP2 : Fld := ⟨0x1000, 16, 7, .ro, 0, false⟩
/-- Highest skipped physical column; 0x7F if ROW_DEGRADED Pending view. -/
def RR.PEND_ROW_SKIP2 : Fld := ⟨0x1800, 16, 7, .ro, 0, false⟩
/-- Middle skipped physical column; 0x7F if ROW_DEGRADED (one of 72, 16 bytes apart) -/
def RR.ROW_SKIP1 : Fld := ⟨0x1000, 8, 7, .ro, 0, false⟩
/-- Middle skipped physical column; 0x7F if ROW_DEGRADED Pending view. -/
def RR.PEND_ROW_SKIP1 : Fld := ⟨0x1800, 8, 7, .ro, 0, false⟩
/-- Lowest skipped physical column; 0x7F if ROW_DEGRADED (one of 72, 16 bytes apart) -/
def RR.ROW_SKIP0 : Fld := ⟨0x1000, 0, 7, .ro, 0, false⟩
/-- Lowest skipped physical column; 0x7F if ROW_DEGRADED Pending view. -/
def RR.PEND_ROW_SKIP0 : Fld := ⟨0x1800, 0, 7, .ro, 0, false⟩
/-- Bit c = 1: physical column c unusable, columns 0–31 (one of 72, 16 bytes apart) -/
def RR.ROW_DEAD_MASK0 : Fld := ⟨0x1004, 0, 32, .ro, 0, false⟩
/-- Bit c = 1: physical column c unusable, columns 0–31 Pending view. -/
def RR.PEND_ROW_DEAD_MASK0 : Fld := ⟨0x1804, 0, 32, .ro, 0, false⟩
/-- Bit c − 32: columns 32–63 (one of 72, 16 bytes apart) -/
def RR.ROW_DEAD_MASK1 : Fld := ⟨0x1008, 0, 32, .ro, 0, false⟩
/-- Bit c − 32: columns 32–63 Pending view. -/
def RR.PEND_ROW_DEAD_MASK1 : Fld := ⟨0x1808, 0, 32, .ro, 0, false⟩
/-- Bit c − 64: columns 64–74 (one of 72, 16 bytes apart) -/
def RR.ROW_DEAD_MASK2 : Fld := ⟨0x100C, 0, 11, .ro, 0, false⟩
/-- Bit c − 64: columns 64–74 Pending view. -/
def RR.PEND_ROW_DEAD_MASK2 : Fld := ⟨0x180C, 0, 11, .ro, 0, false⟩
/-- 1: applying SECTION_ABORT -/
def RR.ABORTING : Fld := ⟨0x2000, 17, 1, .ro, 0, false⟩
/-- 1: REGION_DONE sent for the current tick -/
def RR.REGION_DONE : Fld := ⟨0x2000, 16, 1, .ro, 0, false⟩
/-- Bits 15:0 of the last TICK accepted -/
def RR.REGION_TICK : Fld := ⟨0x2000, 0, 16, .ro, 0, false⟩
/-- Epoch timer 2^value CCLK; clamped to 8–24 -/
def RR.EPOCH_TIMEOUT_LOG2 : Fld := ⟨0x2004, 0, 5, .rw, 14, true⟩
/-- Sticky: ABORT_COUNT reached 0xFFFF -/
def RR.ABORT_SAT : Fld := ⟨0x2008, 16, 1, .w1c, 0, false⟩
/-- Sections aborted in this region -/
def RR.ABORT_COUNT : Fld := ⟨0x2008, 0, 16, .rc, 0, false⟩
/-- Head-age limit 2^value MCLK; clamped to 12–24 -/
def RR.PROGRESS_LOG2 : Fld := ⟨0x3000, 0, 5, .rw, 16, true⟩
/-- 1: a FLT_NO_PROGRESS record is held; writing 1 frees it -/
def RR.NP_VALID : Fld := ⟨0x3004, 31, 1, .w1c, 0, false⟩
/-- 0 local, 1 N, 2 E, 3 S, 4 W -/
def RR.NP_PORT : Fld := ⟨0x3004, 28, 3, .ro, 0, false⟩
/-- 1: snapshot written -/
def RR.NP_SNAP_DONE : Fld := ⟨0x3004, 27, 1, .ro, 0, false⟩
/-- DEST_Q of the head block -/
def RR.NP_QUEUE : Fld := ⟨0x3004, 19, 5, .ro, 0, false⟩
/-- Logical index of the router -/
def RR.NP_CORE : Fld := ⟨0x3004, 0, 19, .ro, 0, false⟩
/-- Sticky: SUNK_TICK reached 0xFFFF -/
def RR.SUNK_TICK_SAT : Fld := ⟨0x3008, 16, 1, .w1c, 0, false⟩
/-- Tokens and signals sunk or discarded in the region under R193 and R213, one count per … -/
def RR.SUNK_TICK : Fld := ⟨0x3008, 0, 16, .rc, 0, false⟩
/-- 1: a FLT_MESH_LINK record is held -/
def RR.LINK_VALID : Fld := ⟨0x300C, 31, 1, .w1c, 0, false⟩
/-- Port, coded as NP_PORT -/
def RR.LINK_PORT : Fld := ⟨0x300C, 28, 3, .ro, 0, false⟩
/-- Logical index of the sending router -/
def RR.LINK_CORE : Fld := ⟨0x300C, 0, 19, .ro, 0, false⟩
/-- CRC failures in the region, saturating at 0xFFFF_FFFF -/
def RR.LINK_CRC_TOTAL : Fld := ⟨0x3010, 0, 32, .rc, 0, false⟩
/-- Lease 2^value MCLK; clamped to 16–26 -/
def RR.CLASP_LEASE_LOG2 : Fld := ⟨0x4000, 0, 5, .rw, 23, true⟩
/-- 1: a FLT_CLASP_LEASE record is held; writing 1 frees it -/
def RR.LEASE_VALID : Fld := ⟨0x4004, 31, 1, .w1c, 0, false⟩
/-- Clasp ID -/
def RR.LEASE_CLASP : Fld := ⟨0x4004, 27, 4, .ro, 0, false⟩
/-- Open round -/
def RR.LEASE_ROUND : Fld := ⟨0x4004, 25, 2, .ro, 0, false⟩
/-- Logical index of the node -/
def RR.LEASE_CORE : Fld := ⟨0x4004, 0, 19, .ro, 0, false⟩
/-- Children not arrived: bit 0 N to bit 3 W -/
def RR.MISSING_CHILDREN : Fld := ⟨0x4008, 8, 4, .ro, 0, false⟩
/-- Member threads not arrived -/
def RR.MISSING_THREADS : Fld := ⟨0x4008, 0, 8, .ro, 0, false⟩
/-- Region hallmark of the last tick sent, bits 31:0 -/
def RR.REGION_HM_LAST_LO : Fld := ⟨0x5000, 0, 32, .ro, 0, false⟩
/-- Bits 63:32 -/
def RR.REGION_HM_LAST_HI : Fld := ⟨0x5004, 0, 32, .ro, 0, false⟩
/-- Bits 31:0 of that tick -/
def RR.REGION_HM_TICK : Fld := ⟨0x5008, 0, 32, .ro, 0, false⟩
/-- Done notices received in the current tick -/
def RR.CORES_REPORTED : Fld := ⟨0x500C, 0, 13, .ro, 0, false⟩
/-- Slowest automatic divider (R353) -/
def RR.CCLK_FLOOR_D : Fld := ⟨0x6000, 16, 8, .rw, 128, true⟩
/-- MCLK divider; below 64 acts as 64 -/
def RR.MCLK_TARGET_D : Fld := ⟨0x6000, 8, 8, .rw, 64, true⟩
/-- CCLK divider; below 64 acts as 64 -/
def RR.CCLK_TARGET_D : Fld := ⟨0x6000, 0, 8, .rw, 64, true⟩
/-- 0 target, 1 LIMIT_D, 2 THERMAL_D, 3 PARK, 4 ECLIPSE_D -/
def RR.LIMIT_CAUSE : Fld := ⟨0x6004, 20, 3, .ro, 0, false⟩
/-- 1: MCLK_D differs from its want -/
def RR.MCLK_RAMPING : Fld := ⟨0x6004, 17, 1, .ro, 0, false⟩
/-- 1: CCLK_D differs from its want -/
def RR.CCLK_RAMPING : Fld := ⟨0x6004, 16, 1, .ro, 0, false⟩
/-- Divider in force -/
def RR.MCLK_D : Fld := ⟨0x6004, 8, 8, .ro, 64, false⟩
/-- Divider in force -/
def RR.CCLK_D : Fld := ⟨0x6004, 0, 8, .ro, 64, false⟩
/-- Current and share request; 0 none -/
def RR.LIMIT_D : Fld := ⟨0x6008, 16, 8, .ro, 0, false⟩
/-- Thermal request; 0 none -/
def RR.THERMAL_D : Fld := ⟨0x6008, 8, 8, .ro, 0, false⟩
/-- A (R353) -/
def RR.AUTO_FLOOR_D : Fld := ⟨0x6008, 0, 8, .ro, 128, false⟩
/-- 1: spread on (R355) -/
def RR.SSC_EN : Fld := ⟨0x600C, 16, 1, .rw, 0, true⟩
/-- Clamped to 30–60 -/
def RR.SSC_RATE_KHZ : Fld := ⟨0x600C, 8, 8, .rw, 33, true⟩
/-- 0.1% steps; clamped to 0–10 -/
def RR.SSC_DEPTH : Fld := ⟨0x600C, 0, 4, .rw, 5, true⟩
/-- 2 µs limit, A; clamped to 100–1,000 -/
def RR.RAIL_I2_A : Fld := ⟨0x6010, 16, 16, .rw, 720, true⟩
/-- 1 µs limit, A; clamped to 100–1,000 -/
def RR.RAIL_I1_A : Fld := ⟨0x6010, 0, 16, .rw, 800, true⟩
/-- Share weight (R363); clamped to 1–255 -/
def RR.WEIGHT : Fld := ⟨0x6014, 16, 8, .rw, 16, true⟩
/-- 5 µs limit, A; clamped to 100–1,000 -/
def RR.RAIL_I5_A : Fld := ⟨0x6014, 0, 16, .rw, 650, true⟩
/-- VR power, 1 µs average -/
def RR.RAIL_P_W : Fld := ⟨0x6018, 16, 16, .ro, 0, false⟩
/-- VR current, 1 µs average -/
def RR.RAIL_I_A : Fld := ⟨0x6018, 0, 16, .ro, 0, false⟩
/-- S_r -/
def RR.SHARE_W : Fld := ⟨0x601C, 0, 16, .ro, 0, false⟩
/-- Sticky: BREACH_COUNT reached 0xFFFF -/
def RR.BREACH_SAT : Fld := ⟨0x6020, 16, 1, .w1c, 0, false⟩
/-- Breaches and share excesses (R362) -/
def RR.BREACH_COUNT : Fld := ⟨0x6020, 0, 16, .rc, 0, false⟩
/-- 1: engaged -/
def RR.FILLER_ON : Fld := ⟨0x6024, 24, 1, .ro, 0, false⟩
/-- 0–128 -/
def RR.FILLER_DUTY : Fld := ⟨0x6024, 16, 8, .ro, 0, false⟩
/-- Floor in use -/
def RR.FLOOR_W : Fld := ⟨0x6024, 0, 16, .ro, 0, false⟩
/-- P_ref; frozen while engaged -/
def RR.PREF_W : Fld := ⟨0x6028, 0, 16, .ro, 0, false⟩
/-- µs engaged, saturating at 0xFFFF_FFFF -/
def RR.FILLER_US : Fld := ⟨0x602C, 0, 32, .rc, 0, false⟩
/-- Sensor s (0–8, row-major from north-west), signed, 1/16 °C (one of 9, 4 bytes apart) -/
def RR.SENSOR_T : Fld := ⟨0x7000, 0, 16, .ro, 0, false⟩
/-- 1: the region is tripped -/
def RR.TRIPPED : Fld := ⟨0x7024, 17, 1, .ro, 0, false⟩
/-- 1: THERMAL_D ≠ 0 -/
def RR.THROTTLING : Fld := ⟨0x7024, 16, 1, .ro, 0, false⟩
/-- Highest sensor, 1/16 °C -/
def RR.REGION_TEMP : Fld := ⟨0x7024, 0, 16, .ro, 0, false⟩
/-- Highest REGION_TEMP since the last read -/
def RR.PEAK_TEMP : Fld := ⟨0x7028, 0, 16, .rc, 0, false⟩
/-- Sticky: THROTTLE_STEPS reached 0xFFFF -/
def RR.THROT_SAT : Fld := ⟨0x702C, 16, 1, .w1c, 0, false⟩
/-- Slower steps of THERMAL_D -/
def RR.THROTTLE_STEPS : Fld := ⟨0x702C, 0, 16, .rc, 0, false⟩
/-- Clamped to 5–1,000 -/
def RR.SR_ACK_US : Fld := ⟨0x8000, 16, 10, .rw, 20, true⟩
/-- Clamped to 5–1,000, at least two liveness periods of R398 -/
def RR.REGION_WDOG_MS : Fld := ⟨0x8000, 0, 10, .rw, 10, true⟩
/-- Region generation -/
def RR.REGION_GEN : Fld := ⟨0x8004, 0, 8, .ro, 0, false⟩
/-- 1: FLT_CORE_LOST record held; writing 1 frees it -/
def RR.LOST_VALID : Fld := ⟨0x8008, 31, 1, .w1c, 0, false⟩
/-- 0 LIVENESS, 1 NO_ACK -/
def RR.LOST_WHY : Fld := ⟨0x8008, 29, 2, .ro, 0, false⟩
/-- Logical index -/
def RR.LOST_CORE : Fld := ⟨0x8008, 0, 19, .ro, 0, false⟩
/-- OP of R396; 0 none -/
def RR.SR_OP : Fld := ⟨0x800C, 28, 4, .wo, 0, false⟩
/-- Local core 72j + i, 0–5,183 -/
def RR.SR_LOCAL : Fld := ⟨0x800C, 15, 13, .wo, 0, false⟩
/-- Control-window offset -/
def RR.SR_OFFSET : Fld := ⟨0x800C, 0, 12, .wo, 0, false⟩
/-- Data of READ and WRITE -/
def RR.SR_DATA : Fld := ⟨0x8010, 0, 32, .rw, 0, false⟩
/-- 0 DONE, 1 BUSY, 2 NO_ACK, 3 REFUSED -/
def RR.SR_STATUS : Fld := ⟨0x8014, 0, 2, .ro, 0, false⟩
/-- Sticky: LOST_COUNT reached 0xFFFF -/
def RR.LOST_SAT : Fld := ⟨0x8018, 16, 1, .w1c, 0, false⟩
/-- Cores lost in this region -/
def RR.LOST_COUNT : Fld := ⟨0x8018, 0, 16, .rc, 0, false⟩

/-- Fields of a region window, part 0. -/
def RR.part0 : List (Fld × Nat × Nat) :=
  [(RR.REGION_DEGRADED, 0, 1), (RR.RY, 0, 1), (RR.RX, 0, 1), (RR.REGION_INDEX, 0, 1), (RR.REGION_ABSENT, 0, 1), (RR.REGION_UNUSABLE, 0, 1), (RR.REGION_REMAP_PENDING, 0, 1), (RR.ROW_DEGRADED, 16, 72), (RR.PEND_ROW_DEGRADED, 16, 72), (RR.ROW_DEAD, 16, 72), (RR.PEND_ROW_DEAD, 16, 72), (RR.ROW_SKIP2, 16, 72), (RR.PEND_ROW_SKIP2, 16, 72), (RR.ROW_SKIP1, 16, 72), (RR.PEND_ROW_SKIP1, 16, 72), (RR.ROW_SKIP0, 16, 72), (RR.PEND_ROW_SKIP0, 16, 72), (RR.ROW_DEAD_MASK0, 16, 72), (RR.PEND_ROW_DEAD_MASK0, 16, 72), (RR.ROW_DEAD_MASK1, 16, 72), (RR.PEND_ROW_DEAD_MASK1, 16, 72), (RR.ROW_DEAD_MASK2, 16, 72), (RR.PEND_ROW_DEAD_MASK2, 16, 72), (RR.ABORTING, 0, 1)]
/-- Fields of a region window, part 1. -/
def RR.part1 : List (Fld × Nat × Nat) :=
  [(RR.REGION_DONE, 0, 1), (RR.REGION_TICK, 0, 1), (RR.EPOCH_TIMEOUT_LOG2, 0, 1), (RR.ABORT_SAT, 0, 1), (RR.ABORT_COUNT, 0, 1), (RR.PROGRESS_LOG2, 0, 1), (RR.NP_VALID, 0, 1), (RR.NP_PORT, 0, 1), (RR.NP_SNAP_DONE, 0, 1), (RR.NP_QUEUE, 0, 1), (RR.NP_CORE, 0, 1), (RR.SUNK_TICK_SAT, 0, 1), (RR.SUNK_TICK, 0, 1), (RR.LINK_VALID, 0, 1), (RR.LINK_PORT, 0, 1), (RR.LINK_CORE, 0, 1), (RR.LINK_CRC_TOTAL, 0, 1), (RR.CLASP_LEASE_LOG2, 0, 1), (RR.LEASE_VALID, 0, 1), (RR.LEASE_CLASP, 0, 1), (RR.LEASE_ROUND, 0, 1), (RR.LEASE_CORE, 0, 1), (RR.MISSING_CHILDREN, 0, 1), (RR.MISSING_THREADS, 0, 1)]
/-- Fields of a region window, part 2. -/
def RR.part2 : List (Fld × Nat × Nat) :=
  [(RR.REGION_HM_LAST_LO, 0, 1), (RR.REGION_HM_LAST_HI, 0, 1), (RR.REGION_HM_TICK, 0, 1), (RR.CORES_REPORTED, 0, 1), (RR.CCLK_FLOOR_D, 0, 1), (RR.MCLK_TARGET_D, 0, 1), (RR.CCLK_TARGET_D, 0, 1), (RR.LIMIT_CAUSE, 0, 1), (RR.MCLK_RAMPING, 0, 1), (RR.CCLK_RAMPING, 0, 1), (RR.MCLK_D, 0, 1), (RR.CCLK_D, 0, 1), (RR.LIMIT_D, 0, 1), (RR.THERMAL_D, 0, 1), (RR.AUTO_FLOOR_D, 0, 1), (RR.SSC_EN, 0, 1), (RR.SSC_RATE_KHZ, 0, 1), (RR.SSC_DEPTH, 0, 1), (RR.RAIL_I2_A, 0, 1), (RR.RAIL_I1_A, 0, 1), (RR.WEIGHT, 0, 1), (RR.RAIL_I5_A, 0, 1), (RR.RAIL_P_W, 0, 1), (RR.RAIL_I_A, 0, 1)]
/-- Fields of a region window, part 3. -/
def RR.part3 : List (Fld × Nat × Nat) :=
  [(RR.SHARE_W, 0, 1), (RR.BREACH_SAT, 0, 1), (RR.BREACH_COUNT, 0, 1), (RR.FILLER_ON, 0, 1), (RR.FILLER_DUTY, 0, 1), (RR.FLOOR_W, 0, 1), (RR.PREF_W, 0, 1), (RR.FILLER_US, 0, 1), (RR.SENSOR_T, 4, 9), (RR.TRIPPED, 0, 1), (RR.THROTTLING, 0, 1), (RR.REGION_TEMP, 0, 1), (RR.PEAK_TEMP, 0, 1), (RR.THROT_SAT, 0, 1), (RR.THROTTLE_STEPS, 0, 1), (RR.SR_ACK_US, 0, 1), (RR.REGION_WDOG_MS, 0, 1), (RR.REGION_GEN, 0, 1), (RR.LOST_VALID, 0, 1), (RR.LOST_WHY, 0, 1), (RR.LOST_CORE, 0, 1), (RR.SR_OP, 0, 1), (RR.SR_LOCAL, 0, 1), (RR.SR_OFFSET, 0, 1)]
/-- Fields of a region window, part 4. -/
def RR.part4 : List (Fld × Nat × Nat) :=
  [(RR.SR_DATA, 0, 1), (RR.SR_STATUS, 0, 1), (RR.LOST_SAT, 0, 1), (RR.LOST_COUNT, 0, 1)]
/-- Every field of a region window: field, stride, number. -/
def RR.table : List (Fld × Nat × Nat) := RR.part0 ++ RR.part1 ++ RR.part2 ++ RR.part3 ++ RR.part4

/-! ### a hub window -/

/-- 9 × hub index -/
def HR.FIRST_PORT : Fld := ⟨0x0, 16, 6, .ro, 0, false⟩
/-- 4 × hub index -/
def HR.FIRST_STACK : Fld := ⟨0x0, 8, 4, .ro, 0, false⟩
/-- 1 in H0 only -/
def HR.HAS_MP : Fld := ⟨0x0, 4, 1, .ro, 0, false⟩
/-- 0–3 -/
def HR.HUB_INDEX : Fld := ⟨0x0, 0, 2, .ro, 0, false⟩
/-- Edge ports enabled under R24, in force -/
def HR.EDGE_ENABLED : Fld := ⟨0x4, 16, 10, .ro, 0, false⟩
/-- 288 (H0, H2) or 252 (H1, H3) -/
def HR.EDGE_PORTS : Fld := ⟨0x4, 0, 10, .ro, 0, false⟩
/-- Bit k of EDGE_MAPm = 1: edge port 32m + k enabled; bits for k ≥ EDGE_PORTS read 0 (one of 9, 4 bytes apart) -/
def HR.EDGE_MAP : Fld := ⟨0x100, 0, 32, .ro, 0, false⟩
/-- Descriptor address for LOAD, bits 31:0; 64-byte aligned -/
def HR.JOB_DESC_LO : Fld := ⟨0x880000, 0, 32, .rw, 0, false⟩
/-- Bits 47:32 -/
def HR.JOB_DESC_HI : Fld := ⟨0x880004, 0, 16, .rw, 0, false⟩
/-- 0 none, 1 LOAD, 2 UNLOAD, 3 reserved; H0 only (R238) -/
def HR.CMD : Fld := ⟨0x880008, 16, 2, .wo, 0, false⟩
/-- Slot of the command -/
def HR.CMD_SLOT : Fld := ⟨0x880008, 0, 10, .wo, 0, false⟩
/-- Result of the last command, codes of R238 -/
def HR.JOB_RESULT : Fld := ⟨0x88000C, 28, 4, .ro, 0, false⟩
/-- Slot of that command -/
def HR.RESULT_SLOT : Fld := ⟨0x88000C, 0, 10, .ro, 0, false⟩
/-- 1: the record at 0x88_0010–0x88_001C is held; writing 1 frees it -/
def HR.RED_FAULT_VALID : Fld := ⟨0x880010, 31, 1, .w1c, 0, false⟩
/-- Code of R260 -/
def HR.RED_FAULT_CODE : Fld := ⟨0x880010, 16, 3, .ro, 0, false⟩
/-- Slot -/
def HR.RED_FAULT_SLOT : Fld := ⟨0x880010, 0, 10, .ro, 0, false⟩
/-- Round -/
def HR.RED_FAULT_ROUND : Fld := ⟨0x880014, 16, 16, .ro, 0, false⟩
/-- JOB_ID -/
def HR.RED_FAULT_JOB : Fld := ⟨0x880014, 0, 16, .ro, 0, false⟩
/-- Block or chunk concerned -/
def HR.RED_FAULT_BLOCK : Fld := ⟨0x880018, 0, 32, .ro, 0, false⟩
/-- Member concerned; 0xFFFF none -/
def HR.RED_FAULT_MEMBER : Fld := ⟨0x88001C, 16, 16, .ro, 65535, false⟩
/-- Sticky: REC_DROPPED reached 0xFFFF -/
def HR.DROPPED_SAT : Fld := ⟨0x880020, 16, 1, .w1c, 0, false⟩
/-- Records dropped under R239 or R243 -/
def HR.REC_DROPPED : Fld := ⟨0x880020, 0, 16, .rc, 0, false⟩
/-- Sticky: MISMATCH_COUNT reached 0xFFFF -/
def HR.MISMATCH_SAT : Fld := ⟨0x880024, 16, 1, .w1c, 0, false⟩
/-- Checks that found a difference (R251) -/
def HR.MISMATCH_COUNT : Fld := ⟨0x880024, 0, 16, .rc, 0, false⟩
/-- Checks compared equal, saturating at 0xFFFF_FFFF -/
def HR.CHECKS_DONE : Fld := ⟨0x880028, 0, 32, .rc, 0, false⟩
/-- UNF events at result rounding (R234), saturating at 0xFF -/
def HR.RED_UNF : Fld := ⟨0x88002C, 16, 8, .rc, 0, false⟩
/-- OVF events -/
def HR.RED_OVF : Fld := ⟨0x88002C, 8, 8, .rc, 0, false⟩
/-- NAN events (R235) -/
def HR.RED_NAN : Fld := ⟨0x88002C, 0, 8, .rc, 0, false⟩
/-- Sticky, bit 0 NAN, bit 1 OVF, bit 2 UNF -/
def HR.RED_EVENT_SAT : Fld := ⟨0x880030, 0, 3, .w1c, 0, false⟩
/-- HCLK in which the adders worked, saturating at 0xFFFF_FFFF -/
def HR.ADDER_BUSY : Fld := ⟨0x880034, 0, 32, .rc, 0, false⟩
/-- Slot s: expected round n (R243) (one of 1024, 4 bytes apart) -/
def HR.NEXT_ROUND : Fld := ⟨0x881000, 16, 16, .ro, 0, false⟩
/-- 1: records of round n + 1 are held (one of 1024, 4 bytes apart) -/
def HR.APART : Fld := ⟨0x881000, 4, 1, .ro, 0, false⟩
/-- 0 EMPTY, 1 IDLE, 2 EXP, 3 DATA, 4 CHECK, 5 ABORTED (one of 1024, 4 bytes apart) -/
def HR.JOB_STATE : Fld := ⟨0x881000, 0, 4, .ro, 0, false⟩
/-- Page-cache hits, saturating at 0xFFFF_FFFF -/
def HR.PAGE_HITS : Fld := ⟨0x500000, 0, 32, .rc, 0, false⟩
/-- Walks started, saturating -/
def HR.WALKS : Fld := ⟨0x500004, 0, 32, .rc, 0, false⟩
/-- Table entries read, saturating -/
def HR.WALK_READS : Fld := ⟨0x500008, 0, 32, .rc, 0, false⟩
/-- Requests held at faults -/
def HR.HELD : Fld := ⟨0x50000C, 0, 16, .ro, 0, false⟩
/-- 1: Ryudon over IPv4; refused as NODE_ID -/
def HR.IPV4 : Fld := ⟨0x840000, 16, 1, .rw, 0, false⟩
/-- Ryudon destination port; refused as NODE_ID -/
def HR.UDP_PORT : Fld := ⟨0x840000, 0, 16, .rw, 50610, false⟩
/-- DSCP of flows 0 and 1 -/
def HR.DSCP_CTRL : Fld := ⟨0x840004, 8, 6, .rw, 46, true⟩
/-- DSCP of other flows -/
def HR.DSCP_DATA : Fld := ⟨0x840004, 0, 6, .rw, 26, true⟩
/-- R323; clamped to 4–255 -/
def HR.RETX_LIMIT : Fld := ⟨0x840008, 16, 8, .rw, 32, true⟩
/-- R323; clamped to 1,000–65,535 -/
def HR.RTO_NS : Fld := ⟨0x840008, 0, 16, .rw, 8000, true⟩
/-- R325; clamped to 2–255 -/
def HR.RAISE_US : Fld := ⟨0x84000C, 24, 8, .rw, 16, true⟩
/-- Gb/s; clamped to 1–100 -/
def HR.RATE_MIN : Fld := ⟨0x84000C, 16, 8, .rw, 1, true⟩
/-- Gb/s; clamped to 1–100 -/
def HR.RATE_AI : Fld := ⟨0x84000C, 8, 8, .rw, 5, true⟩
/-- Clamped to 1–10 -/
def HR.G_SHIFT : Fld := ⟨0x84000C, 0, 4, .rw, 4, true⟩
/-- In 100 ns; clamped to 1–255 -/
def HR.ACK_DELAY : Fld := ⟨0x840010, 8, 8, .rw, 10, true⟩
/-- Packets; clamped to 1–31 -/
def HR.ACK_EVERY : Fld := ⟨0x840010, 0, 5, .rw, 16, true⟩
/-- R331 -/
def HR.RING_WAIT_US : Fld := ⟨0x840014, 0, 16, .rw, 100, true⟩
/-- R324 -/
def HR.HUB_GEN : Fld := ⟨0x840018, 0, 8, .ro, 0, false⟩
/-- Bound flow contexts, both directions -/
def HR.FLOWS_ACTIVE : Fld := ⟨0x84001C, 0, 14, .ro, 0, false⟩
/-- Packets sent, saturating at 0xFFFF_FFFF -/
def HR.PKT_TX : Fld := ⟨0x840020, 0, 32, .rc, 0, false⟩
/-- Packets delivered, saturating -/
def HR.PKT_RX : Fld := ⟨0x840024, 0, 32, .rc, 0, false⟩
/-- Re-sent packets, saturating -/
def HR.RETX_PKTS : Fld := ⟨0x840028, 0, 32, .rc, 0, false⟩
/-- NAKs received, saturating -/
def HR.NAK_RX : Fld := ⟨0x84002C, 0, 32, .rc, 0, false⟩
/-- R321, saturating -/
def HR.HDR_CRC_ERR : Fld := ⟨0x840030, 0, 32, .rc, 0, false⟩
/-- R321, saturating -/
def HR.BLOCK_CRC_ERR : Fld := ⟨0x840034, 0, 32, .rc, 0, false⟩
/-- R311, R321, R324, saturating -/
def HR.RX_DROPPED : Fld := ⟨0x840038, 0, 32, .rc, 0, false⟩
/-- CE-marked packets received, saturating -/
def HR.CE_RX : Fld := ⟨0x84003C, 0, 32, .rc, 0, false⟩
/-- R334, saturating -/
def HR.ROCE_DROPPED : Fld := ⟨0x840040, 0, 32, .rc, 0, false⟩
/-- R339, R341, saturating -/
def HR.RING_REFUSED : Fld := ⟨0x840044, 16, 16, .rc, 0, false⟩
/-- R331, saturating -/
def HR.RING_DROPPED : Fld := ⟨0x840044, 0, 16, .rc, 0, false⟩
/-- R344, saturating -/
def HR.ENDPOINT_BAD : Fld := ⟨0x840048, 0, 16, .rc, 0, false⟩
/-- Sensor 1, signed, 1/16 °C -/
def HR.HUB_T1 : Fld := ⟨0x900000, 16, 16, .ro, 0, false⟩
/-- Sensor 0 -/
def HR.HUB_T0 : Fld := ⟨0x900000, 0, 16, .ro, 0, false⟩
/-- VL_h power, 5 µs average -/
def HR.P_VL_W : Fld := ⟨0x900004, 16, 16, .ro, 0, false⟩
/-- VH_h power -/
def HR.P_VH_W : Fld := ⟨0x900004, 0, 16, .ro, 0, false⟩
/-- 1: controllers at half rate (R361, R363) -/
def HR.MEM_THROTTLED : Fld := ⟨0x900008, 16, 1, .ro, 0, false⟩
/-- VM_h power -/
def HR.P_VM_W : Fld := ⟨0x900008, 0, 16, .ro, 0, false⟩
/-- Breaches of VL_h, saturating -/
def HR.VL_BREACH : Fld := ⟨0x90000C, 16, 16, .rc, 0, false⟩
/-- Breaches of VH_h, saturating -/
def HR.VH_BREACH : Fld := ⟨0x90000C, 0, 16, .rc, 0, false⟩
/-- Sticky: VM_BREACH reached 0xFFFF -/
def HR.VM_SAT : Fld := ⟨0x900010, 18, 1, .w1c, 0, false⟩
/-- Sticky: VL_BREACH reached 0xFFFF -/
def HR.VL_SAT : Fld := ⟨0x900010, 17, 1, .w1c, 0, false⟩
/-- Sticky: VH_BREACH reached 0xFFFF -/
def HR.VH_SAT : Fld := ⟨0x900010, 16, 1, .w1c, 0, false⟩
/-- Breaches of VM_h -/
def HR.VM_BREACH : Fld := ⟨0x900010, 0, 16, .rc, 0, false⟩
/-- HCLK divider in force -/
def HR.HCLK_D : Fld := ⟨0x900014, 0, 8, .ro, 64, false⟩

/-- Fields of a hub window, part 0. -/
def HR.part0 : List (Fld × Nat × Nat) :=
  [(HR.FIRST_PORT, 0, 1), (HR.FIRST_STACK, 0, 1), (HR.HAS_MP, 0, 1), (HR.HUB_INDEX, 0, 1), (HR.EDGE_ENABLED, 0, 1), (HR.EDGE_PORTS, 0, 1), (HR.EDGE_MAP, 4, 9), (HR.JOB_DESC_LO, 0, 1), (HR.JOB_DESC_HI, 0, 1), (HR.CMD, 0, 1), (HR.CMD_SLOT, 0, 1), (HR.JOB_RESULT, 0, 1), (HR.RESULT_SLOT, 0, 1), (HR.RED_FAULT_VALID, 0, 1), (HR.RED_FAULT_CODE, 0, 1), (HR.RED_FAULT_SLOT, 0, 1), (HR.RED_FAULT_ROUND, 0, 1), (HR.RED_FAULT_JOB, 0, 1), (HR.RED_FAULT_BLOCK, 0, 1), (HR.RED_FAULT_MEMBER, 0, 1), (HR.DROPPED_SAT, 0, 1), (HR.REC_DROPPED, 0, 1), (HR.MISMATCH_SAT, 0, 1), (HR.MISMATCH_COUNT, 0, 1)]
/-- Fields of a hub window, part 1. -/
def HR.part1 : List (Fld × Nat × Nat) :=
  [(HR.CHECKS_DONE, 0, 1), (HR.RED_UNF, 0, 1), (HR.RED_OVF, 0, 1), (HR.RED_NAN, 0, 1), (HR.RED_EVENT_SAT, 0, 1), (HR.ADDER_BUSY, 0, 1), (HR.NEXT_ROUND, 4, 1024), (HR.APART, 4, 1024), (HR.JOB_STATE, 4, 1024), (HR.PAGE_HITS, 0, 1), (HR.WALKS, 0, 1), (HR.WALK_READS, 0, 1), (HR.HELD, 0, 1), (HR.IPV4, 0, 1), (HR.UDP_PORT, 0, 1), (HR.DSCP_CTRL, 0, 1), (HR.DSCP_DATA, 0, 1), (HR.RETX_LIMIT, 0, 1), (HR.RTO_NS, 0, 1), (HR.RAISE_US, 0, 1), (HR.RATE_MIN, 0, 1), (HR.RATE_AI, 0, 1), (HR.G_SHIFT, 0, 1), (HR.ACK_DELAY, 0, 1)]
/-- Fields of a hub window, part 2. -/
def HR.part2 : List (Fld × Nat × Nat) :=
  [(HR.ACK_EVERY, 0, 1), (HR.RING_WAIT_US, 0, 1), (HR.HUB_GEN, 0, 1), (HR.FLOWS_ACTIVE, 0, 1), (HR.PKT_TX, 0, 1), (HR.PKT_RX, 0, 1), (HR.RETX_PKTS, 0, 1), (HR.NAK_RX, 0, 1), (HR.HDR_CRC_ERR, 0, 1), (HR.BLOCK_CRC_ERR, 0, 1), (HR.RX_DROPPED, 0, 1), (HR.CE_RX, 0, 1), (HR.ROCE_DROPPED, 0, 1), (HR.RING_REFUSED, 0, 1), (HR.RING_DROPPED, 0, 1), (HR.ENDPOINT_BAD, 0, 1), (HR.HUB_T1, 0, 1), (HR.HUB_T0, 0, 1), (HR.P_VL_W, 0, 1), (HR.P_VH_W, 0, 1), (HR.MEM_THROTTLED, 0, 1), (HR.P_VM_W, 0, 1), (HR.VL_BREACH, 0, 1), (HR.VH_BREACH, 0, 1)]
/-- Fields of a hub window, part 3. -/
def HR.part3 : List (Fld × Nat × Nat) :=
  [(HR.VM_SAT, 0, 1), (HR.VL_SAT, 0, 1), (HR.VH_SAT, 0, 1), (HR.VM_BREACH, 0, 1), (HR.HCLK_D, 0, 1)]
/-- Every field of a hub window: field, stride, number. -/
def HR.table : List (Fld × Nat × Nat) := HR.part0 ++ HR.part1 ++ HR.part2 ++ HR.part3

/-! ### one memory controller (offsets from its base in the hub window) -/

/-- 1: every channel trained -/
def KR.TRAINED : Fld := ⟨0x0, 31, 1, .ro, 0, false⟩
/-- Stack temperature, °C -/
def KR.STACK_TEMP : Fld := ⟨0x0, 16, 8, .ro, 0, false⟩
/-- Bit c = 1: channel c FAILED (R287) -/
def KR.CH_FAILED : Fld := ⟨0x4, 0, 32, .ro, 0, false⟩
/-- Sticky: RETRY_COUNT reached 0xFFFF -/
def KR.RETRY_SAT : Fld := ⟨0x8, 16, 1, .w1c, 0, false⟩
/-- Reads delivered after re-reading (R283) -/
def KR.RETRY_COUNT : Fld := ⟨0x8, 0, 16, .rc, 0, false⟩
/-- Sticky: UE_COUNT reached 0xFFFF -/
def KR.UE_SAT : Fld := ⟨0xC, 16, 1, .w1c, 0, false⟩
/-- Uncorrectable blocks found -/
def KR.UE_COUNT : Fld := ⟨0xC, 0, 16, .rc, 0, false⟩
/-- 1: UE record held; writing 1 frees it -/
def KR.UE_VALID : Fld := ⟨0x10, 31, 1, .w1c, 0, false⟩
/-- 1: found by the patrol scrub -/
def KR.UE_SCRUB : Fld := ⟨0x10, 30, 1, .ro, 0, false⟩
/-- 1: found by a masked write -/
def KR.UE_WRITE : Fld := ⟨0x10, 29, 1, .ro, 0, false⟩
/-- PA bits 47:32 -/
def KR.UE_PA_HI : Fld := ⟨0x10, 0, 16, .ro, 0, false⟩
/-- PA bits 31:0; bits 5:0 zero -/
def KR.UE_PA_LO : Fld := ⟨0x14, 0, 32, .ro, 0, false⟩
/-- 1: patrol scrub runs -/
def KR.SCRUB_EN : Fld := ⟨0x18, 8, 1, .rw, 1, true⟩
/-- Hours per pass; clamped to 1–168 -/
def KR.SCRUB_HOURS : Fld := ⟨0x18, 0, 8, .rw, 24, true⟩
/-- Completed passes, saturating -/
def KR.SCRUB_PASSES : Fld := ⟨0x1C, 0, 32, .rc, 0, false⟩
/-- Temperature change, °C; clamped to 2–40 -/
def KR.RETRAIN_DT : Fld := ⟨0x20, 16, 8, .rw, 8, true⟩
/-- Period, ms; clamped to 10–10,000 -/
def KR.RETRAIN_MS : Fld := ⟨0x20, 0, 16, .rw, 100, true⟩
/-- Trainings run, saturating -/
def KR.RETRAIN_COUNT : Fld := ⟨0x24, 0, 32, .rc, 0, false⟩
/-- Activations per bank per refresh-management command; clamped to 32–4,096 -/
def KR.RFM_THRESH : Fld := ⟨0x28, 0, 16, .rw, 512, false⟩
/-- HBM4 timing parameters for the stacks fitted. The reset values are set per module at … (one of 64, 4 bytes apart) -/
def KR.HBM_TIMING : Fld := ⟨0x100, 0, 32, .rw, 0, false⟩

/-- Fields of one memory controller (offsets from its base in the hub window), part 0. -/
def KR.part0 : List (Fld × Nat × Nat) :=
  [(KR.TRAINED, 0, 1), (KR.STACK_TEMP, 0, 1), (KR.CH_FAILED, 0, 1), (KR.RETRY_SAT, 0, 1), (KR.RETRY_COUNT, 0, 1), (KR.UE_SAT, 0, 1), (KR.UE_COUNT, 0, 1), (KR.UE_VALID, 0, 1), (KR.UE_SCRUB, 0, 1), (KR.UE_WRITE, 0, 1), (KR.UE_PA_HI, 0, 1), (KR.UE_PA_LO, 0, 1), (KR.SCRUB_EN, 0, 1), (KR.SCRUB_HOURS, 0, 1), (KR.SCRUB_PASSES, 0, 1), (KR.RETRAIN_DT, 0, 1), (KR.RETRAIN_MS, 0, 1), (KR.RETRAIN_COUNT, 0, 1), (KR.RFM_THRESH, 0, 1), (KR.HBM_TIMING, 4, 64)]
/-- Every field of one memory controller (offsets from its base in the hub window): field, stride, number. -/
def KR.table : List (Fld × Nat × Nat) := KR.part0

/-! ### one port (offsets from its base in the hub window) -/

/-- 802.1Q priority -/
def PR.VLAN_PCP : Fld := ⟨0x0, 16, 3, .rw, 0, false⟩
/-- 802.1Q VLAN -/
def PR.VLAN_ID : Fld := ⟨0x0, 4, 12, .rw, 0, false⟩
/-- 1: tag frames -/
def PR.VLAN_EN : Fld := ⟨0x0, 3, 1, .rw, 0, false⟩
/-- 0 RS(544,514) correcting; 1 RS(544,514) detecting only; refused with BUSY while … -/
def PR.FEC_MODE : Fld := ⟨0x0, 2, 1, .rw, 0, false⟩
/-- R308; refused as FEC_MODE -/
def PR.LANE_RATE : Fld := ⟨0x0, 0, 2, .rw, 0, false⟩
/-- 1: port carries frames -/
def PR.LINK_UP : Fld := ⟨0x4, 31, 1, .ro, 0, false⟩
/-- 0 OFF, 1 TRAINING, 2 UP, 3 FAILED -/
def PR.TRAIN_STATE : Fld := ⟨0x4, 28, 3, .ro, 0, false⟩
/-- Bit l: lane l locked -/
def PR.LANES_LOCKED : Fld := ⟨0x4, 0, 4, .ro, 0, false⟩
/-- Sticky: LINK_DOWN_COUNT reached 0xFFFF -/
def PR.DOWN_SAT : Fld := ⟨0x8, 16, 1, .w1c, 0, false⟩
/-- Transitions out of UP, and failed trainings -/
def PR.LINK_DOWN_COUNT : Fld := ⟨0x8, 0, 16, .rc, 0, false⟩
/-- Codewords corrected, saturating -/
def PR.FEC_CORR : Fld := ⟨0xC, 0, 32, .rc, 0, false⟩
/-- Codewords uncorrectable, saturating -/
def PR.FEC_UNCORR : Fld := ⟨0x10, 0, 32, .rc, 0, false⟩
/-- Frames with a bad FCS, saturating -/
def PR.FCS_ERR : Fld := ⟨0x14, 0, 32, .rc, 0, false⟩
/-- Port MAC, bits 31:0 -/
def PR.MAC_LO : Fld := ⟨0x18, 0, 32, .ro, 0, false⟩
/-- Bits 47:32 -/
def PR.MAC_HI : Fld := ⟨0x1C, 0, 16, .ro, 0, false⟩
/-- Word w (0–3) of the port's IPv6 address, word 0 holding address bytes 0–3; refused as … (one of 4, 4 bytes apart) -/
def PR.IPV6_ADDR : Fld := ⟨0x20, 0, 32, .rw, 0, false⟩
/-- Port's IPv4 address; refused as NODE_ID -/
def PR.IPV4_ADDR : Fld := ⟨0x30, 0, 32, .rw, 0, false⟩
/-- NEXT_HOP_MAC, bits 31:0 -/
def PR.NEXT_HOP_LO : Fld := ⟨0x34, 0, 32, .rw, 0, false⟩
/-- Bits 47:32 -/
def PR.NEXT_HOP_HI : Fld := ⟨0x38, 0, 16, .rw, 0, false⟩

/-- Fields of one port (offsets from its base in the hub window), part 0. -/
def PR.part0 : List (Fld × Nat × Nat) :=
  [(PR.VLAN_PCP, 0, 1), (PR.VLAN_ID, 0, 1), (PR.VLAN_EN, 0, 1), (PR.FEC_MODE, 0, 1), (PR.LANE_RATE, 0, 1), (PR.LINK_UP, 0, 1), (PR.TRAIN_STATE, 0, 1), (PR.LANES_LOCKED, 0, 1), (PR.DOWN_SAT, 0, 1), (PR.LINK_DOWN_COUNT, 0, 1), (PR.FEC_CORR, 0, 1), (PR.FEC_UNCORR, 0, 1), (PR.FCS_ERR, 0, 1), (PR.MAC_LO, 0, 1), (PR.MAC_HI, 0, 1), (PR.IPV6_ADDR, 4, 4), (PR.IPV4_ADDR, 0, 1), (PR.NEXT_HOP_LO, 0, 1), (PR.NEXT_HOP_HI, 0, 1)]
/-- Every field of one port (offsets from its base in the hub window): field, stride, number. -/
def PR.table : List (Fld × Nat × Nat) := PR.part0

/-! ### a core (offsets from core-local 0x000F_0000) -/

/-- 0 IDLE, 1 RUNNING, 2 CLOSING, 3 ABORTED -/
def CR.SECTION_STATE : Fld := ⟨0x100, 24, 3, .ro, 0, false⟩
/-- Two bits per slot, C0 in 17:16: 0 EMPTY, 1 LOADING, 2 READY, 3 ACTIVE -/
def CR.SLOT_STATE : Fld := ⟨0x100, 16, 8, .ro, 0, false⟩
/-- Epoch of the next section -/
def CR.NEXT_EPOCH : Fld := ⟨0x100, 10, 2, .ro, 0, false⟩
/-- Slot of the next section -/
def CR.NEXT_SLOT : Fld := ⟨0x100, 8, 2, .ro, 0, false⟩
/-- 1: a next section exists -/
def CR.NEXT_VALID : Fld := ⟨0x100, 7, 1, .ro, 0, false⟩
/-- 1: an active epoch exists -/
def CR.ACTIVE_VALID : Fld := ⟨0x100, 6, 1, .ro, 0, false⟩
/-- Active epoch -/
def CR.ACTIVE_EPOCH : Fld := ⟨0x100, 2, 2, .ro, 0, false⟩
/-- Active slot -/
def CR.ACTIVE_SLOT : Fld := ⟨0x100, 0, 2, .ro, 0, false⟩
/-- Current or last section -/
def CR.SECTION_ID : Fld := ⟨0x104, 0, 16, .ro, 0, false⟩
/-- Sticky: threads stopped by the epoch timer -/
def CR.RESIDUE_THREADS : Fld := ⟨0x108, 17, 1, .w1c, 0, false⟩
/-- Sticky: RESIDUE_TOKENS reached 0xFFFF -/
def CR.RESIDUE_SAT : Fld := ⟨0x108, 16, 1, .w1c, 0, false⟩
/-- Tokens discarded under R55 -/
def CR.RESIDUE_TOKENS : Fld := ⟨0x108, 0, 16, .rc, 0, false⟩
/-- Sticky: LATE_TOKENS reached 0xFFFF -/
def CR.LATE_SAT : Fld := ⟨0x10C, 16, 1, .w1c, 0, false⟩
/-- Tokens sunk under R54 -/
def CR.LATE_TOKENS : Fld := ⟨0x10C, 0, 16, .rc, 0, false⟩
/-- Sticky: the early buffer was full -/
def CR.EARLY_FULL_SEEN : Fld := ⟨0x110, 16, 1, .w1c, 0, false⟩
/-- Blocks held early, 0–4 -/
def CR.EARLY_HELD : Fld := ⟨0x110, 0, 3, .ro, 0, false⟩
/-- CCLK waited under R41, saturating at 0xFFFF_FFFF -/
def CR.CTX_WAIT_CYCLES : Fld := ⟨0x114, 0, 32, .rc, 0, false⟩
/-- Sticky: the count saturated -/
def CR.CORE_BUSY_SAT : Fld := ⟨0x118, 16, 1, .w1c, 0, false⟩
/-- Writes to this core refused with BUSY -/
def CR.CORE_BUSY_COUNT : Fld := ⟨0x118, 0, 16, .rc, 0, false⟩
/-- HBM address of the image in slot Cs, bits 31:0 (one of 4, 8 bytes apart) -/
def CR.SLOT_BASE_LO : Fld := ⟨0x120, 0, 32, .ro, 0, false⟩
/-- Bits 47:32 (one of 4, 8 bytes apart) -/
def CR.SLOT_BASE_HI : Fld := ⟨0x124, 0, 16, .ro, 0, false⟩
/-- y × 576 + x of this core under the in-force remap -/
def CR.LOGICAL_INDEX : Fld := ⟨0x0, 0, 19, .ro, 0, false⟩
/-- Logical row 0–503 -/
def CR.CORE_Y : Fld := ⟨0x4, 16, 9, .ro, 0, false⟩
/-- Logical column 0–575 -/
def CR.CORE_X : Fld := ⟨0x4, 0, 10, .ro, 0, false⟩
/-- Region index -/
def CR.CORE_REGION : Fld := ⟨0x8, 16, 6, .ro, 0, false⟩
/-- Physical column 0–74 -/
def CR.PHYS_COL : Fld := ⟨0x8, 8, 7, .ro, 0, false⟩
/-- Row 0–71 -/
def CR.PHYS_ROW : Fld := ⟨0x8, 0, 7, .ro, 0, false⟩
/-- 3 bits per thread, T0 in 2:0: 0 OFF, 1 READY, 2 WAITING, 3 ENDED, 4 STOPPED -/
def CR.THREAD_STATE : Fld := ⟨0x10, 0, 24, .ro, 0, false⟩
/-- CCLK since the last reset of the core, bits 31:0 -/
def CR.CYCLE_LO : Fld := ⟨0x18, 0, 32, .ro, 0, false⟩
/-- Bits 63:32 -/
def CR.CYCLE_HI : Fld := ⟨0x1C, 0, 32, .ro, 0, false⟩
/-- Spins issued under R72, saturating at 0xFFFF_FFFF -/
def CR.SPIN_CYCLES : Fld := ⟨0x20, 0, 32, .rc, 0, false⟩
/-- 1: the record at 0x000F_0030–0x000F_0048 is held; writing 1 frees it -/
def CR.FAULT_VALID : Fld := ⟨0x30, 31, 1, .w1c, 0, false⟩
/-- Thread of the recorded fault; 0 when FAULT_UNIT ≠ 0 -/
def CR.FAULT_THREAD : Fld := ⟨0x30, 16, 3, .ro, 0, false⟩
/-- 0 thread, 1 engine, 2 compressor, 3 DMA, 4 router -/
def CR.FAULT_UNIT : Fld := ⟨0x30, 8, 3, .ro, 0, false⟩
/-- Code from the table under *Faults* -/
def CR.FAULT_CODE : Fld := ⟨0x30, 0, 8, .ro, 0, false⟩
/-- pc of the faulting instruction -/
def CR.FAULT_PC : Fld := ⟨0x34, 0, 32, .ro, 0, false⟩
/-- Address of the faulting access, bits 31:0 -/
def CR.FAULT_ADDR_LO : Fld := ⟨0x38, 0, 32, .ro, 0, false⟩
/-- 1: device virtual address; 0: core-local -/
def CR.FAULT_ADDR_DEV : Fld := ⟨0x3C, 16, 1, .ro, 0, false⟩
/-- Bits 47:32 -/
def CR.FAULT_ADDR_HI : Fld := ⟨0x3C, 0, 16, .ro, 0, false⟩
/-- The faulting instruction word -/
def CR.FAULT_INSN : Fld := ⟨0x40, 0, 32, .ro, 0, false⟩
/-- Sticky: FAULT_COUNT reached 0xFFFF -/
def CR.FAULT_SAT : Fld := ⟨0x44, 16, 1, .w1c, 0, false⟩
/-- Faults raised at this core, saturating -/
def CR.FAULT_COUNT : Fld := ⟨0x44, 0, 16, .rc, 0, false⟩
/-- LOGICAL_INDEX at the time of the fault; the full index of R34 -/
def CR.FAULT_INDEX : Fld := ⟨0x48, 0, 19, .ro, 0, false⟩
/-- Watchdog limit 2^value CCLK; clamped to 12–28 -/
def CR.CORE_WDOG_LOG2 : Fld := ⟨0x50, 0, 5, .rw, 20, true⟩
/-- Current count under R82 -/
def CR.WDOG_COUNT : Fld := ⟨0x54, 0, 32, .ro, 0, false⟩
/-- Promotions of the neighbour requester, saturating at 0xFF -/
def CR.PROMOTE_NEIGHBOUR : Fld := ⟨0x60, 24, 8, .rc, 0, false⟩
/-- Promotions of the scalar requester -/
def CR.PROMOTE_SCALAR : Fld := ⟨0x60, 16, 8, .rc, 0, false⟩
/-- Promotions of the DMA requester -/
def CR.PROMOTE_DMA : Fld := ⟨0x60, 8, 8, .rc, 0, false⟩
/-- Promotions of the engine requester -/
def CR.PROMOTE_ENGINE : Fld := ⟨0x60, 0, 8, .rc, 0, false⟩
/-- Sticky, one bit per counter at 0x000F_0060, bit 0 for the engine -/
def CR.PROMOTE_SAT : Fld := ⟨0x64, 0, 4, .w1c, 0, false⟩
/-- 3 bits per thread, T0 in 2:0: far stores awaiting acknowledgement, 0–4 -/
def CR.FAR_PENDING : Fld := ⟨0x70, 0, 24, .ro, 0, false⟩
/-- Sticky: CE_COUNT reached 0xFFFF -/
def CR.CE_SAT : Fld := ⟨0x200, 16, 1, .w1c, 0, false⟩
/-- Corrected single-bit errors (R99) -/
def CR.CE_COUNT : Fld := ⟨0x200, 0, 16, .rc, 0, false⟩
/-- Sticky: UE_COUNT reached 0xFFFF -/
def CR.UE_SAT : Fld := ⟨0x204, 16, 1, .w1c, 0, false⟩
/-- Uncorrectable words found, by requesters or the scrubber -/
def CR.UE_COUNT : Fld := ⟨0x204, 0, 16, .rc, 0, false⟩
/-- 1: the record is held; writing 1 frees it -/
def CR.UE_VALID : Fld := ⟨0x208, 31, 1, .w1c, 0, false⟩
/-- 1: found by the scrubber -/
def CR.UE_SCRUB : Fld := ⟨0x208, 30, 1, .ro, 0, false⟩
/-- Address of the first uncorrectable word since the last clear; bits 2:0 zero -/
def CR.UE_ADDR : Fld := ⟨0x208, 0, 18, .ro, 0, false⟩
/-- 1: scrubber runs -/
def CR.SCRUB_EN : Fld := ⟨0x20C, 8, 1, .rw, 1, true⟩
/-- One row every 2^value CCLK; clamped to 6–20 -/
def CR.SCRUB_PERIOD_LOG2 : Fld := ⟨0x20C, 0, 5, .rw, 10, true⟩
/-- Sticky: SCRUB_SWEEPS reached 0xFFFF -/
def CR.SWEEP_SAT : Fld := ⟨0x210, 28, 1, .w1c, 0, false⟩
/-- Next row to scrub -/
def CR.SCRUB_ROW : Fld := ⟨0x210, 16, 12, .ro, 0, false⟩
/-- Completed sweeps -/
def CR.SCRUB_SWEEPS : Fld := ⟨0x210, 0, 16, .rc, 0, false⟩
/-- Bezel b: permitted neighbours in force (one of 8, 16 bytes apart) -/
def CR.BZ_NBR_MASK : Fld := ⟨0x220, 28, 4, .ro, 0, false⟩
/-- Bezel b: generation (one of 8, 16 bytes apart) -/
def CR.BZ_GEN : Fld := ⟨0x220, 24, 4, .ro, 0, false⟩
/-- Bezel b: rows (one of 8, 16 bytes apart) -/
def CR.BZ_LENGTH : Fld := ⟨0x220, 12, 12, .ro, 0, false⟩
/-- Bezel b: BASE >> 6 (one of 8, 16 bytes apart) -/
def CR.BZ_BASE_ROW : Fld := ⟨0x220, 0, 12, .ro, 0, false⟩
/-- 0 CLOSED, 1 OPEN, 2 OPEN_PENDING (one of 8, 16 bytes apart) -/
def CR.BZ_STATE : Fld := ⟨0x224, 30, 2, .ro, 0, false⟩
/-- 1: CLOSE_AFTER armed (one of 8, 16 bytes apart) -/
def CR.BZ_AFTER_ARMED : Fld := ⟨0x224, 29, 1, .ro, 0, false⟩
/-- 1: a notice of bezel b is unacknowledged (one of 8, 16 bytes apart) -/
def CR.BZ_NOTICE_OUT : Fld := ⟨0x224, 28, 1, .ro, 0, false⟩
/-- Sticky: ARRIVALS reached 0xFFFF_FFFF (one of 8, 16 bytes apart) -/
def CR.BZ_ARR_SAT : Fld := ⟨0x224, 27, 1, .w1c, 0, false⟩
/-- Sticky: REJECTS reached 0xFFFF (one of 8, 16 bytes apart) -/
def CR.BZ_REJ_SAT : Fld := ⟨0x224, 16, 1, .w1c, 0, false⟩
/-- Writes to bezel b rejected (R109) (one of 8, 16 bytes apart) -/
def CR.BZ_REJECTS : Fld := ⟨0x224, 0, 16, .rc, 0, false⟩
/-- Writes landed since the last open; read by bz.count (one of 8, 16 bytes apart) -/
def CR.BZ_ARRIVALS : Fld := ⟨0x228, 0, 32, .ro, 0, false⟩
/-- Armed CLOSE_AFTER count (one of 8, 16 bytes apart) -/
def CR.BZ_AFTER_N : Fld := ⟨0x22C, 0, 32, .ro, 0, false⟩
/-- 1: the writer-side record is held; writing 1 frees it -/
def CR.REJ_VALID : Fld := ⟨0x2A0, 31, 1, .w1c, 0, false⟩
/-- Generation of the bezel when checked -/
def CR.GEN_FOUND : Fld := ⟨0x2A0, 12, 4, .ro, 0, false⟩
/-- Stamp carried by the write -/
def CR.GEN_SENT : Fld := ⟨0x2A0, 8, 4, .ro, 0, false⟩
/-- Bezel number -/
def CR.REJ_BEZEL : Fld := ⟨0x2A0, 4, 3, .ro, 0, false⟩
/-- Direction written toward: 0 N, 1 E, 2 S, 3 W -/
def CR.REJ_DIR : Fld := ⟨0x2A0, 2, 2, .ro, 0, false⟩
/-- 0 CLOSED, 1 STALE_GEN, 2 DENIED, 3 RANGE -/
def CR.REJ_CAUSE : Fld := ⟨0x2A0, 0, 2, .ro, 0, false⟩
/-- Offset of the recorded write -/
def CR.REJ_OFFSET : Fld := ⟨0x2A4, 0, 18, .ro, 0, false⟩
/-- Sticky: REJ_COUNT reached 0xFFFF -/
def CR.REJ_CNT_SAT : Fld := ⟨0x2A8, 16, 1, .w1c, 0, false⟩
/-- This core's writes rejected by neighbours -/
def CR.REJ_COUNT : Fld := ⟨0x2A8, 0, 16, .rc, 0, false⟩
/-- CCLK of outgoing traffic held under R107, saturating at 0xFFFF_FFFF -/
def CR.BZ_HOLD_CYCLES : Fld := ⟨0x2AC, 0, 32, .rc, 0, false⟩
/-- Configuration in force (R121); written only by mx.cfg and section start -/
def CR.FP8_OVF : Fld := ⟨0x300, 1, 1, .ro, 0, false⟩
/-- Configuration in force -/
def CR.RMODE : Fld := ⟨0x300, 0, 1, .ro, 0, false⟩
/-- K steps since kind NONE (R125); also in bits 31:7 of the mx.stat word -/
def CR.K_COUNT : Fld := ⟨0x304, 7, 25, .ro, 0, false⟩
/-- 0 NONE, 1 FIXED_FP, 2 FIXED_INT, 3 FP32 -/
def CR.ACC_KIND : Fld := ⟨0x304, 4, 2, .ro, 0, false⟩
/-- 1: a command is executing -/
def CR.BUSY : Fld := ⟨0x304, 3, 1, .ro, 0, false⟩
/-- Commands queued, 0–4 -/
def CR.QDEPTH : Fld := ⟨0x304, 0, 3, .ro, 0, false⟩
/-- OR of cell flags: bit 0 NAN, 1 OVF, 2 CLAMP, 3 UNF -/
def CR.ENGINE_FLAGS : Fld := ⟨0x308, 0, 4, .ro, 0, false⟩
/-- Engine owner thread -/
def CR.ENGINE_OWNER : Fld := ⟨0x30C, 0, 3, .ro, 0, false⟩
/-- Thread t: bit 2t RMODE, bit 2t + 1 FP8_OVF, for its vcvt.* -/
def CR.VCVT_MODE : Fld := ⟨0x310, 0, 16, .rw, 0, false⟩
/-- Seed in force at this core, bits 31:0 -/
def CR.ROUND_SEED_LO : Fld := ⟨0x318, 0, 32, .ro, 0, false⟩
/-- Bits 63:32 -/
def CR.ROUND_SEED_HI : Fld := ⟨0x31C, 0, 32, .ro, 0, false⟩
/-- Sticky: NAN_COUNT reached 0xFFFF -/
def CR.NAN_SAT : Fld := ⟨0x320, 16, 1, .w1c, 0, false⟩
/-- NAN events (R142) -/
def CR.NAN_COUNT : Fld := ⟨0x320, 0, 16, .rc, 0, false⟩
/-- Sticky: OVF_COUNT reached 0xFFFF -/
def CR.OVF_SAT : Fld := ⟨0x324, 16, 1, .w1c, 0, false⟩
/-- OVF events -/
def CR.OVF_COUNT : Fld := ⟨0x324, 0, 16, .rc, 0, false⟩
/-- Sticky: CLAMP_COUNT reached 0xFFFF -/
def CR.CLAMP_SAT : Fld := ⟨0x328, 16, 1, .w1c, 0, false⟩
/-- CLAMP events -/
def CR.CLAMP_COUNT : Fld := ⟨0x328, 0, 16, .rc, 0, false⟩
/-- Sticky: UNF_COUNT reached 0xFFFF -/
def CR.UNF_SAT : Fld := ⟨0x32C, 16, 1, .w1c, 0, false⟩
/-- UNF events -/
def CR.UNF_COUNT : Fld := ⟨0x32C, 0, 16, .rc, 0, false⟩
/-- CCLK in which a command executed, saturating at 0xFFFF_FFFF -/
def CR.ENGINE_BUSY_CYCLES : Fld := ⟨0x330, 0, 32, .rc, 0, false⟩
/-- CCLK in which a K step waited for operands (R145), saturating at 0xFFFF_FFFF -/
def CR.ENGINE_STALL_CYCLES : Fld := ⟨0x334, 0, 32, .rc, 0, false⟩
/-- Configuration in force (R159) -/
def CR.CZ_ROW_BLOCKS : Fld := ⟨0x400, 18, 12, .ro, 0, false⟩
/-- Configuration in force -/
def CR.CZ_META_FULL : Fld := ⟨0x400, 2, 1, .ro, 0, false⟩
/-- 0 OFF, 1 S24, 2 TP24, 3 BITMAP -/
def CR.CZ_MODE : Fld := ⟨0x400, 0, 2, .ro, 0, false⟩
/-- Sticky: staged output discarded at a section start (R167) -/
def CR.CZ_STAGED_LOST : Fld := ⟨0x404, 3, 1, .w1c, 0, false⟩
/-- 1: a bitmap block is open -/
def CR.CZ_BLOCK_OPEN : Fld := ⟨0x404, 2, 1, .ro, 0, false⟩
/-- 1: some area holds a staged partial row -/
def CR.CZ_STAGED : Fld := ⟨0x404, 1, 1, .ro, 0, false⟩
/-- 1: the areas that MODE needs are non-empty (R161) -/
def CR.CZ_AREAS_OK : Fld := ⟨0x404, 0, 1, .ro, 0, false⟩
/-- Sticky: PRUNE_COUNT reached 0xFFFF -/
def CR.PRUNE_SAT : Fld := ⟨0x408, 16, 1, .w1c, 0, false⟩
/-- Non-zeros pruned (R163) -/
def CR.PRUNE_COUNT : Fld := ⟨0x408, 0, 16, .rc, 0, false⟩
/-- Sticky: DUP_META_COUNT reached 0xFFFF -/
def CR.DUP_SAT : Fld := ⟨0x40C, 16, 1, .w1c, 0, false⟩
/-- Nibbles with equal indices (R151) -/
def CR.DUP_META_COUNT : Fld := ⟨0x40C, 0, 16, .rc, 0, false⟩
/-- Sticky: OOR_COUNT reached 0xFFFF -/
def CR.OOR_SAT : Fld := ⟨0x410, 16, 1, .w1c, 0, false⟩
/-- Out-of-range events (R157) -/
def CR.OOR_COUNT : Fld := ⟨0x410, 0, 16, .rc, 0, false⟩
/-- Elements received in the current object, saturating at 0xFFFF_FFFF -/
def CR.OBJ_ELEMS : Fld := ⟨0x414, 0, 32, .ro, 0, false⟩
/-- Current block-row number -/
def CR.OBJ_ROW : Fld := ⟨0x418, 0, 32, .ro, 0, false⟩
/-- BASE of area a (one of 4, 16 bytes apart) -/
def CR.AREA_BASE : Fld := ⟨0x420, 0, 18, .ro, 0, false⟩
/-- LIMIT of area a (one of 4, 16 bytes apart) -/
def CR.AREA_LIMIT : Fld := ⟨0x424, 0, 18, .ro, 0, false⟩
/-- Next row to be written in area a; bits 5:0 zero (one of 4, 16 bytes apart) -/
def CR.AREA_PTR : Fld := ⟨0x428, 0, 18, .ro, 0, false⟩
/-- Histogram bin m, 0–15 (R166) (one of 16, 4 bytes apart) -/
def CR.HIST_BIN : Fld := ⟨0x460, 0, 32, .ro, 0, false⟩
/-- Sticky, bit m: bin m reached 0xFFFF_FFFF -/
def CR.HIST_SAT : Fld := ⟨0x4A0, 0, 16, .w1c, 0, false⟩
/-- MODE of queue q in force (one of 32, 8 bytes apart) -/
def CR.Q_QMODE : Fld := ⟨0x500, 20, 3, .ro, 0, false⟩
/-- Generation of queue q (one of 32, 8 bytes apart) -/
def CR.Q_QGEN : Fld := ⟨0x500, 16, 4, .ro, 0, false⟩
/-- 1: a token waits at the router for queue q (one of 32, 8 bytes apart) -/
def CR.Q_HELD : Fld := ⟨0x500, 13, 1, .ro, 0, false⟩
/-- 1: queue q is CLOSED (one of 32, 8 bytes apart) -/
def CR.Q_CLOSED : Fld := ⟨0x500, 12, 1, .ro, 0, false⟩
/-- Tokens stored, or complete slots counted as by ch.count (one of 32, 8 bytes apart) -/
def CR.Q_OCCUPANCY : Fld := ⟨0x500, 0, 12, .ro, 0, false⟩
/-- Sticky: CLOSED_SUNK reached 0xFFFF (one of 32, 8 bytes apart) -/
def CR.SUNK_SAT : Fld := ⟨0x504, 16, 1, .w1c, 0, false⟩
/-- Tokens of queue q sunk or discarded under R193 (one of 32, 8 bytes apart) -/
def CR.CLOSED_SUNK : Fld := ⟨0x504, 0, 16, .rc, 0, false⟩
/-- Signed EBLK stamped on AIR sends through route q; clamped to −149 to 127 (one of 32, 4 bytes apart) -/
def CR.SEND_EXP : Fld := ⟨0x600, 0, 16, .rw, 0, false⟩
/-- Bit q = 1: route entry q invalid (R188) -/
def CR.ROUTE_BAD : Fld := ⟨0x680, 0, 32, .ro, 0, false⟩
/-- Sticky: COMB_EXCESS reached 0xFFFF -/
def CR.EXCESS_SAT : Fld := ⟨0x684, 16, 1, .w1c, 0, false⟩
/-- Excess contributions sunk (R203) -/
def CR.COMB_EXCESS : Fld := ⟨0x684, 0, 16, .rc, 0, false⟩
/-- Sticky: COMB_CLIP reached 0xFFFF -/
def CR.CLIP_SAT : Fld := ⟨0x688, 16, 1, .w1c, 0, false⟩
/-- Lanes clipped or saturated (R200, R201) -/
def CR.COMB_CLIP : Fld := ⟨0x688, 0, 16, .rc, 0, false⟩
/-- CRC failures received on W, saturating at 0xFF -/
def CR.CRC_ERR_W : Fld := ⟨0x68C, 24, 8, .rc, 0, false⟩
/-- On S -/
def CR.CRC_ERR_S : Fld := ⟨0x68C, 16, 8, .rc, 0, false⟩
/-- On E -/
def CR.CRC_ERR_E : Fld := ⟨0x68C, 8, 8, .rc, 0, false⟩
/-- On N -/
def CR.CRC_ERR_N : Fld := ⟨0x68C, 0, 8, .rc, 0, false⟩
/-- Sticky, bit 0 N to bit 3 W -/
def CR.CRC_ERR_SAT : Fld := ⟨0x690, 0, 4, .w1c, 0, false⟩
/-- BOOST in force at this core -/
def CR.CORE_BOOST : Fld := ⟨0x694, 16, 8, .ro, 16, false⟩
/-- Whole bytes of share balance -/
def CR.SHARE_BAL : Fld := ⟨0x694, 0, 16, .ro, 0, false⟩
/-- CCLK requests waited for share, saturating at 0xFFFF_FFFF -/
def CR.SHARE_WAIT_CYCLES : Fld := ⟨0x698, 0, 32, .rc, 0, false⟩
/-- Largest current CD head age at this router, MCLK -/
def CR.HEAD_AGE_MAX : Fld := ⟨0x69C, 0, 32, .ro, 0, false⟩
/-- Clasp c: children arrived for round n + 1 (one of 16, 4 bytes apart) -/
def CR.CL_CHILD_NEXT : Fld := ⟨0x700, 28, 4, .ro, 0, false⟩
/-- Threads arrived for round n + 1 (one of 16, 4 bytes apart) -/
def CR.CL_THR_NEXT : Fld := ⟨0x700, 20, 8, .ro, 0, false⟩
/-- Children arrived for the open round (one of 16, 4 bytes apart) -/
def CR.CL_CHILD_ARR : Fld := ⟨0x700, 16, 4, .ro, 0, false⟩
/-- Threads arrived for the open round (one of 16, 4 bytes apart) -/
def CR.CL_THR_ARR : Fld := ⟨0x700, 8, 8, .ro, 0, false⟩
/-- 1: saturated (R220) (one of 16, 4 bytes apart) -/
def CR.CL_OVERRUN : Fld := ⟨0x700, 6, 1, .ro, 0, false⟩
/-- Membership VALID in force (one of 16, 4 bytes apart) -/
def CR.CL_VALID : Fld := ⟨0x700, 5, 1, .ro, 0, false⟩
/-- 1: ARRIVE for the open round sent (one of 16, 4 bytes apart) -/
def CR.CL_SENT : Fld := ⟨0x700, 4, 1, .ro, 0, false⟩
/-- Open round n; the register is the cl.test word (one of 16, 4 bytes apart) -/
def CR.CL_OPEN_ROUND : Fld := ⟨0x700, 0, 2, .ro, 0, false⟩
/-- Clasp 2m + 1: last round per thread, 2 bits each, T0 in 17:16 (one of 8, 4 bytes apart) -/
def CR.LAST_HI : Fld := ⟨0x740, 16, 16, .ro, 65535, false⟩
/-- Clasp 2m: last round per thread, T0 in 1:0 (one of 8, 4 bytes apart) -/
def CR.LAST_LO : Fld := ⟨0x740, 0, 16, .ro, 65535, false⟩
/-- Signal counter of thread 2m + 1 (one of 4, 4 bytes apart) -/
def CR.SIG_COUNT_HI : Fld := ⟨0x760, 16, 16, .ro, 0, false⟩
/-- Signal counter of thread 2m (one of 4, 4 bytes apart) -/
def CR.SIG_COUNT_LO : Fld := ⟨0x760, 0, 16, .ro, 0, false⟩
/-- Sticky: a signal found the hold table full (R215) -/
def CR.HOLD_FULL_SEEN : Fld := ⟨0x770, 16, 1, .w1c, 0, false⟩
/-- Held signals, 0–16 -/
def CR.HOLD_USED : Fld := ⟨0x770, 0, 5, .ro, 0, false⟩
/-- Sticky: CLASP_LATE reached 0xFFFF -/
def CR.CLASP_LATE_SAT : Fld := ⟨0x774, 16, 1, .w1c, 0, false⟩
/-- Clasp messages discarded (R226) -/
def CR.CLASP_LATE : Fld := ⟨0x774, 0, 16, .rc, 0, false⟩
/-- Advanced at each abort and core reset (R228) -/
def CR.CLASP_GEN : Fld := ⟨0x778, 0, 4, .ro, 0, false⟩
/-- Sticky, bit t: thread t's signal counter reached 0xFFFF -/
def CR.SIG_SAT : Fld := ⟨0x77C, 0, 8, .w1c, 0, false⟩
/-- Sticky: Q_ARRIVALS reached 0xFF_FFFF (one of 32, 4 bytes apart) -/
def CR.QARR_SAT : Fld := ⟨0x780, 24, 1, .w1c, 0, false⟩
/-- Arrivals at queue q since section start (R214) (one of 32, 4 bytes apart) -/
def CR.Q_ARRIVALS : Fld := ⟨0x780, 0, 24, .ro, 0, false⟩
/-- A thread's csr.w or st.w folds zext(value) (R263) -/
def CR.HM_FOLD : Fld := ⟨0x800, 0, 32, .wo, 0, false⟩
/-- Core hallmark of the current tick, bits 31:0 -/
def CR.CORE_HM_LO : Fld := ⟨0x808, 0, 32, .ro, 0, false⟩
/-- Bits 63:32 -/
def CR.CORE_HM_HI : Fld := ⟨0x80C, 0, 32, .ro, 0, false⟩
/-- Latched at done (R266), bits 31:0 -/
def CR.HM_LAST_LO : Fld := ⟨0x810, 0, 32, .ro, 0, false⟩
/-- Bits 63:32 -/
def CR.HM_LAST_HI : Fld := ⟨0x814, 0, 32, .ro, 0, false⟩
/-- Bits 31:0 of the tick latched -/
def CR.HM_LAST_TICK : Fld := ⟨0x818, 0, 32, .ro, 0, false⟩
/-- Values folded in that tick, saturating at 0xFFFF_FFFF (R14) -/
def CR.HM_LAST_FOLDS : Fld := ⟨0x81C, 0, 32, .ro, 0, false⟩
/-- Engine fold index (R264) -/
def CR.ENG_SEQ : Fld := ⟨0x820, 0, 32, .ro, 0, false⟩
/-- Fold index of thread t, 0–7 (one of 8, 4 bytes apart) -/
def CR.THR_SEQ : Fld := ⟨0x824, 0, 32, .ro, 0, false⟩
/-- Tag of the next post -/
def CR.NEXT_TAG : Fld := ⟨0x900, 16, 16, .ro, 0, false⟩
/-- Descriptors completed, modulo 2^16 -/
def CR.DONE_TAG : Fld := ⟨0x900, 0, 16, .ro, 0, false⟩
/-- 0 IDLE, 1 RUNNING, 2 PAGE_WAIT (at a page fence), 3 PARKED -/
def CR.DMA_STATE : Fld := ⟨0x904, 30, 2, .ro, 0, false⟩
/-- Rows issued of the current descriptor -/
def CR.ISSUED : Fld := ⟨0x904, 16, 12, .ro, 0, false⟩
/-- First row of the current page (R302) -/
def CR.PAGE_ROW : Fld := ⟨0x904, 0, 12, .ro, 0, false⟩
/-- Address of row PAGE_ROW, bits 31:0 -/
def CR.PAGE_VA_LO : Fld := ⟨0x908, 0, 32, .ro, 0, false⟩
/-- Uncompleted descriptors, 0–16 -/
def CR.QUEUED : Fld := ⟨0x90C, 16, 5, .ro, 0, false⟩
/-- Bits 47:32 -/
def CR.PAGE_VA_HI : Fld := ⟨0x90C, 0, 16, .ro, 0, false⟩
/-- Context load: 0 none, 1 RUNNING, 2 PAGE_WAIT, 3 PARKED -/
def CR.CTX_STATE : Fld := ⟨0x910, 6, 2, .ro, 0, false⟩
/-- Rows of the context image landed, 0–32 -/
def CR.CTX_ROWS : Fld := ⟨0x910, 0, 6, .ro, 0, false⟩
/-- Sticky: DMA_STALE reached 0xFFFF -/
def CR.STALE_SAT : Fld := ⟨0x914, 16, 1, .w1c, 0, false⟩
/-- Replies to the DMA engine or to context loads that arrive for no outstanding row and … -/
def CR.DMA_STALE : Fld := ⟨0x914, 0, 16, .rc, 0, false⟩
/-- Rows moved by posted descriptors (LOAD, STORE, FILL and COPY), saturating at … -/
def CR.DMA_ROWS : Fld := ⟨0x918, 0, 32, .rc, 0, false⟩

/-- Fields of a core (offsets from core-local 0x000F_0000), part 0. -/
def CR.part0 : List (Fld × Nat × Nat) :=
  [(CR.SECTION_STATE, 0, 1), (CR.SLOT_STATE, 0, 1), (CR.NEXT_EPOCH, 0, 1), (CR.NEXT_SLOT, 0, 1), (CR.NEXT_VALID, 0, 1), (CR.ACTIVE_VALID, 0, 1), (CR.ACTIVE_EPOCH, 0, 1), (CR.ACTIVE_SLOT, 0, 1), (CR.SECTION_ID, 0, 1), (CR.RESIDUE_THREADS, 0, 1), (CR.RESIDUE_SAT, 0, 1), (CR.RESIDUE_TOKENS, 0, 1), (CR.LATE_SAT, 0, 1), (CR.LATE_TOKENS, 0, 1), (CR.EARLY_FULL_SEEN, 0, 1), (CR.EARLY_HELD, 0, 1), (CR.CTX_WAIT_CYCLES, 0, 1), (CR.CORE_BUSY_SAT, 0, 1), (CR.CORE_BUSY_COUNT, 0, 1), (CR.SLOT_BASE_LO, 8, 4), (CR.SLOT_BASE_HI, 8, 4), (CR.LOGICAL_INDEX, 0, 1), (CR.CORE_Y, 0, 1), (CR.CORE_X, 0, 1)]
/-- Fields of a core (offsets from core-local 0x000F_0000), part 1. -/
def CR.part1 : List (Fld × Nat × Nat) :=
  [(CR.CORE_REGION, 0, 1), (CR.PHYS_COL, 0, 1), (CR.PHYS_ROW, 0, 1), (CR.THREAD_STATE, 0, 1), (CR.CYCLE_LO, 0, 1), (CR.CYCLE_HI, 0, 1), (CR.SPIN_CYCLES, 0, 1), (CR.FAULT_VALID, 0, 1), (CR.FAULT_THREAD, 0, 1), (CR.FAULT_UNIT, 0, 1), (CR.FAULT_CODE, 0, 1), (CR.FAULT_PC, 0, 1), (CR.FAULT_ADDR_LO, 0, 1), (CR.FAULT_ADDR_DEV, 0, 1), (CR.FAULT_ADDR_HI, 0, 1), (CR.FAULT_INSN, 0, 1), (CR.FAULT_SAT, 0, 1), (CR.FAULT_COUNT, 0, 1), (CR.FAULT_INDEX, 0, 1), (CR.CORE_WDOG_LOG2, 0, 1), (CR.WDOG_COUNT, 0, 1), (CR.PROMOTE_NEIGHBOUR, 0, 1), (CR.PROMOTE_SCALAR, 0, 1), (CR.PROMOTE_DMA, 0, 1)]
/-- Fields of a core (offsets from core-local 0x000F_0000), part 2. -/
def CR.part2 : List (Fld × Nat × Nat) :=
  [(CR.PROMOTE_ENGINE, 0, 1), (CR.PROMOTE_SAT, 0, 1), (CR.FAR_PENDING, 0, 1), (CR.CE_SAT, 0, 1), (CR.CE_COUNT, 0, 1), (CR.UE_SAT, 0, 1), (CR.UE_COUNT, 0, 1), (CR.UE_VALID, 0, 1), (CR.UE_SCRUB, 0, 1), (CR.UE_ADDR, 0, 1), (CR.SCRUB_EN, 0, 1), (CR.SCRUB_PERIOD_LOG2, 0, 1), (CR.SWEEP_SAT, 0, 1), (CR.SCRUB_ROW, 0, 1), (CR.SCRUB_SWEEPS, 0, 1), (CR.BZ_NBR_MASK, 16, 8), (CR.BZ_GEN, 16, 8), (CR.BZ_LENGTH, 16, 8), (CR.BZ_BASE_ROW, 16, 8), (CR.BZ_STATE, 16, 8), (CR.BZ_AFTER_ARMED, 16, 8), (CR.BZ_NOTICE_OUT, 16, 8), (CR.BZ_ARR_SAT, 16, 8), (CR.BZ_REJ_SAT, 16, 8)]
/-- Fields of a core (offsets from core-local 0x000F_0000), part 3. -/
def CR.part3 : List (Fld × Nat × Nat) :=
  [(CR.BZ_REJECTS, 16, 8), (CR.BZ_ARRIVALS, 16, 8), (CR.BZ_AFTER_N, 16, 8), (CR.REJ_VALID, 0, 1), (CR.GEN_FOUND, 0, 1), (CR.GEN_SENT, 0, 1), (CR.REJ_BEZEL, 0, 1), (CR.REJ_DIR, 0, 1), (CR.REJ_CAUSE, 0, 1), (CR.REJ_OFFSET, 0, 1), (CR.REJ_CNT_SAT, 0, 1), (CR.REJ_COUNT, 0, 1), (CR.BZ_HOLD_CYCLES, 0, 1), (CR.FP8_OVF, 0, 1), (CR.RMODE, 0, 1), (CR.K_COUNT, 0, 1), (CR.ACC_KIND, 0, 1), (CR.BUSY, 0, 1), (CR.QDEPTH, 0, 1), (CR.ENGINE_FLAGS, 0, 1), (CR.ENGINE_OWNER, 0, 1), (CR.VCVT_MODE, 0, 1), (CR.ROUND_SEED_LO, 0, 1), (CR.ROUND_SEED_HI, 0, 1)]
/-- Fields of a core (offsets from core-local 0x000F_0000), part 4. -/
def CR.part4 : List (Fld × Nat × Nat) :=
  [(CR.NAN_SAT, 0, 1), (CR.NAN_COUNT, 0, 1), (CR.OVF_SAT, 0, 1), (CR.OVF_COUNT, 0, 1), (CR.CLAMP_SAT, 0, 1), (CR.CLAMP_COUNT, 0, 1), (CR.UNF_SAT, 0, 1), (CR.UNF_COUNT, 0, 1), (CR.ENGINE_BUSY_CYCLES, 0, 1), (CR.ENGINE_STALL_CYCLES, 0, 1), (CR.CZ_ROW_BLOCKS, 0, 1), (CR.CZ_META_FULL, 0, 1), (CR.CZ_MODE, 0, 1), (CR.CZ_STAGED_LOST, 0, 1), (CR.CZ_BLOCK_OPEN, 0, 1), (CR.CZ_STAGED, 0, 1), (CR.CZ_AREAS_OK, 0, 1), (CR.PRUNE_SAT, 0, 1), (CR.PRUNE_COUNT, 0, 1), (CR.DUP_SAT, 0, 1), (CR.DUP_META_COUNT, 0, 1), (CR.OOR_SAT, 0, 1), (CR.OOR_COUNT, 0, 1), (CR.OBJ_ELEMS, 0, 1)]
/-- Fields of a core (offsets from core-local 0x000F_0000), part 5. -/
def CR.part5 : List (Fld × Nat × Nat) :=
  [(CR.OBJ_ROW, 0, 1), (CR.AREA_BASE, 16, 4), (CR.AREA_LIMIT, 16, 4), (CR.AREA_PTR, 16, 4), (CR.HIST_BIN, 4, 16), (CR.HIST_SAT, 0, 1), (CR.Q_QMODE, 8, 32), (CR.Q_QGEN, 8, 32), (CR.Q_HELD, 8, 32), (CR.Q_CLOSED, 8, 32), (CR.Q_OCCUPANCY, 8, 32), (CR.SUNK_SAT, 8, 32), (CR.CLOSED_SUNK, 8, 32), (CR.SEND_EXP, 4, 32), (CR.ROUTE_BAD, 0, 1), (CR.EXCESS_SAT, 0, 1), (CR.COMB_EXCESS, 0, 1), (CR.CLIP_SAT, 0, 1), (CR.COMB_CLIP, 0, 1), (CR.CRC_ERR_W, 0, 1), (CR.CRC_ERR_S, 0, 1), (CR.CRC_ERR_E, 0, 1), (CR.CRC_ERR_N, 0, 1), (CR.CRC_ERR_SAT, 0, 1)]
/-- Fields of a core (offsets from core-local 0x000F_0000), part 6. -/
def CR.part6 : List (Fld × Nat × Nat) :=
  [(CR.CORE_BOOST, 0, 1), (CR.SHARE_BAL, 0, 1), (CR.SHARE_WAIT_CYCLES, 0, 1), (CR.HEAD_AGE_MAX, 0, 1), (CR.CL_CHILD_NEXT, 4, 16), (CR.CL_THR_NEXT, 4, 16), (CR.CL_CHILD_ARR, 4, 16), (CR.CL_THR_ARR, 4, 16), (CR.CL_OVERRUN, 4, 16), (CR.CL_VALID, 4, 16), (CR.CL_SENT, 4, 16), (CR.CL_OPEN_ROUND, 4, 16), (CR.LAST_HI, 4, 8), (CR.LAST_LO, 4, 8), (CR.SIG_COUNT_HI, 4, 4), (CR.SIG_COUNT_LO, 4, 4), (CR.HOLD_FULL_SEEN, 0, 1), (CR.HOLD_USED, 0, 1), (CR.CLASP_LATE_SAT, 0, 1), (CR.CLASP_LATE, 0, 1), (CR.CLASP_GEN, 0, 1), (CR.SIG_SAT, 0, 1), (CR.QARR_SAT, 4, 32), (CR.Q_ARRIVALS, 4, 32)]
/-- Fields of a core (offsets from core-local 0x000F_0000), part 7. -/
def CR.part7 : List (Fld × Nat × Nat) :=
  [(CR.HM_FOLD, 0, 1), (CR.CORE_HM_LO, 0, 1), (CR.CORE_HM_HI, 0, 1), (CR.HM_LAST_LO, 0, 1), (CR.HM_LAST_HI, 0, 1), (CR.HM_LAST_TICK, 0, 1), (CR.HM_LAST_FOLDS, 0, 1), (CR.ENG_SEQ, 0, 1), (CR.THR_SEQ, 4, 8), (CR.NEXT_TAG, 0, 1), (CR.DONE_TAG, 0, 1), (CR.DMA_STATE, 0, 1), (CR.ISSUED, 0, 1), (CR.PAGE_ROW, 0, 1), (CR.PAGE_VA_LO, 0, 1), (CR.QUEUED, 0, 1), (CR.PAGE_VA_HI, 0, 1), (CR.CTX_STATE, 0, 1), (CR.CTX_ROWS, 0, 1), (CR.STALE_SAT, 0, 1), (CR.DMA_STALE, 0, 1), (CR.DMA_ROWS, 0, 1)]
/-- Every field of a core (offsets from core-local 0x000F_0000): field, stride, number. -/
def CR.table : List (Fld × Nat × Nat) := CR.part0 ++ CR.part1 ++ CR.part2 ++ CR.part3 ++ CR.part4 ++ CR.part5 ++ CR.part6 ++ CR.part7

end Sys2Proof.Machine
end

