-- ==== Sys2Proof/Machine/CoreTypes.lean ====
section
/-!
DEFINITION. The parts of a core as plain data: blocks of the mesh and routers (07), threads (03), bezels (04), queues,
signals and clasps (07, 08), the matrix engine and the compressor (05, 06), the DMA engine and context storage (11, 02).
-/
namespace Sys2Proof.Machine

/-! ### Blocks of the mesh (R174, R179, R180) -/

/-- The header of a channel-data block (R179). DEST, HUB and ENDPOINT are held apart. -/
structure CdHead where
  signal : Bool
  epoch : Nat
  kind : Nat
  destQ : Nat
  dest : Nat
  hub : Nat
  endpoint : Nat
  src : Nat
  srcQ : Nat
  seq : Nat
  eblk : Int
  xBase : Nat
  yBase : Nat
  colMask : Nat
  rowMask : Nat
  deriving DecidableEq, Repr

/-- A memory request (R180). `unit`: 0 far access, 1 DMA, 2 context load, 3 region controller. `pc` and `insn` are the
requesting instruction's, kept for its fault record. -/
structure MReq where
  write : Bool
  va : Nat
  src : Nat
  thread : Nat
  unit : Nat
  tag : Nat
  gen : Nat
  data : Row
  mask : Nat
  pc : Word
  insn : Nat
  deriving DecidableEq, Repr

/-- What a memory reply brings (R180): data, an acknowledgement, or a refusal with its cause. -/
inductive Reply where
  /-- DATA. -/
  | data (r : Row)
  /-- WRITE_ACK. -/
  | ack
  /-- REFUSED NOT_HBM: outside HBM after translation (R31). -/
  | notHbm
  /-- REFUSED UNMAPPED: a region controller's request (R289). -/
  | unmapped
  /-- REFUSED UNCORRECTABLE (R283, R284). -/
  | uncorrectable
  /-- REFUSED because the page was denied (R295). -/
  | denied
  deriving DecidableEq, Repr

/-- A TICK message inside the module (R48, R57, R58): its tick, its COMMIT flag, whether a new plan commits with it (R443),
and its number among the region's multicasts. -/
structure TickMsg where
  tick : Nat
  commit : Bool
  newPlan : Bool
  serial : Nat
  deriving DecidableEq, Repr

/-- SECTION_ABORT from a detecting unit to H0 (R51): the region, 63 for a unit outside the regions, and the fault that is its
cause as the MP log records it: log code, level and index (R379, R410). -/
structure AbortMsg where
  region : Nat
  code : Nat
  level : Nat
  index : Nat
  deriving DecidableEq, Repr

/-- What a clasp message says (R226): the direction it comes from as its receiver sees it, RELEASE or ARRIVE, and the fields of
word 1. -/
structure ClaspMsg where
  fromDir : Nat
  release : Bool
  clasp : Nat
  round : Nat
  epoch : Nat
  ttag : Nat
  deriving DecidableEq, Repr

/-- What a control message says (R181). -/
inductive CtrlBody where
  /-- TICK from H0 to a region controller (R48). -/
  | tick (m : TickMsg)
  /-- REGION_DONE: the tick and the region hallmark (R48, R269). -/
  | regionDone (tick hm : Nat)
  /-- SECTION_ABORT from H0 to a region controller (R51). -/
  | abort
  /-- SECTION_ABORT from the region controller that detects a cause to H0 (R51). -/
  | cause (a : AbortMsg)
  /-- CORE_DONE: the tick, HM_LAST and HM_LAST_FOLDS (R48). -/
  | coreDone (tick hm folds : Nat)
  /-- ARRIVE or RELEASE (R226). -/
  | clasp (m : ClaspMsg)
  /-- A new BOOST from H0 to a region controller (R205). -/
  | boost (v : Nat)
  /-- FILLER_DUTY from a region controller to its cores (R366). -/
  | duty (v : Nat)
  deriving DecidableEq, Repr

/-- A control block (R181): DKIND, DEST and SRC of its header, what it says, and how often the region controller it goes to had been
restarted when it was sent (R393, log 80). -/
structure Ctrl where
  dkind : Nat
  dest : Nat
  src : Nat
  gen : Nat
  body : CtrlBody
  deriving DecidableEq, Repr

/-- What a block carries. -/
inductive Payload where
  /-- A token or a signal. -/
  | cd (h : CdHead) (body : Row)
  /-- A memory request. -/
  | mreq (q : MReq)
  /-- A memory reply, with the request it answers. -/
  | mrsp (q : MReq) (r : Reply)
  /-- A control message. -/
  | ctrl (m : Ctrl)
  deriving DecidableEq, Repr

/-- A block on a link (R174): the fields of its sideband word but CRC, which R175 computes from the rest, and the packet that its data
bytes hold. -/
structure LinkBlock where
  seqd : Bool
  seq : Nat
  ackSeq : Nat
  ackValid : Bool
  nak : Bool
  cred : Nat
  body : Option Payload
  deriving DecidableEq, Repr

/-- A block in a router's input buffer: the outputs its copies still owe (0 local, 1 N, 2 E, 3 S, 4 W), the queue
generation it was tagged with when it passed the epoch check at its destination (R193), and when it became head. -/
structure Entry where
  body : Payload
  owes : List Nat
  tag : Option Nat
  since : Nat
  deriving DecidableEq, Repr

/-- One end of a link (R173, R174, R176). As a sender: the next SEQ, the replay buffer (times sent again, block), the blocks sent that
have not reached the other end, and the credits in use by class. As a receiver: the expected SEQ, whether a sequenced block has been
accepted, whether an acknowledgement and whether a NAK is due, whether the NAK for the expected SEQ is out, and the credits to return
by class. -/
structure Link where
  nextSeq : Nat
  replay : List (Nat × LinkBlock)
  flight : List LinkBlock
  used : Sparse Nat
  expect : Nat
  heard : Bool
  ackDue : Bool
  nakDue : Bool
  nakSent : Bool
  owed : Sparse Nat
  deriving DecidableEq, Repr

/-- The mesh part of a router: its input buffers (key 4 × port + class), its ends of the links by port, and the candidate each
output granted last (R173, R186). -/
structure Router where
  inb : Sparse (List Entry)
  links : Sparse Link
  granted : Sparse Nat
  deriving DecidableEq, Repr

/-! ### Threads (03) -/

/-- The status of a thread. -/
inductive TStat where
  | off | ready | waiting | ended | stopped
  deriving DecidableEq, Repr

/-- What a WAITING thread waits on, for the watchdog's hold of R82. -/
inductive WaitOn where
  /-- Nothing. -/
  | none
  /-- A waiting instruction other than cl.wait (R72). -/
  | spin
  /-- cl.wait. -/
  | clasp
  /-- A far load's reply. -/
  | far
  /-- A far access that met a translation fault (R77). -/
  | fault
  /-- A far store whose request waits for the share balance (R71). -/
  | share
  /-- dma.wait on a tag (R296, R303). -/
  | dma (tag : Nat)
  /-- A bz.put whose write has no room yet in the outgoing buffer of a direction (R108). -/
  | put (dir : Nat)
  deriving DecidableEq, Repr

/-- A far load in progress: address, destination, two words, the section generation it belongs to, its word. -/
structure FarLoad where
  addr : Nat
  dst : BitVec 5
  wide : Bool
  insn : Nat
  deriving DecidableEq, Repr

/-- One hardware thread. g0 and p0 are hard-wired in the operations that read and write them. `farHeld`: its far accesses that wait at
translation faults (R77). -/
structure Thread where
  g : Sparse Word
  v : Sparse Row
  p : Sparse (BitVec 16)
  pc : Word
  ec : Word
  status : TStat
  sig : Nat
  fetchAddr : Option Nat
  fetchBuf : DWord
  wait : WaitOn
  farLoad : Option FarLoad
  farStores : Nat
  farHeld : Nat
  tags : List Nat
  atBreak : Bool
  deriving DecidableEq, Repr

/-! ### Bezels (04) -/

/-- A change of a bezel that waits for the acknowledgement of an earlier notice: a close notice to send, carrying the
generation it had then, or an open to carry out (R106). -/
inductive BzChange where
  | closeNotice (gen : Nat)
  | reopen (base length mask : Nat)
  deriving DecidableEq, Repr

/-- The state of a bezel (R105). -/
inductive BzState where
  | closed | opened | pending
  deriving DecidableEq, Repr

/-- One bezel of a core: base row, rows, permitted neighbours, generation, state, arrivals, CLOSE_AFTER, the neighbours
whose acknowledgement of the notice out is awaited, and the changes not yet announced or carried out, in order. -/
structure Bezel where
  base : Nat
  length : Nat
  mask : Nat
  gen : Nat
  state : BzState
  arrivals : Nat
  armed : Bool
  afterN : Nat
  waiting : List Nat
  queued : List BzChange
  deriving DecidableEq, Repr

/-- A message of the bezel lane, which is first-in first-out in each direction (R105). -/
inductive LaneMsg where
  /-- A notice: bezel, generation, LENGTH, and OPEN or CLOSED. -/
  | notice (b gen length : Nat) (opened : Bool)
  /-- The acknowledgement of the notice of a bezel. -/
  | ack (b : Nat)
  /-- A row written to a bezel: bezel, offset, stamp, row (R108). -/
  | write (b offset stamp : Nat) (row : Row)
  /-- A rejection: bezel, offset, stamp, generation found, cause 0 CLOSED, 1 STALE_GEN, 2 DENIED, 3 RANGE (R109). -/
  | reject (b offset stamp found cause : Nat)
  deriving DecidableEq, Repr

/-- A bezel write that has not left its writer's router: the thread that issued it, bezel, offset and row (R108). -/
structure BzWrite where
  thread : Nat
  b : Nat
  offset : Nat
  row : Row
  deriving DecidableEq, Repr

/-- What a router knows of a neighbour's bezel (R105). -/
structure Shadow where
  opened : Bool
  gen : Nat
  length : Nat
  deriving DecidableEq, Repr

/-! ### Queues, signals, clasps (07, 08) -/

/-- A lane of a combining slot in a float mode: its sum, and the non-finite inputs seen (R201, R202). -/
structure CombLane where
  sum : Int
  nan : Bool
  pinf : Bool
  ninf : Bool
  deriving DecidableEq, Repr

/-- A combining slot: the full sequence it is taken for, the contributions received, EBLK, its lanes (IADD, IMAX, IMIN and
AIR: `lanes`; ARRIVAL_F32: the FP32 words in `acc`). -/
structure CombSlot where
  seq : Nat
  count : Nat
  eblk : Int
  lanes : List CombLane
  acc : Row
  deriving DecidableEq, Repr

/-- A queue in force (R189, R193): its setup, generation, whether CLOSED, the write and read counts of a PLAIN ring, and
for a combining queue its slots and L (R199). -/
structure Queue where
  base : Nat
  depth : Nat
  mode : Nat
  ncontrib : Nat
  gen : Nat
  closed : Bool
  wr : Nat
  rdn : Nat
  slots : Sparse CombSlot
  low : Nat
  arrivals : Nat
  deriving DecidableEq, Repr

/-- A held signal (R213): COUNT, THREAD, the bezel it is held against with that bezel's generation, or the queue. -/
structure Held where
  count : Nat
  thread : Nat
  onBezel : Bool
  which : Nat
  gen : Nat
  deriving DecidableEq, Repr

/-- A clasp node (R218 to R221): membership in force, open round, arrivals for it and for the next, each thread's last
round, pc and word of its last cl.arr, and the arrivals held for round 0 of the next section (R226). -/
structure Clasp where
  threads : Nat
  parent : Nat
  children : Nat
  valid : Bool
  openRound : Nat
  thrArr : Nat
  childArr : Nat
  thrNext : Nat
  childNext : Nat
  last : Sparse Nat
  lastPc : Sparse Word
  lastInsn : Sparse Nat
  sent : Bool
  overrun : Bool
  early : List ClaspMsg
  deriving DecidableEq, Repr

/-! ### The matrix engine and the compressor (05, 06) -/

/-- The kind of the accumulators (R118). -/
inductive AccKind where
  | none | fixedFp | fixedInt | fp32
  deriving DecidableEq, Repr

/-- The special state of a fixed accumulator (R118). -/
inductive Special where
  | finite | posInf | negInf | nan
  deriving DecidableEq, Repr

/-- One cell: its accumulator (the 96-bit integer as an exact integer, or the FP32 word), special state and sticky event
flags (NAN, OVF, CLAMP, UNF in bits 0 to 3). -/
structure Cell where
  acc : Int
  special : Special
  flags : Nat
  deriving DecidableEq, Repr

/-- A queued engine or compressor command with g[a] as it was at issue, and the thread and pc that issued it (R119). -/
inductive EngCmd where
  | run (addr : Nat)
  | out (addr : Nat)
  | clr
  | cfg (word : Word)
  | czCfg (word : Word)
  | czFlush
  | czHist (addr : Nat)
  deriving DecidableEq, Repr

/-- The matrix engine: its queue, the cells (key 16r + c), their kind, K_COUNT, the configuration word in force and the
owner thread (R118 to R125). -/
structure Engine where
  queue : List EngCmd
  cells : Sparse Cell
  kind : AccKind
  kCount : Nat
  rmode : Bool
  ovfIeee : Bool
  owner : Nat
  deriving DecidableEq, Repr

/-- One output area of the compressor: BASE, LIMIT, write pointer, and the bytes staged for its next row (R160, R162). -/
structure Area where
  base : Nat
  limit : Nat
  ptr : Nat
  staged : List Byte
  deriving DecidableEq, Repr

/-- The compressor (R159 to R167): mode (0 OFF, 1 S24, 2 TP24, 3 BITMAP), META_FULL, ROW_BLOCKS as written, the areas
VAL, META, L1, ROW; the object under way: its elements, the bits of the open block (element number in the block, set
where non-zero), the L1 bits of the unfinished byte, the block row's blocks and non-zeros and its number, the non-zeros
of the current 4,096-element stretch; and the histogram. -/
structure Comp where
  mode : Nat
  metaFull : Bool
  rowBlocks : Nat
  val : Area
  info : Area
  l1 : Area
  row : Area
  elems : Nat
  blockBits : List Bool
  l1Bits : List Bool
  rowBlk : Nat
  rowCount : Nat
  rowNum : Nat
  stretchElems : Nat
  stretchNz : Nat
  hist : Sparse Nat
  deriving DecidableEq, Repr

/-! ### The DMA engine and context storage (11, 02) -/

/-- A posted descriptor: its 32 bytes as four 64-bit words, the thread that posted it, whether it has started, the rows
issued, the rows outstanding and the rows complete (R299 to R303). -/
structure DmaDesc where
  w0 : Nat
  oaw : Nat
  w2 : Nat
  w3 : Nat
  poster : Nat
  started : Bool
  issued : Nat
  outstanding : List Nat
  done : Nat
  pageRow : Nat
  deriving DecidableEq, Repr

/-- An operand access word (R91). -/
structure Oaw where
  base : Nat
  mode : Nat
  count : Nat
  stride : Nat
  tstep : Nat
  rsv : Nat
  deriving DecidableEq, Repr

/-- The fields of an OAW's 64 bits. -/
def Oaw.ofNat (v : Nat) : Oaw :=
  ⟨bits v 17 0, bits v 19 18, bits v 31 20, bits v 45 32, bits v 59 46, bits v 63 60⟩

/-- TYPE of a descriptor. -/
def DmaDesc.typ (d : DmaDesc) : Nat := bits d.w0 2 0
/-- Its scratchpad side. -/
def DmaDesc.oa (d : DmaDesc) : Oaw := Oaw.ofNat d.oaw
/-- Its rows. -/
def DmaDesc.count (d : DmaDesc) : Nat := d.oa.count
/-- HSTRIDE. -/
def DmaDesc.hstride (d : DmaDesc) : Nat := bits d.w0 63 32
/-- It moves rows between HBM and the scratchpad. -/
def DmaDesc.far (d : DmaDesc) : Bool := decide (d.typ = 1) || decide (d.typ = 2)
/-- The scratchpad address of row `k` (R93). -/
def DmaDesc.rowAddr (d : DmaDesc) (k : Nat) : Nat := (d.oa.base / 64 + k * d.oa.stride) * 64
/-- The HBM address of row `k`. -/
def DmaDesc.rowVa (d : DmaDesc) (k : Nat) : Nat := (d.w2 + k * d.hstride) % 2 ^ 48

/-- A descriptor has issued its last row; the fill and copy unit's when it is done. -/
def DmaDesc.allIssued (d : DmaDesc) : Bool := d.started && decide (d.issued = d.count)

/-- A context load under way (R40, R305): slot, image address, the rows issued, outstanding and landed, whether parked. -/
structure CtxLoad where
  slot : Nat
  base : Nat
  issued : Nat
  outstanding : List Nat
  landed : Nat
  parked : Bool
  deriving DecidableEq, Repr

/-- The DMA engine of a core: its descriptors not yet complete, oldest first, the next tag, the number completed, whether
a fault stopped it, the context load, and the kind of request issued last (0 far access, 1 context row, 2 descriptor row; R301). -/
structure Dma where
  queue : List DmaDesc
  nextTag : Nat
  doneTag : Nat
  stopped : Bool
  ctx : Option CtxLoad
  turn : Nat
  deriving DecidableEq, Repr

/-- The descriptor that issues rows: its place in the queue. -/
def Dma.current (d : Dma) : Option (Nat × DmaDesc) :=
  match d.queue.findIdx? fun x => x.started && x.far && !x.allIssued with
  | none => none
  | some i => (d.queue[i]?).map fun x => (i, x)

/-- A descriptor stands at a page fence (R302). -/
def DmaDesc.atFence (d : DmaDesc) : Bool :=
  d.far && d.started && !d.allIssued && decide (d.issued ≠ 0) && decide (d.outstanding ≠ []) &&
    decide (d.rowVa d.issued / 2 ^ 16 ≠ d.rowVa (d.issued - 1) / 2 ^ 16)

/-- A row of a descriptor can be issued. -/
def Dma.hasRow (d : Dma) : Bool := match d.current with | some (_, x) => !d.stopped && !x.atFence | none => false

/-- The state of a context slot (R39). -/
inductive SlotState where
  | empty | loading | ready | active
  deriving DecidableEq, Repr

/-- A context slot C0 to C3: its state, the HBM address of its image, the image, and of a load that failed its
fault code (0: none; R41) and the device address of the row refused. -/
structure Slot where
  state : SlotState
  base : Nat
  image : Sparse Byte
  failed : Nat
  failedVa : Nat
  deriving DecidableEq, Repr

/-- The state of a core's section (R36). -/
inductive SecState where
  | idle | running | closing | aborted
  deriving DecidableEq, Repr

/-- The section a core starts next: the tick it belongs to, its place in the plan, slot, epoch, image address, whether
the plan asks for a reload (R38, R443). -/
structure NextSec where
  tick : Nat
  entry : Nat
  slot : Nat
  epoch : Nat
  deriving DecidableEq, Repr

/-- One core, at its logical index. Beside what its parts hold: `faulted` its section has raised a fault (R81);
`folds` the values folded in the tick (R266); `tickSeen` the last TICK received and `tickTaken` its number
in the region's multicasts; `cutDue` its commit cut is still to come (R57); `doneFor` the tick it is done with, `doneOut` its
CORE_DONEs that have reached the region controller (tick, HM_LAST, HM_LAST_FOLDS; R48); `abortTaken` the last abort of the region that
reached it; `writebacks`, `single`, `double` the words of its scratchpad with errors (R99); `heldArr` clasp arrivals held, each with the
tokens and signals that were issued before it (R107); `claspIn` clasp messages that have reached it, `ctrlOut` control messages that have
not entered the mesh; `dutyTaken` the number of the last FILLER_DUTY received (R366); `memWait` requests that wait for the share (R204);
`cycleBase` when its CYCLE count began; `live` its liveness word
(R398); `lost`, `gated` by its region controller (R401). -/
structure Core where
  regs : Regs
  sec : SecState
  secTick : Nat
  finalClasp : Nat
  finalDone : Bool
  faulted : Bool
  folds : Nat
  secSince : Nat
  next : Option NextSec
  tickSeen : Option Nat
  tickTaken : Nat
  cutDue : Bool
  doneFor : Option Nat
  doneOut : List (Nat × Nat × Nat)
  abortTaken : Nat
  epochTimer : Bool
  slots : Sparse Slot
  early : List Entry
  threads : Sparse Thread
  lastIssued : Nat
  gen : Nat
  cycleBase : Nat
  spad : Sparse Byte
  single : List Nat
  double : List Nat
  writebacks : List Nat
  bezels : Sparse Bezel
  shadows : Sparse Shadow
  bzOut : Sparse (List BzWrite)
  lane : Sparse (List LaneMsg)
  lastDir : Nat
  heldArr : List (Nat × Nat)
  eng : Engine
  comp : Comp
  dma : Dma
  router : Router
  queues : Sparse Queue
  routes : Sparse Nat
  hold : List Held
  clasps : Sparse Clasp
  claspIn : List ClaspMsg
  ctrlOut : List Ctrl
  balance : Nat
  memWait : List MReq
  fillerDuty : Nat
  dutyTaken : Nat
  live : Nat
  lost : Bool
  gated : Bool
  deriving DecidableEq, Repr

/-! ### What each part holds at reset, and where a sparse map lists nothing -/

/-- An OFF thread: every register zero (R64). -/
def Thread.reset : Thread :=
  { g := [], v := [], p := [], pc := 0, ec := 0, status := .off, sig := 0, fetchAddr := none, fetchBuf := 0,
    wait := .none, farLoad := none, farStores := 0, farHeld := 0, tags := [], atBreak := false }

/-- A CLOSED bezel that has never been opened (R109). -/
def Bezel.reset : Bezel :=
  { base := 0, length := 0, mask := 0, gen := 0, state := .closed, arrivals := 0, armed := false, afterN := 0,
    waiting := [], queued := [] }

/-- A neighbour's bezel as its own reset leaves it (log 8). -/
def Shadow.reset : Shadow := ⟨false, 0, 0⟩

/-- An unused queue. -/
def Queue.reset : Queue :=
  { base := 0, depth := 0, mode := 0, ncontrib := 0, gen := 0, closed := false, wr := 0, rdn := 0, slots := [], low := 0,
    arrivals := 0 }

/-- A core that is no node of a clasp; every last round is 3 (R228), read through the default of its map. -/
def Clasp.reset : Clasp :=
  { threads := 0, parent := 0, children := 0, valid := false, openRound := 0, thrArr := 0, childArr := 0, thrNext := 0,
    childNext := 0, last := [], lastPc := [], lastInsn := [], sent := false, overrun := false, early := [] }

/-- A cleared cell. -/
def Cell.reset : Cell := ⟨0, .finite, 0⟩

/-- An idle engine with cleared accumulators (R119). -/
def Engine.reset : Engine :=
  { queue := [], cells := [], kind := .none, kCount := 0, rmode := false, ovfIeee := false, owner := 0 }

/-- An empty area. -/
def Area.reset : Area := ⟨0, 0, 0, []⟩

/-- An idle compressor. -/
def Comp.reset : Comp :=
  { mode := 0, metaFull := false, rowBlocks := 0, val := .reset, info := .reset, l1 := .reset, row := .reset, elems := 0,
    blockBits := [], l1Bits := [], rowBlk := 0, rowCount := 0, rowNum := 0, stretchElems := 0, stretchNz := 0, hist := [] }

/-- An idle DMA engine. -/
def Dma.reset : Dma := { queue := [], nextTag := 0, doneTag := 0, stopped := false, ctx := none, turn := 0 }

/-- An EMPTY context slot. -/
def Slot.reset : Slot := { state := .empty, base := 0, image := [], failed := 0, failedVa := 0 }

/-- The end of a link that has carried nothing: its first SEQ is 0 (log 8). -/
def Link.reset : Link :=
  { nextSeq := 0, replay := [], flight := [], used := [], expect := 0, heard := false, ackDue := false, nakDue := false,
    nakSent := false, owed := [] }

/-- A router with empty buffers. -/
def Router.reset : Router := { inb := [], links := [], granted := [] }

/-- A core after reset: idle, every thread OFF, the scratchpad zero (R102). -/
def Core.reset : Core :=
  { regs := .reset, sec := .idle, secTick := 0, finalClasp := 0, finalDone := false, faulted := false, folds := 0, secSince := 0, next := none,
    tickSeen := none, tickTaken := 0, cutDue := false, doneFor := none, doneOut := [], abortTaken := 0,
    epochTimer := false, slots := [], early := [],
    threads := [], lastIssued := 0, gen := 0, cycleBase := 0, spad := [], single := [], double := [], writebacks := [],
    bezels := [], shadows := [], bzOut := [], lane := [], lastDir := 3, heldArr := [], eng := .reset, comp := .reset,
    dma := .reset, router := .reset, queues := [], routes := [], hold := [], clasps := [], claspIn := [], ctrlOut := [], balance := 0,
    memWait := [], fillerDuty := 0, dutyTaken := 0, live := 0, lost := false, gated := false }

end Sys2Proof.Machine
end

