-- ==== Sys2Proof/Machine/Geometry.lean ====
section
/-!
DEFINITION. The wafer's geometry (01): logical indices, regions, the row remap with its ABSENT positions, the hubs' edge
ports, and the two address spaces with the checks of their decoder.
-/
namespace Sys2Proof.Machine

/-- A physical core by region, row and physical column, as the defect list names it (R25). -/
structure Phys where
  region : Nat
  row : Nat
  col : Nat
  deriving DecidableEq, Repr

/-- The logical cores of the grid (R6). -/
def numCores : Nat := 290304
/-- Logical column of a core (R6). -/
def coreX (n : Nat) : Nat := n % 576
/-- Logical row of a core (R6). -/
def coreY (n : Nat) : Nat := n / 576
/-- Logical index of a position (R6). -/
def coreAt (x y : Nat) : Nat := y * 576 + x
/-- Region index of a core (R6). -/
def regionOf (n : Nat) : Nat := coreY n / 72 * 8 + coreX n / 72
/-- The core at local column `i` and row `j` of a region (R19). -/
def coreIn (r i j : Nat) : Nat := coreAt (r % 8 * 72 + i) (r / 8 * 72 + j)
/-- The cores of a region, in ascending logical index. -/
def coresOf (r : Nat) : List Nat := (List.range 72).flatMap fun j => (List.range 72).map fun i => coreIn r i j

/-! ### The row remap (R17, R18) -/

/-- The unusable physical columns of a row, ascending. -/
def unusableCols (ds : List Phys) (r j : Nat) : List Nat := (List.range 75).filter fun c => ds.contains ⟨r, j, c⟩

/-- The physical columns of a row that are not unusable, ascending. -/
def usableCols (ds : List Phys) (r j : Nat) : List Nat := (List.range 75).filter fun c => !ds.contains ⟨r, j, c⟩

/-- R18 on the logical columns `is`: each takes the next candidate if it lies within three columns, or is ABSENT. R17 is
the case of at most three unusable cores. -/
def mapCols : List Nat → List Nat → List (Option Nat)
  | [], _ => []
  | _ :: is, [] => none :: mapCols is []
  | i :: is, c :: cs => if c ≤ i + 3 then some c :: mapCols is cs else none :: mapCols is (c :: cs)

/-- The physical column of each logical column of a row; `none` where it is ABSENT. -/
def rowMap (ds : List Phys) (r j : Nat) : List (Option Nat) := mapCols (List.range 72) (usableCols ds r j)

/-- The physical column of a logical core under a remap. -/
def physCol (ds : List Phys) (n : Nat) : Option Nat :=
  if ds.isEmpty then some (coreX n % 72)
  else ((rowMap ds (regionOf n) (coreY n % 72))[coreX n % 72]?).getD none

/-- A logical position that holds no core (R18). -/
def absentIn (ds : List Phys) (n : Nat) : Bool := (physCol ds n).isNone

/-- A row with more than three unusable cores (R18). -/
def rowDegraded (ds : List Phys) (r j : Nat) : Bool := decide (3 < (unusableCols ds r j).length)

/-- The skipped columns of a row that is not degraded: the unusable ones and the highest of the others (R17). -/
def skippedCols (ds : List Phys) (r j : Nat) : List Nat :=
  let bad := unusableCols ds r j
  let keep := (usableCols ds r j).take 72
  (List.range 75).filter fun c => bad.contains c || !keep.contains c

/-- The word at +0x0 of a row's remap registers (R35). -/
def rowMapWord (ds : List Phys) (r j : Nat) : Nat :=
  let dead := (unusableCols ds r j).length
  if 3 < dead then 2 ^ 31 + dead * 2 ^ 24 + 0x7F * 2 ^ 16 + 0x7F * 2 ^ 8 + 0x7F
  else
    let sk := skippedCols ds r j
    dead * 2 ^ 24 + nth 0 sk 2 * 2 ^ 16 + nth 0 sk 1 * 2 ^ 8 + nth 0 sk 0

/-- One of the three dead-mask words of a row: columns 32m to 32m + 31 (R35). -/
def rowDeadMask (ds : List Phys) (r j m : Nat) : Nat :=
  (unusableCols ds r j).foldl (fun a c => if c / 32 = m then a + 2 ^ (c % 32) else a) 0

/-- ABSENT positions of a region. -/
def regionAbsent (ds : List Phys) (r : Nat) : Nat :=
  (List.range 72).foldl (fun a j =>
    if (unusableCols ds r j).length ≤ 3 then a else a + ((rowMap ds r j).filter Option.isNone).length) 0

/-- Whether a region has a ROW_DEGRADED row. -/
def regionDegraded (ds : List Phys) (r : Nat) : Bool := (List.range 72).any fun j => rowDegraded ds r j

/-- The logical core that sits at a physical core, if one does. -/
def logicalAt (ds : List Phys) (p : Phys) : Option Nat :=
  ((rowMap ds p.region p.row).findIdx? (· == some p.col)).map fun i => coreIn p.region i p.row

/-! ### Neighbours and edge ports (R21, R23, R24, R183) -/

/-- The logical neighbour in a direction: 0 N, 1 E, 2 S, 3 W; none at the grid's edge. -/
def gridNbr (n d : Nat) : Option Nat :=
  let x := coreX n
  let y := coreY n
  match d with
  | 0 => if y = 0 then none else some (n - 576)
  | 1 => if x = 575 then none else some (n + 1)
  | 2 => if y = 503 then none else some (n + 576)
  | _ => if x = 0 then none else some (n - 1)

/-- The neighbour in a direction, if it exists and is not ABSENT. -/
def nbrIn (ds : List Phys) (n d : Nat) : Option Nat :=
  match gridNbr n d with
  | some m => if absentIn ds m then none else some m
  | none => none

/-- The opposite direction. -/
def oppDir (d : Nat) : Nat := (d + 2) % 4

/-- The edge ports of a hub. -/
def edgePorts (h : Nat) : Nat := if h % 2 = 0 then 288 else 252

/-- The logical core that edge port `k` of hub `h` serves (R23). -/
def edgeCore (h k : Nat) : Nat :=
  match h with
  | 0 => coreAt (2 * k) 0
  | 1 => coreAt 575 (2 * k)
  | 2 => coreAt (2 * k + 1) 503
  | _ => coreAt 0 (2 * k + 1)

/-- The router port of an edge core that faces its hub: N, E, S or W. -/
def hubPort (h : Nat) : Nat := match h with | 0 => 1 | 1 => 2 | 2 => 3 | _ => 4

/-- Whether an edge port is enabled (R24). -/
def edgeEnabled (ds : List Phys) (h k : Nat) : Bool := !absentIn ds (edgeCore h k)

/-- The edge port of hub `h` for a source or destination (R183), the next enabled one where it is disabled (R24). -/
def edgePortFor (ds : List Phys) (h n : Nat) : Option Nat :=
  let k := if h % 2 = 0 then coreX n / 2 else coreY n / 2
  ((List.range (edgePorts h)).map fun i => (k + i) % edgePorts h).find? fun i => edgeEnabled ds h i

/-- The hub and edge port that a router's output faces, if it faces one (R23). -/
def hubFacing (n port : Nat) : Option (Nat × Nat) :=
  let x := coreX n
  let y := coreY n
  if port = 1 ∧ y = 0 ∧ x % 2 = 0 then some (0, x / 2)
  else if port = 2 ∧ x = 575 ∧ y % 2 = 0 then some (1, y / 2)
  else if port = 3 ∧ y = 503 ∧ x % 2 = 1 then some (2, x / 2)
  else if port = 4 ∧ x = 0 ∧ y % 2 = 1 then some (3, y / 2)
  else none

/-- Whether an input port faces a scribe line: its neighbour lies in another region (R173). -/
def facesScribe (n port : Nat) : Bool :=
  match gridNbr n (port - 1) with
  | some m => decide (port ≠ 0) && decide (regionOf m ≠ regionOf n)
  | none => false

/-- A vertical run along a column passes an ABSENT position (R27). -/
def vertCut (ds : List Phys) (x y0 y1 : Nat) : Bool :=
  !ds.isEmpty && decide (y0 ≠ y1) &&
    (List.range (max y0 y1 + 1 - min y0 y1)).any fun i => absentIn ds (coreAt x (min y0 y1 + i))

/-- The paths between a core and hub `h` are cut (R27, R183). -/
def hubCut (ds : List Phys) (h n : Nat) : Bool :=
  match edgePortFor ds h n with
  | none => true
  | some k =>
    let e := edgeCore h k
    vertCut ds (coreX e) (coreY n) (coreY e) || vertCut ds (coreX n) (coreY e) (coreY n)

/-- The core whose router the controller of a region attaches to (R182). -/
def controllerCore (r : Nat) : Nat := coreIn r 0 0

/-- The paths between a region controller and hub `h` are cut: its core (0, 0) is ABSENT, or a path is (R27). -/
def regionCut (ds : List Phys) (h r : Nat) : Bool := absentIn ds (controllerCore r) || hubCut ds h (controllerCore r)

/-- The path of a core to its region controller is cut (R27). -/
def coreCut (ds : List Phys) (n : Nat) : Bool :=
  let c := controllerCore (regionOf n)
  absentIn ds c || vertCut ds (coreX c) (coreY n) (coreY c)

/-! ### The address spaces (R28, R29, R33) -/

/-- Bytes of a core's scratchpad. -/
def spadSize : Nat := 0x28000
/-- Bytes of HBM (R28). -/
def hbmSize : Nat := 0xC000000000

/-- Who makes a device access: the REQ_CLASS of MOD_ADDR_FAULT. -/
inductive Requester where
  | core | host | mp | hubAgent
  deriving DecidableEq, Repr

/-- The code of a requester in REQ_CLASS. -/
def Requester.code : Requester → Nat
  | .core => 0 | .host => 1 | .mp => 2 | .hubAgent => 3

/-- The cause of a refused device access (R31), coded as in MOD_ADDR_FAULT. -/
inductive Cause where
  | unmapped | notHbm | notHalted | absent
  deriving DecidableEq, Repr

/-- The code of a cause in MOD_ADDR_FAULT. -/
def Cause.code : Cause → Nat
  | .unmapped => 0 | .notHbm => 1 | .notHalted => 2 | .absent => 3

/-- Where a device address leads (R28, R32). -/
inductive Place where
  | hbm (a : Nat)
  | spad (n off : Nat)
  | core (n off : Nat)
  | region (r off : Nat)
  | hub (h off : Nat)
  | md (off : Nat)
  | refuse (c : Cause)
  deriving DecidableEq, Repr

/-- The decoder of R32, with the checks in its order. -/
def decodeAddr (ds : List Phys) (halted : Bool) (req : Requester) (a : Nat) : Place :=
  if req = .core ∧ hbmSize ≤ a then .refuse .notHbm
  else if a < hbmSize then .hbm a
  else if 0x400000000000 ≤ a ∧ a ≤ 0x4011B7FFFFFF then
    let n := (a - 0x400000000000) / 0x40000
    let off := a % 0x40000
    if spadSize ≤ off then .refuse .unmapped
    else if absentIn ds n then .refuse .absent
    else if !halted then .refuse .notHalted
    else .spad n off
  else if 0x600000000000 ≤ a ∧ a ≤ 0x600046DFFFFF then
    let n := (a - 0x600000000000) / 0x1000
    if absentIn ds n then .refuse .absent else .core n (a % 0x1000)
  else if 0x700000000000 ≤ a ∧ a ≤ 0x7000037FFFFF then .region (a / 0x100000 % 64) (a % 0x100000)
  else if 0x7F0000000000 ≤ a ∧ a ≤ 0x7F0003FFFFFF then .hub (a / 0x1000000 % 4) (a % 0x1000000)
  else if 0x7FFF00000000 ≤ a ∧ a ≤ 0x7FFF0000FFFF then .md (a % 0x10000)
  else .refuse .unmapped

end Sys2Proof.Machine
end

