-- ==== Sys2Proof/Machine/HubTypes.lean ====
section
/-!
DEFINITION. The parts of the hubs and of the module as plain data: memory requests and translation (11), the tick unit and
the plan (02), and what the tick and the abort leave to report.
-/
namespace Sys2Proof.Machine

/-! ### Memory requests at a hub (R285, R289 to R293) -/

/-- A table walk in progress: its request; `old`: an invalidation began after it, so it fills no cache (R291). -/
structure Walk where
  req : MReq
  old : Bool
  deriving DecidableEq, Repr

/-- A translated request at its memory controller, with its physical address; `old` as for a walk (R291). -/
structure Ready where
  req : MReq
  pa : Nat
  old : Bool
  deriving DecidableEq, Repr

/-- A request held at a translation fault of a 64 KiB page: a core's, or a reduction slot's of this hub (R293, R295). -/
inductive HeldReq where
  | mreq (page : Nat) (q : MReq)
  | engine (page slot : Nat)
  deriving DecidableEq, Repr

/-- An entry of a hub's page cache: a 64 KiB page, or a 2 MiB page (`big`), the page's number, physical base and rights. -/
structure PageEnt where
  big : Bool
  vpage : Nat
  base : Nat
  w : Bool
  host : Bool
  deriving DecidableEq, Repr

/-- The kind of a translation fault, coded 1 to 3 in a fault record (R295). -/
inductive FaultKind where
  | notPresent | writeProtect | badEntry
  deriving DecidableEq, Repr

/-- The code of a kind (R295). -/
def FaultKind.code : FaultKind → Nat
  | .notPresent => 1 | .writeProtect => 2 | .badEntry => 3

/-- A pending fault of the MP's table (R293 to R295): its sequence, page, kind, level, the entry and where it stands, the
first waiter and its unit, the pool page being zeroed for it, whether the pool was empty, whether its record is posted. -/
structure PFault where
  seq : Nat
  page : Nat
  kind : FaultKind
  level : Nat
  entry : Nat
  entryAt : Nat
  first : Nat
  unit : Nat
  demand : Option Nat
  poolEmpty : Bool
  posted : Bool
  deriving DecidableEq, Repr

/-! ### Ticks, plans and aborts (02) -/

/-- A plan entry (R43). -/
structure PlanEntry where
  id : Nat
  epoch : Nat
  slot : Nat
  reload : Bool
  final : Nat
  x0 : Nat
  y0 : Nat
  x1 : Nat
  y1 : Nat
  ctx : Nat
  deriving DecidableEq, Repr

/-- A plan in force or waiting for its cut: where it was read, its entries (R43, R59), and the value PROG_HASH takes when it
commits (R423). -/
structure Plan where
  base : Nat
  entries : List PlanEntry
  hash : List Byte
  deriving DecidableEq, Repr

/-- An abort in progress (R51, R52): the regions that have not yet applied it or reported it, whether RUN_STATE was
PREEMPTING, whether a cause halts the module, whether a PREEMPT is held. -/
structure Abort where
  unreported : List Nat
  preempting : Bool
  halts : Bool
  heldPreempt : Bool
  deriving DecidableEq, Repr

/-- A tick that has been distributed and is not locally complete (R48): the regions whose REGION_DONE H0 holds, with their
hallmarks, and the causes of its abort, the first first. -/
structure ActTick where
  tick : Nat
  done : List Nat
  hallmarks : Sparse Nat
  causes : List AbortMsg
  deriving DecidableEq, Repr

/-- The tick unit of H0 (R46 to R52, R59, R61, R274): the plan in force, the base of one whose check runs, one that waits
for its cut; whether a program is loaded; the next expected tick and the tick a START resumes; TICKs held (R47, R52);
whether the module is HALTED at a stop, or halts at one when the abort in progress ends; the ticks in progress, the oldest
first (R49); the abort in progress; SECTION_ABORTs on their way to H0. -/
structure TickUnit where
  plan : Option Plan
  checking : Option Nat
  ready : Option Plan
  loaded : Bool
  expected : Nat
  resume : Nat
  held : List TickMsg
  stopped : Bool
  active : List ActTick
  abort : Option Abort
  inbox : List AbortMsg
  deriving DecidableEq, Repr

/-- An entry of the defect list (R383): the core, its cause, and bits 15:0 of BOOT_COUNT when it was appended. -/
structure Defect where
  core : Phys
  cause : Nat
  boot : Nat
  deriving DecidableEq, Repr

/-- A record of the MP log (R379); its slot is SEQ mod 1,024. -/
structure LogRec where
  seq : Nat
  kind : Nat
  code : Nat
  result : Nat
  level : Nat
  tick : Nat
  index : Nat
  detail : Nat
  deriving DecidableEq, Repr

end Sys2Proof.Machine
end

