-- ==== Sys2Proof/Machine/NetTypes.lean ====
section
/-!
DEFINITION. The reduction engines (09), the transport and the host bridge (12) as plain data.
-/
namespace Sys2Proof.Machine

/-! ### Reduction (09) -/

/-- A lane of an AIR block: its state (R244: 0 FINITE, 1 POS_INF, 2 NEG_INF, 3 NAN) and its exact sum (R234, R235). -/
structure AirLane where
  st : Nat
  sum : Int
  deriving DecidableEq, Repr

/-- A job descriptor (R237), with its member table: shard starts and nodes. -/
structure Job where
  jobId : Nat
  gather : Bool
  gen : Nat
  w48 : Bool
  inBf : Bool
  outBf : Bool
  thin : Bool
  pingpong : Bool
  thinK : Nat
  nlocal : Nat
  checkLog2 : Nat
  members : Nat
  self : Nat
  blocks : Nat
  total : Nat
  firstRound : Nat
  lease : Nat
  contrib : Nat
  stride : Nat
  out : Nat
  resid : Nat
  pp : Nat
  checkCore : Nat
  checkQ : Nat
  doneQ : Nat
  doneThread : Nat
  doneCore : Nat
  starts : List Nat
  nodes : List Nat
  deriving DecidableEq, Repr

/-- A record of a REDUCE message (R244): its kind, ROUND, member, COUNT, FIRST and body. -/
structure RedRec where
  kind : Nat
  flags : Nat
  round : Nat
  member : Nat
  count : Nat
  first : Nat
  body : List Byte
  deriving DecidableEq, Repr

/-- A slot with a job (R238 to R243): whether a round runs and whether it is ABORTED; the expected round; the local
exponents, those received for own blocks by member, and the block exponents; the own partials still needed for thinning and
residuals; the partials received for own blocks by member, and their sums; own blocks written (GATHER: others' granules),
blocks sent, messages not acknowledged; residuals or gathered granules to write, residuals written; the sampled checks under
way by block (their number k, tokens back by t), the next k and the tokens returned since LOAD; records of the next round held
apart. -/
structure RedSlot where
  job : Job
  running : Bool
  aborted : Bool
  round : Nat
  eloc : Sparse Int
  exps : Sparse (Sparse Int)
  eblk : Sparse Int
  own : Sparse (List AirLane)
  parts : Sparse (Sparse (List AirLane))
  sums : Sparse (List AirLane)
  written : List Nat
  sent : List Nat
  unacked : Nat
  due : Sparse (List Byte)
  residDone : List Nat
  checks : Sparse (Nat × Sparse Row)
  nextCheck : Nat
  returned : Nat
  apart : List RedRec
  deriving DecidableEq, Repr

/-! ### Transport (12) -/

/-- A sequenced message of Ryudon (R317): its type, job and generation (REDUCE), body, and for REDUCE the slot whose round
counts it. -/
structure TxMsg where
  typ : Nat
  jobId : Nat
  jobGen : Nat
  body : List Byte
  slot : Option Nat
  deriving DecidableEq, Repr

/-- A packet a flow holds until it is acknowledged (R323): its SEQ and message, and how often its port has re-sent it. -/
structure TxPkt where
  seq : Nat
  msg : TxMsg
  resent : Nat
  deriving DecidableEq, Repr

/-- A sending flow of a hub to a node (R319, R323, R325): its port, next SEQ, unacknowledged packets and messages that wait
for the window, the ports on which RETX_LIMIT was reached, the rate (Gb/s) and alpha, when it was last cut and marked, and the
generation of the peer's hub that its last ACK or NAK carried (R324). -/
structure TxFlow where
  node : Nat
  flow : Nat
  port : Nat
  nextSeq : Nat
  unacked : List TxPkt
  queue : List TxMsg
  tried : List Nat
  rate : Rat
  alpha : Rat
  cut : Nat
  mark : Nat
  peerGen : Option Nat
  deriving DecidableEq, Repr

/-- A packet of which a receiving flow holds blocks (R321): header fields, LEN, the blocks present and their bytes. -/
structure RxPkt where
  typ : Nat
  jobId : Nat
  jobGen : Nat
  len : Nat
  mask : Nat
  blocks : Sparse (List Byte)
  badCrc : Bool
  deriving DecidableEq, Repr

/-- A receiving flow (R321, R322, R324): the sender's node and generation, the expected SEQ, the packets held, packets and CE
marks since the last ACK, packets named in a NAK in this ACK_DELAY, and the port of its last packet. -/
structure RxFlow where
  node : Nat
  flow : Nat
  gen : Nat
  expect : Nat
  held : Sparse RxPkt
  since : Nat
  ce : Nat
  naked : List Nat
  port : Nat
  deriving DecidableEq, Repr

/-- A message delivered to its consumer at a hub: the port and node it came from, its flow, type, job and body. -/
structure RxMsg where
  port : Nat
  node : Nat
  flow : Nat
  typ : Nat
  jobId : Nat
  jobGen : Nat
  body : List Byte
  deriving DecidableEq, Repr

/-- A host request of a bridge queue pair not yet acknowledged (R337): its first and its last PSN so far, whether it is a READ,
whether it is complete, a READ's data so far, the NAK that it ends in (syndrome and PSN), the member's node if it is not carried out
here. -/
structure QpReq where
  psn : Nat
  last : Nat
  read : Bool
  complete : Bool
  data : List Byte
  nak : Option (Nat × Nat)
  node : Option Nat
  deriving DecidableEq, Repr

/-- A queue pair in use (R334 to R338): RQ_PSN of its entry when it began, the next expected PSN, the WRITE under way (address,
bytes left, member), the SEND under way (its bytes), the requests not yet acknowledged, the message count, when the last CNP was sent,
the rate of its READ responses with its alpha and times (R334, R325). A member uses `send` alone, for SENDs that the bridge forwards. -/
structure Qp where
  start : Nat
  psn : Nat
  write : Option (Nat × Nat × Nat)
  send : Option (List Byte)
  reqs : List QpReq
  msn : Nat
  cnpAt : Option Nat
  rate : Rat
  alpha : Rat
  cut : Nat
  mark : Nat
  deriving DecidableEq, Repr

/-- A ring notice that the host has not taken (R343): queue pair, immediate, when it was first sent, whether the host answered RNR. -/
structure Notice where
  qp : Nat
  imm : Nat
  since : Nat
  rnr : Bool
  deriving DecidableEq, Repr

end Sys2Proof.Machine
end

