-- ==== Sys2Proof/Machine/MpTypes.lean ====
section
/-!
DEFINITION. Clocks, power and temperature (13), bring-up and resets (14), security (15) and the power input (16) as plain
data: what they hold beside their registers.
-/
namespace Sys2Proof.Machine

/-- The module's part of clocks and power. `doms`, `domWait`: the state of each domain, coded as in DOM_STATE, and the requests
that wait for prerequisites or dependants (R356 to R359); `rails`: the last five 1 µs averages of each rail, newest first, in mA
and mW, `pin` those of the input power (R361, R363); `overUs`, `underUs`: µs for which the input power was above the cap with every
region at its floor, and at 95% of it or less; `vmHold`: µs for which VM_h must still go without a breach; `capMilli`: CAP_EFF in mW (R364);
`srcTarget`, `srcNext`: the source of the change under way, and of a further one (R354); `refLost`: no reference edges (R438);
`hAge`: µs since the last step of each hub's HCLK (R352). -/
structure Power where
  doms : Sparse Nat
  domWait : List (Nat × Bool)
  rails : Sparse (List (Nat × Nat))
  pin : List Nat
  overUs : Nat
  underUs : Nat
  vmHold : Sparse Nat
  capMilli : Nat
  srcTarget : Nat
  srcNext : Option Nat
  refLost : Bool
  hAge : Sparse Nat
  deriving DecidableEq, Repr

/-- A region's part of clocks and power. `cAge`, `mAge`, `limitAge`: µs since the last step of CCLK, of MCLK and of LIMIT_D;
`calm`: µs since the last breach, `byShare`: it was of the region's share (R362); `parkC`, `parkM`: its park dividers, 0 outside a
source change; `cT`, `mT`: the targets acted on, `deferC`: CCLK waits for MCLK's ramp (R351); `window`: the 1 µs averages in
P_ref's window in mW, newest first, `pref`: P_ref, `fillAge`: µs since filler engaged (R365); `cut`: the duty is 0 since a breach (R366);
`eclPhase`: 1 entering, 2 leaving an eclipse (R371); `sscDepth`, `sscRate`: the depth in 0.1% and the rate in kHz of the spread in force,
0 and 0 where it is off, `sscAge`: µs since the depth last moved (R355). -/
structure RegPower where
  cAge : Nat
  mAge : Nat
  limitAge : Nat
  calm : Nat
  byShare : Bool
  parkC : Nat
  parkM : Nat
  cT : Nat
  mT : Nat
  deferC : Bool
  window : List Nat
  pref : Rat
  fillAge : Nat
  cut : Bool
  eclPhase : Nat
  sscDepth : Nat
  sscRate : Nat
  sscAge : Nat
  deriving DecidableEq, Repr

/-- The power input (R432 to R434): how far the start has come (0 off, 1 island up, 2 inrush, 3 power good), whether a power fail
runs; µs for which the input was below 46 V, above 56 V, below 44 V, above 58 V and above 640 A; the last five samples of voltage
and current, newest first; the contacts at 105 °C or more, and whether the inlet was at 40.5 °C or more, at the last sample. -/
structure Input where
  start : Nat
  failing : Bool
  uv : Nat
  ov : Nat
  uvFail : Nat
  ovFail : Nat
  oc : Nat
  volts : List Nat
  amps : List Nat
  hotPairs : List Nat
  hotInlet : Bool
  deriving DecidableEq, Repr

/-- An update under way (R418): its command, and its staged bytes. -/
structure Update where
  cmd : Nat
  bytes : List Byte
  deriving DecidableEq, Repr

/-- A debug submission being checked (R425): the response buffer, the nonce, and whether that was unused and less than 60 s old. -/
structure Submission where
  buf : List Byte
  nonce : List Byte
  fresh : Bool
  deriving DecidableEq, Repr

/-- Identity, debug access and calibration (15). `flash`: the serial flash, erased bytes being 0xFF (R413); `rollback`, `owners`,
`revoked`: the fuses that can be programmed (R412); `pub`: the derived public key; `ucal`: user
entries in force (class, index, offset; R426); `priv`: the signet's private key in the signing unit (R419); `body`, `entry`: the body of the
image in MP memory, and where the MP started in it (R415); `resp`: the response buffer, `submission`: the one being checked; `nonce`: the nonce
may still be used, `nonceAt` when it was drawn; `waitUntil`: when the next challenge is accepted (R425); `update`: the flash update
under way; `commit`: a ROLLBACK_COMMIT is programming fuses; `report`: the attestation report under way: its address, its bytes 0x000 to 0x0FF. -/
structure Sec where
  flash : Sparse Byte
  rollback : Nat
  owners : Sparse (List Byte)
  revoked : Nat
  pub : List Byte
  priv : List Byte
  body : List Byte
  entry : Option Nat
  ucal : List (Nat × Nat × Int)
  resp : Sparse Byte
  submission : Option Submission
  nonce : Bool
  nonceAt : Nat
  waitUntil : Nat
  update : Option Update
  commit : Bool
  report : Option (Nat × List Byte)
  deriving DecidableEq, Repr

/-- Bring-up and resets (14). `exp`, `disc`: the expected and the discovered topology (R389); `greeted`: ports whose HELLO_ACK has
come; `retired`: cores that the last vote retired, with their cause, and that stage 6 or a SCAN appends; `held`: cores and regions in
reset until their release (R394), as domain (0 core, 1 region) and index; `heard`: the µs stamp of a region's reset for a lost
controller (R399), `dead`: the module becomes FAILED at the end of the tick; `scan`: a SCAN runs; `cold`: the power-up's bring-up is the last one
begun. -/
structure Boot where
  exp : Sparse Byte
  disc : Sparse Byte
  greeted : List Nat
  retired : List (Phys × Nat)
  held : List (Nat × Nat)
  heard : Sparse Nat
  dead : Bool
  scan : Bool
  cold : Bool
  deriving DecidableEq, Repr

/-- Clocks and power after power-on. -/
def Power.reset : Power :=
  { doms := [], domWait := [], rails := [], pin := [], overUs := 0, underUs := 0, vmHold := [], capMilli := 27000000, srcTarget := 0,
    srcNext := none, refLost := false, hAge := [] }
/-- A region's after power-on. -/
def RegPower.reset : RegPower :=
  { cAge := 0, mAge := 0, limitAge := 0, calm := 0, byShare := false, parkC := 0, parkM := 0, cT := 64, mT := 64, deferC := false,
    window := [], pref := 0, fillAge := 0, cut := false, eclPhase := 0, sscDepth := 0, sscRate := 0, sscAge := 0 }
/-- The input before the feed is on. -/
def Input.reset : Input :=
  { start := 0, failing := false, uv := 0, ov := 0, uvFail := 0, ovFail := 0, oc := 0, volts := [], amps := [], hotPairs := [],
    hotInlet := false }
/-- The header of the defect list area: MAGIC 0x4C464544 and VERSION 1; its zero bytes are listed too, for an erased byte is 0xFF (R383). -/
def defectHeader : List Byte := [0x44, 0x45, 0x46, 0x4C, 1, 0, 0, 0, 0, 0, 0, 0, 0, 0, 0, 0]
/-- A flash that is erased but for the header of an empty defect list, and fuses of which none is set (log 18). -/
def Sec.reset : Sec :=
  { flash := defectHeader.mapIdx fun i b => (0x4000000 + i, b), rollback := 0, owners := [], revoked := 0, pub := [], priv := [], body := [],
    entry := none, ucal := [], resp := [], submission := none,
    nonce := false, nonceAt := 0, waitUntil := 0, update := none, commit := false, report := none }
/-- Nothing discovered, expected or held. -/
def Boot.reset : Boot :=
  { exp := [], disc := [], greeted := [], retired := [], held := [], heard := [], dead := false, scan := false,
    cold := true }

end Sys2Proof.Machine
end

