-- ==== Sys2Proof/Machine/State.lean ====
section
/-!
DEFINITION. The state of the module as plain data, what it sends out, why it stops, and the state after power-on.
-/
namespace Sys2Proof.Machine

/-- The end of a link that receives: a router's input port, or a hub's edge port. -/
inductive LinkEnd where
  | core (n port : Nat)
  | hub (h k : Nat)
  deriving DecidableEq, Repr

/-- A UDP datagram sent from a port (R311 to R316): the MAC address it goes to, the port's and the destination's addresses, UDP
ports, DSCP, ECN codepoint, VLAN tag, payload. -/
structure Datagram where
  port : Nat
  mac : Nat
  v4 : Bool
  src : List Byte
  dst : List Byte
  srcPort : Nat
  dstPort : Nat
  dscp : Nat
  ecn : Nat
  vlan : Option (Nat × Nat)
  payload : List Byte
  deriving DecidableEq, Repr

/-- Where the bridge sends the RoCEv2 packets of a queue pair (R311, R334, R335): its host port and the MAC address, IPv4 or IPv6, the
host's address, the destination and the source QPN. -/
structure RoceTo where
  port : Nat
  mac : Nat
  v4 : Bool
  addr : List Byte
  qpn : Nat
  own : Nat
  deriving DecidableEq, Repr

/-- The status that the MP gets at once for an access of its own where it is not carried out (R31, R60). -/
inductive MpStatus where
  | busy | refused | uncorrectable
  deriving DecidableEq, Repr

/-- What the module sends out or answers. -/
inductive Output where
  /-- The status of an access of the MP. -/
  | mpStatus (v : MpStatus)
  /-- A Ryudon packet. -/
  | ryudon (d : Datagram)
  /-- A port's answer to an ARP request or a neighbour solicitation for its own address (R311): the port, the MAC address the
  frame goes to, whether it is IPv4, the requester's hardware and protocol addresses. -/
  | addressReply (port mac : Nat) (v4 : Bool) (toMac : Nat) (toAddr : List Byte)
  /-- A zero-length RDMA WRITE with immediate that the bridge sends on a queue pair (R343). -/
  | notice (dest : RoceTo) (imm : Nat)
  /-- The data of a register read by a requester. -/
  | readData (v : Nat)
  /-- An acknowledgement or NAK of the bridge to the host of a queue pair (R336, R337): the PSN, the AETH syndrome, the message count. -/
  | roceAck (dest : RoceTo) (psn syndrome msn : Nat)
  /-- A READ response packet: whether it is the first and the last of its request, the message count, its bytes (R337). -/
  | roceRead (dest : RoceTo) (psn : Nat) (first last : Bool) (msn : Nat) (b : List Byte)
  /-- A congestion notification to the host of a queue pair (R334). -/
  | cnp (dest : RoceTo)
  /-- A vendor-defined message of the management interface (R440). -/
  | mctp (b : List Byte)
  /-- The answer to an MCTP control message, laid out by DSP0236 (R440, log 32). -/
  | mctpControl (request : List Byte)
  /-- The answer to the SMBus Alert Response Address (R439). -/
  | alertAddress (a : Nat)
  deriving DecidableEq, Repr

/-- The done notices of a tick that a region counts: the cores that send none (ABSENT or lost), the notices received, and the
sum of their hallmarks (R48, R269, R401). -/
structure RegDone where
  tick : Nat
  silent : Nat
  got : Nat
  sum : Nat
  deriving DecidableEq, Repr

/-- A region controller (01, 02, 07, 08, 10, 13, 14). `sunk`, `lateSeen`, `bzClosedSeen`, `chanClosedSeen`: what it reports
at tick end (R54, R111, R193); `snapLeft`, `snapHead`: the writes of its snapshot not yet acknowledged and the header that
follows (R197); `replies`: memory replies on their way to it; `idleShare`: the share balance of a core not listed (R204);
`tickIn`, `ticks`, `tickCount`: TICKs that have come from H0, its multicasts still wanted by a core, and how many it made (R48); `tickNow`:
the last TICK it accepted; `dones`: the done notices it counts (R48, R269); `doneOut`: its REGION_DONEs that have reached H0; `abortIn`:
SECTION_ABORT from H0 has reached it; `abortSerial`: how many it applied; `ctrlOut`, `memOut`: its control messages and memory requests that
have not entered the mesh (R182); `ctrlGen`: how often it was restarted or released from reset, which messages to it carry (R393);
`failed`: its controller is lost (R399); `boost`, `boostIn`: BOOST in force at its cores and values received (R205); `duties`, `dutySent`:
its FILLER_DUTY messages with their numbers, and how many it made (R366);
`pw`: its clocks and power; `live`: each core's liveness word as last read and for how many readings it has stood (R398);
`stopWait`: the core whose STOP over the service ring is not acknowledged (R396); `coreGen`: CORE_GEN of the cores not listed. -/
structure Region where
  regs : Regs
  sunk : Nat
  lateSeen : Bool
  bzClosedSeen : Bool
  chanClosedSeen : Bool
  snapLeft : Nat
  snapHead : Option Row
  replies : List (MReq × Reply)
  ctrlOut : List Ctrl
  memOut : List MReq
  ctrlGen : Nat
  duties : List (Nat × Ctrl)
  dutySent : Nat
  idleShare : Nat
  tickIn : List TickMsg
  ticks : List TickMsg
  tickCount : Nat
  tickNow : Option Nat
  dones : List RegDone
  doneOut : List (Nat × Nat)
  abortIn : Bool
  abortSerial : Nat
  failed : Bool
  boost : Nat
  boostIn : List Nat
  pw : RegPower
  live : Sparse (Nat × Nat)
  stopWait : Option Nat
  coreGen : Nat
  deriving DecidableEq, Repr

/-- A post to a message ring that waits for room (R342): a message with its ring and TAG, or the record of a translation
fault, which is formed when it is posted (R295). -/
inductive RingPost where
  | msg (ring tag : Nat) (body : List Byte)
  | fault (index : Nat)
  deriving DecidableEq, Repr

/-- A hub (07, 11, 12). `edgeIn`, `edgeOut`: by edge port, the blocks it has received and those that wait to be sent (R183);
`walks`, `ready`, `held`, `cache`, `walkCache`: memory requests before, at and held by translation,
its page cache, and its walk cache from VA[47:21] to an L3 entry (R285, R289 to R293); `tx`, `rx`: its sending and receiving
flows (R319 to R325); `msgs`: delivered messages not yet consumed; `mgmtWait`: MGMT posts that wait for room (R331);
`txWait`: messages that wait for a free flow context (R321);
`peerGen`: by node, the generation that PEER_RESET told to expect of its hub (R407);
`scrub`: how many blocks of each stack the patrol scrub has passed in this pass, `training`: the channel of each stack in
training, plus 1 (R286). -/
structure Hub where
  regs : Regs
  edgeIn : Sparse (List Payload)
  edgeOut : Sparse (List Payload)
  links : Sparse Link
  cache : List PageEnt
  walks : List Walk
  ready : List Ready
  held : List HeldReq
  walkCache : List (Nat × Nat)
  tx : List TxFlow
  rx : List RxFlow
  msgs : List RxMsg
  mgmtWait : List RingPost
  txWait : List (Nat × Nat × TxMsg)
  peerGen : Sparse Nat
  scrub : Sparse Nat
  training : Sparse Nat
  deriving DecidableEq, Repr

/-- The module level: H0's units and the MP. `defects`: the MP's list of unusable cores, those of the flash and those
whose append failed (R377); `remap`: the defect list in force (R25); `tu`: the
tick unit; `faults`, `faultSeq`: the MP's table of pending translation faults and the uses of its entries (R293); `inv`: the
range of an invalidation in progress (R291); `ringWait`: the MP's posts that wait (R342); `log`: the MP log by slot (R379); `slots`:
the job slots of the reduction engines (R238), `jobCheck`: the slot whose LOAD is being checked; `reports`, `missing`: the
(tick, member) pairs of the reports the master accepted in this run and of the MISSING_REPORT events it posted (R329); `reportDue`: the
ticks whose own report's window has not ended, the oldest first, with whether an ACK for a copy is held (R330); `reportAt`: by tick, the
local completion of a report that is still sent (R328); `qps`: the bridge's queue pairs
(R334); `notices`: ring notices that the host has not taken (R343);
`lostMembers`: members declared lost, whose reports the master takes as delivered (R408);
`fmStatus`, `fmReset`: the latest bodies of those messages (R405); `pw`, `input`, `sec`, `boot`: see their types. -/
structure Module where
  regs : Regs
  defects : List Defect
  remap : List Phys
  tu : TickUnit
  faults : Sparse PFault
  faultSeq : Sparse Nat
  inv : Option (Nat × Nat)
  ringWait : List RingPost
  log : Sparse LogRec
  slots : Sparse RedSlot
  jobCheck : Option Nat
  reports : List (Nat × Nat)
  missing : List (Nat × Nat)
  reportDue : List (Nat × Bool)
  reportAt : Sparse Nat
  qps : Sparse Qp
  notices : List Notice
  lostMembers : List Nat
  fmStatus : List Byte
  fmReset : List Byte
  pw : Power
  input : Input
  sec : Sec
  boot : Boot
  deriving DecidableEq, Repr

/-- The machine. `now`: CCLK since power-on; `hbm`: its bytes; `hbmFail`: by block, how many of its next reads fail
(R283); `hbmCrc`: by block, the difference of the block CRC stored with it from the one its contents have (R282);
`freeCount`: what a fresh free value reads (log 3); `outbox`: what it has sent. -/
structure State where
  pending : List Instr
  now : Nat
  md : Module
  regions : Sparse Region
  cores : Sparse Core
  hubs : Sparse Hub
  hbm : Sparse Byte
  hbmFail : Sparse Nat
  hbmCrc : Sparse Nat
  freeCount : Nat
  outbox : List Output
  deriving DecidableEq, Repr

/-- Why the machine stops: what the spec calls a fault is recorded in the state. -/
inductive Fault where
  /-- Raised by no command; safe. -/
  | none
  deriving DecidableEq, Repr

/-- Why a command is refused. -/
inductive Refusal where
  /-- Raised by the arm of a command without a meaning; safe. -/
  | notModelled (mnemonic : String)
  /-- Raised by JTAG_INSTRUCTION and MP_DEBUG_PORT_INPUT while debug access is open, for what a debugger does is not in the spec (R424,
  log 73); safe. -/
  | debugAccess
  deriving DecidableEq, Repr

/-- A region controller after power-on. -/
def Region.reset : Region :=
  { regs := .reset, sunk := 0, lateSeen := false, bzClosedSeen := false, chanClosedSeen := false, snapLeft := 0,
    snapHead := none, replies := [], ctrlOut := [], memOut := [], ctrlGen := 0, duties := [], dutySent := 0,
    idleShare := 0, tickIn := [], ticks := [], tickCount := 0, tickNow := none, dones := [], doneOut := [],
    abortIn := false, abortSerial := 0, failed := false, boost := 16, boostIn := [], pw := .reset, live := [], stopWait := none, coreGen := 0 }

/-- A hub after power-on. -/
def Hub.reset : Hub :=
  { regs := .reset, edgeIn := [], edgeOut := [], links := [], cache := [], walks := [], ready := [], held := [],
    walkCache := [], tx := [], rx := [], msgs := [], mgmtWait := [], txWait := [], peerGen := [], scrub := [], training := [] }

/-- The tick unit after power-on: no program. -/
def TickUnit.reset : TickUnit :=
  { plan := none, checking := none, ready := none, loaded := false, expected := 0, resume := 0, held := [],
    stopped := false, active := [], abort := none, inbox := [] }

/-- SHAKE256 of no bytes, in words: DEFECT_HASH of an empty defect list (R385). -/
def emptyHash : List Nat :=
  [0x2BDDB946, 0x138DA80B, 0xEB3F3B23, 0x24EB3E74, 0xEA52CD3F, 0x821BB862, 0x64270CB5, 0x2F76D56E]

/-- The module's registers after power-on. REF_SETTLE_US and DEFECT_HASH come from flash, whose erased state gives 100,000 and an
empty defect list (R385, R413, log 18). -/
def moduleRegs : Regs :=
  (Regs.reset.wr MR.REF_SETTLE_US 100000).wrs (emptyHash.mapIdx fun i v => (MR.DEFECT_HASH.at (4 * i), v))

/-- The module level after power-on. -/
def Module.reset : Module :=
  { regs := moduleRegs, defects := [], remap := [], tu := .reset, faults := [], faultSeq := [], inv := none, ringWait := [],
    log := [], slots := [], jobCheck := none, reports := [], missing := [], reportDue := [], reportAt := [], qps := [],
    notices := [], lostMembers := [],
    fmStatus := [], fmReset := [], pw := .reset, input := .reset, sec := .reset, boot := .reset }

/-- The machine after power-on. -/
def State.reset : State :=
  { pending := [], now := 0, md := .reset, regions := [], cores := [], hubs := [], hbm := [], hbmFail := [], hbmCrc := [],
    freeCount := 0, outbox := [] }

end Sys2Proof.Machine
end

