-- ==== Sys2Proof/Machine/Ops.lean ====
section
/-!
DEFINITION. The named operations over the state that the families share: units and registers by index, thread
registers, the scratchpad with its error code (R99, R100), core fault records (R81) and the start of an abort (R51).
-/
namespace Sys2Proof.Machine

/-- What a command answers. -/
abbrev Out := Host.Outcome State Fault Refusal

/-! ### Units of the state -/

/-- How often the region of a core has been reset: the generation of a core not listed, and of its queues, bezels and clasps. -/
def State.restGen (s : State) (n : Nat) : Nat := (Sparse.get .reset s.regions (regionOf n)).coreGen

/-- What a core not listed knows of its neighbours' bezels: closed, each with the generation of a neighbour not listed. -/
def State.restShadows (s : State) (n : Nat) : Sparse Shadow :=
  (List.range 4).flatMap fun d =>
    match gridNbr n d with
    | none => []
    | some m => if s.restGen m = 0 then [] else (List.range 8).map fun b => (8 * d + b, ⟨false, s.restGen m, 0⟩)

/-- A core not listed: as its reset leaves it, with the share that every such core of its region has, every abort of the region
behind it, and the generations that its region's resets left it (R391). -/
def State.resting (s : State) (n : Nat) : Core :=
  let g := Sparse.get .reset s.regions (regionOf n)
  let k := g.coreGen
  { Core.reset with
    balance := g.idleShare
    abortTaken := g.abortSerial
    gen := k
    shadows := s.restShadows n
    regs := if k = 0 then .reset else Regs.reset.wr CR.CLASP_GEN k
    queues := if k = 0 then [] else (List.range 32).map fun q => (q, { Queue.reset with gen := k })
    bezels := if k = 0 then [] else (List.range 8).map fun b => (b, { Bezel.reset with gen := k }) }

/-- Core `n`. -/
def State.core (s : State) (n : Nat) : Core := Sparse.get (s.resting n) s.cores n
/-- Core `n` put back. -/
def State.setCore (s : State) (n : Nat) (c : Core) : State := { s with cores := Sparse.put s.cores n c }
/-- Core `n` changed. -/
def State.updCore (s : State) (n : Nat) (f : Core → Core) : State := s.setCore n (f (s.core n))
/-- Region controller `r`. -/
def State.region (s : State) (r : Nat) : Region := Sparse.get .reset s.regions r
/-- Region controller `r` changed. -/
def State.updRegion (s : State) (r : Nat) (f : Region → Region) : State :=
  { s with regions := Sparse.put s.regions r (f (s.region r)) }
/-- Hub `h`. -/
def State.hub (s : State) (h : Nat) : Hub := Sparse.get .reset s.hubs h
/-- Hub `h` changed. -/
def State.updHub (s : State) (h : Nat) (f : Hub → Hub) : State := { s with hubs := Sparse.put s.hubs h (f (s.hub h)) }
/-- The module's part of the state changed. -/
def State.updMd (s : State) (f : Module → Module) : State := { s with md := f s.md }

/-- A module register. -/
def State.rd (s : State) (f : Fld) : Nat := s.md.regs.rd f
/-- A module register written. -/
def State.wr (s : State) (f : Fld) (v : Nat) : State := s.updMd fun m => { m with regs := m.regs.wr f v }
/-- Several module registers written. -/
def State.wrs (s : State) (l : List (Fld × Nat)) : State := s.updMd fun m => { m with regs := m.regs.wrs l }
/-- A module counter. -/
def State.count (s : State) (f : Fld) : State := s.updMd fun m => { m with regs := m.regs.count f 1 }
/-- A region register. -/
def Region.rd (r : Region) (f : Fld) : Nat := r.regs.rd f
/-- A region register written. -/
def Region.wr (r : Region) (f : Fld) (v : Nat) : Region := { r with regs := r.regs.wr f v }
/-- A hub register. -/
def Hub.rd (h : Hub) (f : Fld) : Nat := h.regs.rd f
/-- A hub register written. -/
def Hub.wr (h : Hub) (f : Fld) (v : Nat) : Hub := { h with regs := h.regs.wr f v }
/-- A core register. -/
def Core.rd (c : Core) (f : Fld) : Nat := c.regs.rd f
/-- A core register written. -/
def Core.wr (c : Core) (f : Fld) (v : Nat) : Core := { c with regs := c.regs.wr f v }
/-- Several core registers written. -/
def Core.wrs (c : Core) (l : List (Fld × Nat)) : Core := { c with regs := c.regs.wrs l }
/-- Several region registers written. -/
def Region.wrs (r : Region) (l : List (Fld × Nat)) : Region := { r with regs := r.regs.wrs l }
/-- Several hub registers written. -/
def Hub.wrs (h : Hub) (l : List (Fld × Nat)) : Hub := { h with regs := h.regs.wrs l }
/-- A core counter without a flag. -/
def Core.count (c : Core) (f : Fld) (k : Nat) : Core := { c with regs := c.regs.count f k }
/-- A core counter with its sticky flag (R14). -/
def Core.countSat (c : Core) (f flag : Fld) (k : Nat) : Core :=
  if k = 0 then c else { c with regs := c.regs.countSat f flag k }

/-- Something the module sends or answers. -/
def State.emit (s : State) (o : Output) : State := { s with outbox := s.outbox ++ [o] }

/-- A free value: a fresh one each time, from the counter of the state (log 3). -/
def State.fresh (s : State) (w : Nat) : BitVec w × State :=
  (Config.freeValue w s.freeCount, { s with freeCount := s.freeCount + 1 })

/-! ### Threads -/

/-- Thread `t`. -/
def Core.thread (c : Core) (t : Nat) : Thread := Sparse.get .reset c.threads t
/-- Thread `t` changed. -/
def Core.updThread (c : Core) (t : Nat) (f : Thread → Thread) : Core :=
  { c with threads := Sparse.put c.threads t (f (c.thread t)) }

/-- g registers: g0 reads 0 (03, "Thread state"). -/
def Thread.rg (t : Thread) (i : BitVec 5) : Word := if i = 0 then 0 else Sparse.get 0 t.g i.toNat
/-- A write to g0 is discarded. -/
def Thread.wg (t : Thread) (i : BitVec 5) (v : Word) : Thread :=
  if i = 0 then t else { t with g := Sparse.set 0 t.g i.toNat v }
/-- v registers. -/
def Thread.rv (t : Thread) (i : BitVec 4) : Row := Sparse.get 0 t.v i.toNat
/-- A vector register written. -/
def Thread.wv (t : Thread) (i : BitVec 4) (v : Row) : Thread := { t with v := Sparse.set 0 t.v i.toNat v }
/-- p registers: p0 reads 0xFFFF. -/
def Thread.rp (t : Thread) (i : BitVec 3) : BitVec 16 := if i = 0 then 0xFFFF else Sparse.get 0 t.p i.toNat
/-- A write to p0 is discarded. -/
def Thread.wp (t : Thread) (i : BitVec 3) (v : BitVec 16) : Thread :=
  if i = 0 then t else { t with p := Sparse.set 0 t.p i.toNat v }
/-- A pair of g registers, the even one holding bits 31:0. -/
def Thread.rgPair (t : Thread) (i : BitVec 5) : DWord := (t.rg (i + 1)) ++ (t.rg i)
/-- A pair of g registers written. -/
def Thread.wgPair (t : Thread) (i : BitVec 5) (v : DWord) : Thread :=
  (t.wg i (v.setWidth 32)).wg (i + 1) (v.extractLsb' 32 32)

/-- The code of a thread's status (THREAD_STATE). -/
def TStat.code : TStat → Nat
  | .off => 0 | .ready => 1 | .waiting => 2 | .ended => 3 | .stopped => 4

/-- The code of a section's state (SECTION_STATE). -/
def SecState.code : SecState → Nat
  | .idle => 0 | .running => 1 | .closing => 2 | .aborted => 3

/-- A section is RUNNING or CLOSING at the core. -/
def Core.inSection (c : Core) : Bool := match c.sec with | .running => true | .closing => true | _ => false

/-! ### The scratchpad (R88 to R90, R99, R100) -/

/-- The 8-byte words that the bytes `a` to `a + len - 1` lie in. -/
def wordsOf (a len : Nat) : List Nat := if len = 0 then [] else (List.range ((a + len - 1) / 8 + 1 - a / 8)).map (· + a / 8)

/-- The scratchpad's bytes, the error code apart. -/
def Core.peek (c : Core) (a len : Nat) : List Byte := Sparse.slice 0 c.spad a len

/-- The first-record rule for an uncorrectable word, and its count (R100, R101). -/
def Core.noteUe (c : Core) (word k : Nat) (scrub : Bool) : Core :=
  let c := c.countSat CR.UE_COUNT CR.UE_SAT k
  if c.rd CR.UE_VALID = 0 then
    c.wrs [(CR.UE_VALID, 1), (CR.UE_SCRUB, b2n scrub), (CR.UE_ADDR, word * 8)]
  else c

/-- A read through a port: a correctable word is corrected, counted and due for write-back; an uncorrectable one delivers
nothing and names its word (R99, R100). -/
def Core.readSpad (c : Core) (a len : Nat) : Except Nat (List Byte) × Core :=
  let ws := wordsOf a len
  let c1 := c.countSat CR.CE_COUNT CR.CE_SAT (ws.filter fun w => c.single.contains w).length
  let c2 := { c1 with writebacks := c1.writebacks ++ (ws.filter fun w => c.single.contains w && !c.writebacks.contains w) }
  match ws.find? fun w => c.double.contains w with
  | some w => (.error w, c2.noteUe w (ws.filter fun w => c.double.contains w).length false)
  | none => (.ok (c.peek a len), c2)

/-- A write through a port. A word written whole gets fresh check bits; a part of a correctable word corrects it; a part of
an uncorrectable word is refused and names the word (R99, R100). -/
def Core.writeSpad (c : Core) (a : Nat) (bs : List Byte) : Option Nat × Core :=
  let ws := wordsOf a bs.length
  let whole := ws.filter fun w => decide (a ≤ w * 8) && decide (w * 8 + 8 ≤ a + bs.length)
  let part := ws.filter fun w => !(decide (a ≤ w * 8) && decide (w * 8 + 8 ≤ a + bs.length))
  match part.find? fun w => c.double.contains w with
  | some w => (some w, c.noteUe w (part.filter fun w => c.double.contains w).length false)
  | none =>
    let c1 := c.countSat CR.CE_COUNT CR.CE_SAT (part.filter fun w => c.single.contains w).length
    (none, { c1 with spad := Sparse.blit 0 c1.spad a bs,
                     single := c1.single.filter fun w => !ws.contains w,
                     double := c1.double.filter fun w => !whole.contains w,
                     writebacks := c1.writebacks.filter fun w => !ws.contains w })

/-- A masked write of a row: bytes whose mask bit is 0 keep their contents (R89). Words written whole get fresh check bits;
a word written in part that is uncorrectable refuses the write (R100). -/
def Core.writeRow (c : Core) (a : Nat) (row : Row) (mask : Nat) : Option Nat × Core :=
  let old := Row.ofBytes (c.peek a 64)
  let new := (List.range 64).map fun i => if mask.testBit i then row.byte i else old.byte i
  let touched := (List.range 8).filter fun j => bits mask (8 * j + 7) (8 * j) ≠ 0
  let whole := (List.range 8).filter fun j => bits mask (8 * j + 7) (8 * j) = 255
  match touched.find? fun j => !whole.contains j && c.double.contains (a / 8 + j) with
  | some j => (some (a / 8 + j), c.noteUe (a / 8 + j) 1 false)
  | none =>
    let hit (w : Nat) : Bool := touched.contains (w - a / 8) && decide (a / 8 ≤ w)
    let c1 := c.countSat CR.CE_COUNT CR.CE_SAT
      (touched.filter fun j => !whole.contains j && c.single.contains (a / 8 + j)).length
    (none, { c1 with spad := Sparse.blit 0 c1.spad a new, single := c1.single.filter fun w => !hit w,
                     double := c1.double.filter fun w => !(hit w && whole.contains (w - a / 8)),
                     writebacks := c1.writebacks.filter fun w => !hit w })

/-- The mask of `n` bytes from the lowest. -/
def lowMask (n : Nat) : Nat := 2 ^ n - 1
/-- A full row mask. -/
def fullMask : Nat := 2 ^ 64 - 1

/-! ### Faults of a core (R81) and the start of an abort (R51) -/

/-- Codes of core faults (R81 and the chapters' tables). -/
def fltIllegalInsn : Nat := 0x01
def fltMisaligned : Nat := 0x02
def fltLocalAddr : Nat := 0x03
def fltAddrUnmapped : Nat := 0x04
def fltCoreWatchdog : Nat := 0x05
def fltMemUncorrectable : Nat := 0x06
def fltEpochResidue : Nat := 0x07
def fltSpadUncorrectable : Nat := 0x10
def fltBezelRange : Nat := 0x11
def fltBezelSetup : Nat := 0x12
def fltSpadPattern : Nat := 0x13
def fltMxDesc : Nat := 0x14
def fltMxKind : Nat := 0x15
def fltMxKLimit : Nat := 0x16
def fltCzOverflow : Nat := 0x17
def fltCzConfig : Nat := 0x18
def fltRoute : Nat := 0x19
def fltQueueSetup : Nat := 0x1A
def fltCombMismatch : Nat := 0x1B
def fltClaspOverrun : Nat := 0x1C
def fltClaspSetup : Nat := 0x1D
def fltSignalOrphan : Nat := 0x1E
def fltClaspMember : Nat := 0x1F
def fltPageDenied : Nat := 0x20
def fltDmaDesc : Nat := 0x21
def fltDmaTag : Nat := 0x22

/-- What a core's fault record holds (R81): unit (0 thread, 1 engine, 2 compressor, 3 DMA, 4 router), thread, code, pc,
address with its DEV bit, instruction word. -/
structure FaultInfo where
  unit : Nat
  thread : Nat
  code : Nat
  pc : Nat
  addr : Nat
  dev : Bool
  insn : Nat
  deriving DecidableEq, Repr

/-- A fault of unit `u` with an address. -/
def FaultInfo.ofUnit (u code addr : Nat) : FaultInfo := ⟨u, 0, code, 0, addr, false, 0⟩

/-- Every fault counts; the first after FAULT_VALID is cleared is recorded. The core's section ends as faulted (R81). -/
def Core.record (c : Core) (n : Nat) (i : FaultInfo) : Core :=
  let c := { c.countSat CR.FAULT_COUNT CR.FAULT_SAT 1 with faulted := true }
  if c.rd CR.FAULT_VALID = 0 then
    c.wrs
        [(CR.FAULT_VALID, 1), (CR.FAULT_THREAD, i.thread), (CR.FAULT_UNIT, i.unit), (CR.FAULT_CODE, i.code),
         (CR.FAULT_PC, i.pc), (CR.FAULT_ADDR_LO, i.addr), (CR.FAULT_ADDR_DEV, b2n i.dev),
         (CR.FAULT_ADDR_HI, i.addr / 2 ^ 32), (CR.FAULT_INSN, i.insn), (CR.FAULT_INDEX, n)]
  else c

/-- SRC of hub `h` and of region controller `r` (R179, R180). -/
def hubSrc (h : Nat) : Nat := 0x7FFF0 + h
/-- See `hubSrc`. -/
def regionSrc (r : Nat) : Nat := 0x7FF00 + r

/-- What the MP or a hub detects H0 has at once, as a SECTION_ABORT that has come to it (R51). -/
def State.mpAbort (s : State) (a : AbortMsg) : State :=
  s.updMd fun m => { m with tu := { m.tu with inbox := m.tu.inbox ++ [a] } }

/-- SECTION_ABORT sent to H0: a control message of the region controller that detects the cause (R51). -/
def State.sendAbort (s : State) (a : AbortMsg) : State :=
  if a.region < 56 then
    s.updRegion a.region fun g => { g with ctrlOut := g.ctrlOut ++ [⟨2, 0, regionSrc a.region, g.ctrlGen, .cause a⟩] }
  else s.mpAbort a

/-- The SECTION_ABORT of a fault of a core, of a region, of a hub. -/
def AbortMsg.ofCore (n code : Nat) : AbortMsg := ⟨regionOf n, code, 0, n⟩
/-- See `AbortMsg.ofCore`. -/
def AbortMsg.ofRegion (r code : Nat) : AbortMsg := ⟨r, code, 1, r⟩
/-- See `AbortMsg.ofCore`. A hub lies outside the regions. -/
def AbortMsg.ofHub (h code : Nat) : AbortMsg := ⟨63, code, 2, h⟩
/-- See `AbortMsg.ofCore`. -/
def AbortMsg.ofModule (i code : Nat) : AbortMsg := ⟨63, code, 3, i⟩

/-- Log codes of the faults of regions, hubs and the module (R410). -/
def logTickSequence : Nat := 0x40
def logTickOverrun : Nat := 0x41
def logTickWatchdog : Nat := 0x42
def logEpochLate : Nat := 0x43
def logPlanInvalid : Nat := 0x44
def logBezelClosed : Nat := 0x45
def logNoProgress : Nat := 0x46
def logMeshLink : Nat := 0x47
def logChanClosed : Nat := 0x48
def logClaspLease : Nat := 0x49
def logReduceMismatch : Nat := 0x4A
def logReduceTimeout : Nat := 0x4B
def logReduceOverrun : Nat := 0x4C
def logReduceRecord : Nat := 0x4D
def logReduceStart : Nat := 0x4E
def logMemChannel : Nat := 0x4F
def logPeerUnreachable : Nat := 0x50
def logTickReportLate : Nat := 0x51
def logRingMsgSize : Nat := 0x52
def logLinkTrain : Nat := 0x53
def logThermalTrip : Nat := 0x54
def logThermalShutdown : Nat := 0x55
def logPowerDomain : Nat := 0x56
def logCoreLost : Nat := 0x57
def logRegionLost : Nat := 0x58
def logReset : Nat := 0x59
def logMemberLost : Nat := 0x5A
def logPowerFail : Nat := 0x5B
def logRefLoss : Nat := 0x5C

/-- A fault of a unit of a core: recorded, and the tick aborts (R51, R81). -/
def State.unitFault (s : State) (n : Nat) (i : FaultInfo) : State :=
  (s.updCore n fun c => c.record n i).sendAbort (.ofCore n i.code)

/-! ### The core watchdog (R82) -/

/-- The descriptor of a tag waits at a page fence. -/
def Core.tagFenced (c : Core) (tag : Nat) : Bool :=
  match c.dma.queue[(tag + 2 ^ 16 - c.dma.doneTag) % 2 ^ 16]? with
  | some d => d.started && d.atFence
  | none => false

/-- A thread that issues or waits. -/
def Thread.live (t : Thread) : Bool := match t.status with | .ready => true | .waiting => true | _ => false

/-- A thread whose wait the watchdog leaves alone: at cl.wait, at a far access with an unresolved translation fault, or in dma.wait
on a descriptor at a page fence (R82, R296). -/
def Core.waitsLong (c : Core) (t : Thread) : Bool :=
  decide (t.status = .waiting) && (decide (0 < t.farHeld) || match t.wait with
    | .clasp => true
    | .dma tag => c.tagFenced tag
    | _ => false)

/-- The count holds: some thread is STOPPED at dbg.brk, or every READY or WAITING thread, of which there is one, waits long. -/
def Core.wdogHolds (c : Core) : Bool :=
  let ts := (List.range 8).map c.thread
  let on := ts.filter Thread.live
  ts.any (fun t => t.atBreak) || (decide (on ≠ []) && on.all c.waitsLong)

/-- The watchdog's count returns to zero, unless it holds (R82). -/
def Core.progress (c : Core) : Core := if c.wdogHolds then c else c.wr CR.WDOG_COUNT 0

/-! ### Faults of threads -/

/-- A fault stops a thread at its instruction, and is recorded (R81). -/
def State.stopThread (s : State) (n t code addr : Nat) (dev : Bool) (insn : Nat) : State :=
  let pc := ((s.core n).thread t).pc.toNat
  (s.updCore n fun c => c.updThread t fun th => { th with status := .stopped, wait := .none }).unitFault n
    ⟨0, t, code, pc, addr, dev, insn⟩

/-- A fault of an instruction that a thread has issued: it becomes STOPPED there, and the fault is recorded (R81, R82). -/
def State.threadFault (s : State) (n t code addr : Nat) (dev : Bool) (insn : Nat) : State :=
  (s.updCore n Core.progress).stopThread n t code addr dev insn

/-- A thread with a far access held at a translation fault does not go on (R77). -/
def Thread.stall (t : Thread) : Thread :=
  if 0 < t.farHeld ∧ t.status = .ready then { t with status := .waiting, wait := .fault } else t

/-- The hold of a far access of a thread begins: the thread waits (R77). -/
def Thread.held (t : Thread) : Thread := { t with farHeld := t.farHeld + 1 }.stall

/-- It ends: with the last one a thread that waited for it alone goes on. -/
def Thread.unheld (t : Thread) : Thread :=
  let t1 : Thread := { t with farHeld := t.farHeld - 1 }
  if t1.farHeld = 0 ∧ t.status = .waiting ∧ t.wait = .fault then { t1 with status := .ready, wait := .none } else t1

/-- A refused device access: counted, and recorded if MOD_ADDR_FAULT is free (R31, R34). -/
def State.addrFault (s : State) (addr : Nat) (who : Requester) (why : Cause) (id : Nat) : State :=
  let s1 := s.updMd fun m => { m with regs := m.regs.countSat MR.ADDR_FAULT_COUNT MR.ADDR_FAULT_SAT 1 }
  if s1.rd MR.ADDR_FAULT_VALID = 0 then
    s1.wrs [(MR.ADDR_FAULT_VALID, 1), (MR.ADDR_FAULT_LO, addr), (MR.ADDR_FAULT_HI, addr / 2 ^ 32), (MR.REQ_CLASS, who.code),
            (MR.CAUSE, why.code), (MR.REQ_ID, id)]
  else s1

/-- A counter with its flag of the module. -/
def State.countSat (s : State) (f flag : Fld) : State := s.updMd fun m => { m with regs := m.regs.countSat f flag 1 }

/-- A write refused with BUSY: counted, recorded for the host if the BUSY record is free, told to the MP at once (R13, R60). -/
def State.busyWrite (s : State) (who : Requester) (id addr : Nat) : State :=
  let s1 := s.countSat MR.BUSY_COUNT MR.BUSY_SAT
  if who = .mp then s1.emit (.mpStatus .busy)
  else if who = .host ∧ s1.rd MR.BUSY_VALID = 0 then
    s1.wrs [(MR.BUSY_VALID, 1), (MR.BUSY_ADDR_LO, addr), (MR.BUSY_ADDR_HI, addr / 2 ^ 32), (MR.BUSY_REQ_CLASS, who.code),
            (MR.BUSY_REQ_ID, id)]
  else s1

/-- The requester of a command register's write: the host or the MP. -/
def hostOrMp (host : Bool) : Requester := if host then .host else .mp

/-- A region whose eclipse is in effect (R371). -/
def State.eclipsed (s : State) (r : Nat) : Bool := (s.rd MR.ECL_NOW_LO + 2 ^ 32 * s.rd MR.ECL_NOW_HI).testBit r

/-- Numeric events counted at the core (R142). -/
def Core.countEvents (c : Core) (e : Events) : Core :=
  (((c.countSat CR.NAN_COUNT CR.NAN_SAT e.nan).countSat CR.OVF_COUNT CR.OVF_SAT e.ovf).countSat
    CR.CLAMP_COUNT CR.CLAMP_SAT e.clamp).countSat CR.UNF_COUNT CR.UNF_SAT e.unf

/-- A thread's signal counter incremented; at 0xFFFF it stops and sets its SIG_SAT bit (R209, R210). -/
def Core.signal (c : Core) (t : Nat) : Core :=
  let v := (c.thread t).sig
  let c := if v < 0xFFFF then c.updThread t fun th => { th with sig := v + 1 } else c
  if 0xFFFE ≤ v then c.wr CR.SIG_SAT (setBit (c.rd CR.SIG_SAT) t true) else c

end Sys2Proof.Machine
end

