-- ==== Sys2Proof/Machine/Issue.lean ====
section
/-!
DEFINITION. The issue of one instruction by a thread: fetch (R74), guard and lane mask (R68), spins (R72), and what an
instruction that is not a spin does besides its own effect (pc, READY, the watchdog of R82). The legality of an encoding
(R66, R67) is `legalWord`, written from the opcode tables of R69.
-/
namespace Sys2Proof.Machine

/-! ### Instruction words (R66) -/

/-- A G-form word. -/
def wordG (op d a b pg fn : Nat) : Nat := op * 2 ^ 26 + d * 2 ^ 21 + a * 2 ^ 16 + b * 2 ^ 11 + pg * 2 ^ 8 + fn
/-- An I-form word. -/
def wordI (op d a imm : Nat) : Nat := op * 2 ^ 26 + d * 2 ^ 21 + a * 2 ^ 16 + imm
/-- A V-form word. -/
def wordV (op vd va vb vc pg fn : Nat) : Nat :=
  op * 2 ^ 26 + vd * 2 ^ 22 + va * 2 ^ 18 + vb * 2 ^ 14 + vc * 2 ^ 10 + pg * 2 ^ 7 + fn

/-- One row of the opcode tables: the bits that are fixed (an opcode, a function code, a field that must be zero, the low
bit of a register pair) and their values. -/
structure InsnRow where
  mask : Nat
  value : Nat
  deriving DecidableEq, Repr

/-- A G-form row: OP, fn, and the bits of d, a and b that must be zero (R66, R67). -/
def rowG (op fn zd za zb : Nat) : InsnRow := ⟨wordG 63 zd za zb 0 255, wordG op 0 0 0 0 fn⟩
/-- An I-form row: OP and the bits of d and a that must be zero. -/
def rowI (op zd za : Nat) : InsnRow := ⟨wordI 63 zd za 0, wordI op 0 0 0⟩
/-- A V-form row: OP, fn, and the bits of vd, va, vb, vc and pg that must be zero. -/
def rowV (op fn zd za zb zc zp : Nat) : InsnRow := ⟨wordV 63 zd za zb zc zp 127, wordV op 0 0 0 0 0 fn⟩

/-- OP 0x00 to 0x0F: integer, immediate, branch, control, compare and predicate rows. -/
def rowsScalar : List InsnRow :=
  ((List.range 17).map fun k => rowG 0x00 (k + 1) 0 0 0) ++ [rowG 0x00 0x12 0 0 31, rowG 0x00 0x13 0 0 31] ++
  ((List.range 3).map fun k => rowG 0x00 (k + 0x14) 0 0 0) ++
  ((List.range 6).map fun k => rowI (k + 1) 0 0) ++ [rowI 0x07 0 31, rowI 0x0C 0 0, rowI 0x0D 0 0, rowI 0x0E 0 0] ++
  [rowG 0x0F 1 31 31 31, rowG 0x0F 2 31 31 31, rowG 0x0F 3 0 31 31, rowG 0x0F 4 31 31 31] ++
  ((List.range 6).map fun k => rowG 0x08 k 24 0 0) ++
  ((List.range 4).map fun k => rowG 0x09 k 24 24 24) ++
  [rowG 0x09 4 24 0 31, rowG 0x09 5 0 24 31, rowG 0x09 6 24 24 31, rowG 0x09 7 24 24 31]

/-- OP 0x10 to 0x1F and 0x30 to 0x33: memory and control registers. A pair's register is even. -/
def rowsMemory : List InsnRow :=
  [rowI 0x10 0 0, rowI 0x11 0 0, rowI 0x12 0 0, rowI 0x13 0 0, rowI 0x14 0 0, rowI 0x15 1 0, rowI 0x16 0 0, rowI 0x17 0 0,
   rowI 0x18 0 0, rowI 0x19 1 0, rowI 0x1A 0 1, rowI 0x1B 1 1, rowI 0x1C 0 1, rowI 0x1D 1 1, rowI 0x1E 16 0,
   rowI 0x1F 16 0, rowI 0x30 0 31, rowI 0x31 0 0, rowI 0x32 0 0, rowI 0x33 0 0]

/-- OP 0x20 to 0x24: vector, exchange, compensated sums, special functions and conversions. -/
def rowsVector : List InsnRow :=
  [rowV 0x20 0x01 0 0 0 15 0, rowV 0x20 0x02 0 0 0 15 0, rowV 0x20 0x03 0 0 0 15 0, rowV 0x20 0x04 0 0 0 0 0,
   rowV 0x20 0x05 0 0 0 15 0, rowV 0x20 0x06 0 0 0 15 0, rowV 0x20 0x07 0 0 15 15 0, rowV 0x20 0x08 0 0 15 15 0,
   rowV 0x20 0x09 8 0 0 15 0, rowV 0x20 0x0A 8 0 0 15 0, rowV 0x20 0x0B 8 0 0 15 0, rowV 0x20 0x0C 0 0 0 8 0,
   rowV 0x20 0x0D 0 0 15 15 7, rowV 0x20 0x0E 0 0 15 15 7, rowV 0x20 0x0F 0 0 0 15 0, rowV 0x20 0x10 0 0 0 15 0,
   rowV 0x20 0x11 0 0 0 15 0, rowV 0x20 0x12 0 0 0 15 0, rowV 0x20 0x13 0 0 0 15 7, rowV 0x20 0x14 0 0 15 15 0] ++
  [rowG 0x21 1 16 0 31, rowG 0x21 2 0 16 0, rowG 0x21 3 16 0 0] ++
  [rowV 0x22 1 1 0 0 15 0, rowV 0x22 2 1 0 0 15 0, rowV 0x22 3 1 1 1 15 0, rowV 0x22 4 1 1 0 15 0,
   rowV 0x22 5 1 1 15 15 0, rowV 0x22 6 0 1 15 15 0, rowV 0x22 7 1 1 15 15 7] ++
  ((List.range 7).map fun k => rowV 0x23 (k + 1) 0 0 15 15 0) ++
  [rowV 0x24 1 0 0 0 15 0, rowV 0x24 2 0 0 0 15 0, rowV 0x24 3 0 0 15 12 0, rowV 0x24 4 0 0 15 12 0,
   rowV 0x24 5 0 0 15 14 0, rowV 0x24 6 0 0 15 14 0, rowV 0x24 7 0 0 15 12 0, rowV 0x24 8 0 0 15 12 0,
   rowV 0x24 9 0 0 15 15 0, rowV 0x24 10 0 0 15 15 0]

/-- OP 0x28 to 0x2F: engine, compressor, random, channels, bezels, signals, clasps and DMA. -/
def rowsUnits : List InsnRow :=
  [rowG 0x28 1 31 0 31, rowG 0x28 2 31 0 31, rowG 0x28 3 31 31 31, rowG 0x28 4 31 0 31, rowG 0x28 5 31 31 31,
   rowG 0x28 6 0 31 31, rowG 0x29 1 31 0 31, rowG 0x29 2 31 31 31, rowG 0x29 3 31 0 31, rowG 0x29 4 0 31 31,
   rowG 0x2F 1 31 0 31, rowG 0x2A 1 0 16 31, rowG 0x2A 2 0 0 31, rowG 0x2A 3 16 31 0, rowG 0x2A 4 0 31 0,
   rowG 0x2A 5 31 31 0, rowG 0x2A 6 0 31 0, rowG 0x2B 1 24 0 0, rowG 0x2B 2 24 31 31, rowG 0x2B 3 24 0 31,
   rowG 0x2B 4 0 0 16, rowG 0x2B 5 0 24 31, rowG 0x2C 1 24 31 31, rowG 0x2C 2 31 31 31, rowG 0x2C 3 0 0 31,
   rowG 0x2C 4 0 31 31, rowG 0x2D 1 16 31 31, rowG 0x2D 2 16 31 31, rowG 0x2D 3 0 16 31, rowG 0x2E 1 0 0 31,
   rowG 0x2E 2 31 0 31, rowG 0x2E 3 0 0 31]

/-- A word matches a row. -/
def InsnRow.hits (r : InsnRow) (w : Nat) : Bool := (w &&& r.mask) == r.value

/-- An encoding that R67 does not call illegal. rnd.u32 and vrnd also need a non-zero stream b. -/
def legalWord (w : Nat) : Bool :=
  (rowsScalar ++ rowsMemory ++ rowsVector ++ rowsUnits).any (·.hits w) ||
  (((rowG 0x2F 2 0 31 0).hits w || (rowG 0x2F 3 16 31 0).hits w) && bits w 15 11 != 0)

/-! ### Issue -/

/-- A thread that can issue: READY, or WAITING on a waiting instruction, with no far access held at a translation fault (R70, R77). -/
def Thread.canIssue (t : Thread) : Bool :=
  decide (t.farHeld = 0) && match t.status with
  | .ready => true
  | .waiting =>
    t.farLoad.isNone && (match t.wait with | .fault => false | .put _ => false | .share => false | _ => true)
  | _ => false

/-- The instruction fetch of thread `t` (R74): its buffer holds the 8 aligned bytes at its pc, or takes them from the
scratchpad. `false`: the fetch raised a fault, whose instruction word, which was not delivered (R100), is a free value. -/
def State.fetch (s : State) (n t : Nat) : State × Bool :=
  let fault (s : State) (code addr : Nat) : State × Bool :=
    match s.fresh 32 with
    | (word, s1) => (s1.stopThread n t code addr false word.toNat, false)
  let c := s.core n
  let th := c.thread t
  let a := th.pc.toNat / 8 * 8
  if th.fetchAddr = some a then (s, true)
  else if spadSize ≤ th.pc.toNat then fault s fltLocalAddr th.pc.toNat
  else
    match c.readSpad a 8 with
    | (.error w, c') => fault (s.setCore n c') fltSpadUncorrectable (w * 8)
    | (.ok bs, c') =>
      (s.setCore n (c'.updThread t fun th => { th with fetchAddr := some a, fetchBuf := BitVec.ofNat 64 (leNat bs) }), true)

/-- What every instruction that is not a spin does besides `f`: the thread is READY, its pc is at the next instruction
unless `f` moved it, and the watchdog's count returns to zero (R82). -/
def Core.retire (c : Core) (t : Nat) (f : Thread → Thread) : Core :=
  (c.updThread t fun th => f { th with status := .ready, wait := .none, pc := th.pc + 4 }).progress

/-- An instruction of thread `t` completes with an effect on the thread alone. -/
def State.retire (s : State) (n t : Nat) (f : Thread → Thread) : State := s.updCore n fun c => c.retire t f

/-- A waiting instruction that is not satisfied: the thread waits, the spin is counted, nothing else changes (R72). -/
def State.spin (s : State) (n t : Nat) (w : WaitOn) : State :=
  s.updCore n fun c =>
    (c.updThread t fun th => { th with status := .waiting, wait := w }).count CR.SPIN_CYCLES 1

/-- A wait of the thread's issue that is no spin (a full far-store or bezel buffer, R71, R108). -/
def State.hold (s : State) (n t : Nat) : State :=
  s.updCore n fun c => c.updThread t fun th => { th with status := .waiting, wait := .none }

/-- The issue of an instruction by thread `t` of core `n`, with the body run on the state after the fetch; its word, `_insn`, is
for the faults of the body alone. A thread that cannot issue issues nothing (log 4). -/
def issue (n : Nat) (t : BitVec 3) (_insn : Nat) (body : State → State) (s : State) : State :=
  if ((s.core n).thread t.toNat).canIssue then
    match s.fetch n t.toNat with
    | (s1, false) => s1
    | (s1, true) => body (s1.updCore n fun c => { c with lastIssued := t.toNat })
  else s

/-- A G-form instruction: with bit 0 of its guard predicate 0 it has no effect and is no spin (R68). -/
def issueG (n : Nat) (t : BitVec 3) (pg : BitVec 3) (insn : Nat) (body : State → State) (s : State) : State :=
  issue n t insn (fun s1 =>
    if (((s1.core n).thread t.toNat).rp pg).getLsbD 0 then body s1 else s1.retire n t.toNat id) s

/-- A G-form instruction whose effect lies in its thread's registers. -/
def issueGT (n : Nat) (t : BitVec 3) (pg : BitVec 3) (insn : Nat) (f : Thread → Thread) (s : State) : State :=
  issueG n t pg insn (fun s1 => s1.retire n t.toNat f) s

/-- An I, B or J-form instruction whose effect lies in its thread's registers. -/
def issueT (n : Nat) (t : BitVec 3) (insn : Nat) (f : Thread → Thread) (s : State) : State :=
  issue n t insn (fun s1 => s1.retire n t.toNat f) s

/-- A FLT_ILLEGAL_INSN at issue, whatever the guard (R67). -/
def issueIllegal (n : Nat) (t : BitVec 3) (insn : Nat) (s : State) : State :=
  issue n t insn (fun s1 => s1.threadFault n t.toNat fltIllegalInsn 0 false insn) s

/-- g[a] of the issuing thread. -/
def State.gOf (s : State) (n : Nat) (t : BitVec 3) (a : BitVec 5) : Word := ((s.core n).thread t.toNat).rg a

/-- Registers that must be even for a pair (R67). -/
def oddReg {w : Nat} (i : BitVec w) : Bool := i.getLsbD 0

end Sys2Proof.Machine
end

