-- ==== Sys2Proof/Machine/Mesh.lean ====
section
/-!
DEFINITION. The mesh (07): the layout of its blocks, routes of unicast and multicast blocks, input buffers and credits, links with
replay, control messages, the grant of a router output, and the faults of a link and of a stopped head block.
-/
namespace Sys2Proof.Machine

/-! ### Layout of a block (R174, R175, R179 to R181) -/

/-- A signed exponent as 16 bits. -/
def int16 (e : Int) : Nat := (BitVec.ofInt 16 e).toNat

/-- The four header words of a channel-data block (R179). -/
def CdHead.words (h : CdHead) : List Nat :=
  let dest := if h.kind = 2 then h.hub + 2 ^ 3 * h.endpoint else if h.kind = 1 then 0 else h.dest
  [b2n h.signal + 2 ^ 4 * h.epoch + 2 ^ 6 * h.kind + 2 ^ 8 * h.destQ + 2 ^ 13 * dest + 2 ^ 32 * h.src + 2 ^ 51 * h.srcQ,
   h.seq + 2 ^ 16 * int16 h.eblk + 2 ^ 32 * h.xBase + 2 ^ 48 * h.yBase, h.colMask, h.rowMask]

/-- The header words of a memory request (R180). -/
def MReq.words (q : MReq) : List Nat :=
  [(if q.write then 2 else 1) + 2 ^ 8 * (q.va / 64 * 64),
   q.src + 2 ^ 19 * q.thread + 2 ^ 22 * q.unit + 2 ^ 24 * q.tag + 2 ^ 40 * q.gen, 0, 0]

/-- TYPE and STATUS of a memory reply (R180). A refusal that names no STATUS carries 0 (log 80). -/
def Reply.code : Reply → Nat × Nat
  | .data _ => (1, 0)
  | .ack => (2, 0)
  | .notHbm => (3, 1)
  | .uncorrectable => (3, 2)
  | .unmapped => (3, 0)
  | .denied => (3, 0)

/-- The header words of a memory reply (R180). -/
def replyWords (q : MReq) (r : Reply) : List Nat :=
  [r.code.1 + 2 ^ 4 * r.code.2 + 2 ^ 8 * q.src + 2 ^ 32 * q.tag + 2 ^ 48 * q.gen, 0, 0, 0]

/-- TYPE of a control message (R181, R205, R226, R366). -/
def CtrlBody.type : CtrlBody → Nat
  | .tick _ => 0x01
  | .regionDone _ _ => 0x02
  | .abort => 0x03
  | .cause _ => 0x03
  | .coreDone _ _ _ => 0x04
  | .clasp m => if m.release then 0x11 else 0x10
  | .boost _ => 0x20
  | .duty _ => 0x30

/-- Word 1 of a control header: as R48, R226 and R366 give it; zero where no rule gives the layout (log 80). -/
def CtrlBody.word1 : CtrlBody → Nat
  | .coreDone k _ _ => k % 2 ^ 32
  | .clasp m => m.clasp + 2 ^ 4 * m.round + 2 ^ 6 * m.epoch + 2 ^ 8 * m.ttag
  | .duty v => v
  | _ => 0

/-- The payload bytes of a control message that a rule gives (R48). -/
def CtrlBody.payload : CtrlBody → List Byte
  | .coreDone _ hm folds => leBytes 8 hm ++ leBytes 4 folds
  | _ => []

/-- The header words of a control block (R181). -/
def Ctrl.words (m : Ctrl) : List Nat :=
  [m.body.type + 2 ^ 8 * m.dkind + 2 ^ 10 * m.dest + 2 ^ 29 * m.src, m.body.word1, 0, 0]

/-- Bytes followed by zeros up to a length. -/
def padTo (n : Nat) (b : List Byte) : List Byte := b ++ List.replicate (n - b.length) 0

/-- The 128 data bytes of a packet: flit 0 with the header, flits 1 and 2 with the payload, flit 3 with the byte mask of a WRITE
(R174, R179 to R181). -/
def Payload.bytes (p : Payload) : List Byte :=
  let head (w : List Nat) : List Byte := w.flatMap (leBytes 8)
  padTo 128 <| match p with
  | .cd h body => head h.words ++ body.toBytes
  | .mreq q => head q.words ++ (if q.write then q.data.toBytes ++ leBytes 8 q.mask else [])
  | .mrsp q r => head (replyWords q r) ++ (match r with | .data row => row.toBytes | _ => [])
  | .ctrl m => head m.words ++ m.body.payload

/-- The class of a payload (R172): 0 CD, 1 MREQ, 2 MRSP, 3 CTRL. -/
def Payload.cls : Payload → Nat
  | .cd _ _ => 0
  | .mreq _ => 1
  | .mrsp _ _ => 2
  | .ctrl _ => 3

/-- Bits 23:0 of a block's sideband word (R174). -/
def LinkBlock.side (b : LinkBlock) : Nat :=
  (match b.body with | some p => p.cls + 2 ^ 19 | none => 0) + 2 ^ 2 * b2n b.seqd + 2 ^ 3 * b.seq + 2 ^ 8 * b.ackSeq +
    2 ^ 13 * b2n b.ackValid + 2 ^ 14 * b2n b.nak + 2 ^ 15 * b.cred

/-- What the CRC of a block covers: its 128 data bytes, then the three low bytes of its sideband word (R175). -/
def LinkBlock.covered (b : LinkBlock) : List Byte :=
  (match b.body with | some p => p.bytes | none => List.replicate 128 0) ++ leBytes 3 b.side

/-- The CRC field of a block (R175). -/
def LinkBlock.crc (b : LinkBlock) : Nat := crc16 b.covered

/-- The CRC of a block is correct where its bits `err` arrive inverted: bits 1047:0 lie over what the CRC covers, bits 1063:1048 over
the CRC itself (R175). -/
def LinkBlock.crcOk (b : LinkBlock) (err : Nat) : Bool :=
  decide (err = 0) ||
    decide (crc16 (List.zipWith (· ^^^ ·) b.covered (leBytes 131 err)) = b.crc ^^^ (err / 2 ^ 1048))

/-! ### Routes (R182 to R184) -/

/-- The set bits of a mask, as positions from a base. -/
def maskPos (base mask : Nat) : List Nat := ((List.range 64).filter fun i => mask.testBit i).map (base + ·)

/-- The output toward a logical core: X first, then Y (R182). -/
def outToward (n dest : Nat) : Nat :=
  if coreX n < coreX dest then 2
  else if coreX dest < coreX n then 4
  else if coreY n < coreY dest then 3
  else if coreY dest < coreY n then 1
  else 0

/-- The outputs of a multicast block at a router: the row-then-column tree (R184). -/
def outsMulticast (n : Nat) (h : CdHead) : List Nat :=
  let cols := maskPos h.xBase h.colMask
  let rows := maskPos h.yBase h.rowMask
  let x := coreX n
  let y := coreY n
  let xs := coreX h.src
  let ys := coreY h.src
  let here := cols.contains x
  let north := here && rows.any fun r => decide (r < y)
  let south := here && rows.any fun r => decide (y < r)
  let east := decide (y = ys) && decide (xs ≤ x) && cols.any fun c => decide (x < c)
  let west := decide (y = ys) && decide (x ≤ xs) && cols.any fun c => decide (c < x)
  (if here && rows.contains y then [0] else []) ++ (if north && decide (y ≤ ys) then [1] else []) ++
    (if east then [2] else []) ++ (if south && decide (ys ≤ y) then [3] else []) ++ (if west then [4] else [])

/-- The outputs toward a hub from router `n`: the edge core of the port for `src`, then the rim (R183). -/
def outsHub (ds : List Phys) (n h src : Nat) : List Nat :=
  match edgePortFor ds h src with
  | none => []
  | some k => if n = edgeCore h k then [hubPort h] else [outToward n (edgeCore h k)]

/-- The router at which a memory requester attaches: a core's own, or that of a region controller (R182). -/
def MReq.router (q : MReq) : Nat := if q.unit = 3 then controllerCore (q.src % 256) else q.src

/-- The router at which a control message leaves its sender: a core's, or that of a region controller. -/
def Ctrl.router (m : Ctrl) : Nat :=
  match m.body with
  | .regionDone _ _ => controllerCore (m.src % 256)
  | .cause _ => controllerCore (m.src % 256)
  | .duty _ => controllerCore (m.src % 256)
  | _ => m.src

/-- The outputs of a control block: DKIND 0 a core, 1 a region controller, 2 a hub (R181, R182). -/
def outsCtrl (ds : List Phys) (n : Nat) (m : Ctrl) : List Nat :=
  match m.dkind with
  | 0 => [outToward n m.dest]
  | 1 => [outToward n (controllerCore m.dest)]
  | 2 => outsHub ds n m.dest m.router
  | _ => []

/-- The outputs that a block owes a copy at router `n`. -/
def outsOf (ds : List Phys) (n : Nat) : Payload → List Nat
  | .cd h _ =>
    match h.kind with
    | 1 => outsMulticast n h
    | 2 => outsHub ds n h.hub h.src
    | _ => [outToward n h.dest]
  | .mreq q => outsHub ds n (bits q.va 9 8) q.router
  | .mrsp q _ => [outToward n q.router]
  | .ctrl m => outsCtrl ds n m

/-! ### Buffers (R173) -/

/-- The key of an input buffer: candidate number 4 × port + class (R186). -/
def bufKey (port cls : Nat) : Nat := 4 * port + cls
/-- An input buffer of a core's router. -/
def Core.inBuf (c : Core) (port cls : Nat) : List Entry := Sparse.get [] c.router.inb (bufKey port cls)
/-- A router's end of the link at a port. -/
def Core.linkAt (c : Core) (port : Nat) : Link := Sparse.get .reset c.router.links port
/-- See `Core.linkAt`. -/
def Core.setLinkAt (c : Core) (port : Nat) (l : Link) : Core :=
  { c with router := { c.router with links := Sparse.set .reset c.router.links port l } }

/-- Credits of a class to return (R173). -/
def Link.owe (l : Link) (cls k : Nat) : Link := { l with owed := Sparse.set 0 l.owed cls (Sparse.get 0 l.owed cls + k) }

/-- An input buffer replaced. Each block that leaves the buffer of a link frees a credit of its class, which the router returns; one that
leaves the local channel-data input goes before the clasp arrivals held behind it (R107, R173). -/
def Core.setInBuf (c : Core) (port cls : Nat) (l : List Entry) : Core :=
  let k := (c.inBuf port cls).length - l.length
  let c1 := { c with router := { c.router with inb := Sparse.set [] c.router.inb (bufKey port cls) l },
                     heldArr := if port = 0 ∧ cls = 0 then c.heldArr.map fun a => (a.1, a.2 - k) else c.heldArr }
  if port = 0 ∨ k = 0 then c1 else c1.setLinkAt port ((c1.linkAt port).owe cls k)

/-- The blocks an input port holds per class (R173). -/
def inCap (n port : Nat) : Nat := if facesScribe n port then 4 else 2

/-- A block put at the end of an input buffer. A block that owes no copy anywhere ends here, which frees its credit. -/
def Core.accept (c : Core) (ds : List Phys) (now n port : Nat) (p : Payload) : Core :=
  let outs := outsOf ds n p
  if outs = [] then (if port = 0 then c else c.setLinkAt port ((c.linkAt port).owe p.cls 1))
  else c.setInBuf port p.cls (c.inBuf port p.cls ++ [⟨p, outs, none, now⟩])

/-- The head of a buffer dropped; the next block becomes head now (R196). -/
def dropHead (now : Nat) : List Entry → List Entry
  | [] => []
  | _ :: [] => []
  | _ :: e :: l => { e with since := now } :: l

/-- The head of a buffer has sent its copy to an output; with no copy left it leaves the buffer (R184). -/
def paidHead (now out : Nat) : List Entry → List Entry
  | [] => []
  | e :: l =>
    let owes := e.owes.filter (· != out)
    if owes = [] then dropHead now (e :: l) else { e with owes := owes, tag := if out = 0 then none else e.tag } :: l

/-- The logical position a horizontal or vertical hop leads to: ABSENT positions of a row are crossed through their
bypasses, vertical traffic cannot cross one (R18, R27). -/
def meshHop (ds : List Phys) (n port : Nat) : Nat → Option Nat
  | 0 => none
  | k + 1 =>
    match gridNbr n (port - 1) with
    | none => none
    | some m => if absentIn ds m then (if port % 2 = 0 then meshHop ds m port k else none) else some m

/-- The other end of the link at a router's output 1 to 4. -/
def linkDest (ds : List Phys) (n port : Nat) : Option LinkEnd :=
  if port = 0 then none
  else
    match hubFacing n port with
    | some (h, k) => some (.hub h k)
    | none => (meshHop ds n port 576).map fun m => .core m (oppDir (port - 1) + 1)

/-! ### Links (R173, R174, R176) -/

/-- The other end of a link. -/
def State.peer (s : State) : LinkEnd → Option LinkEnd
  | .core n port => linkDest s.md.remap n port
  | .hub h k => some (.core (edgeCore h k) (hubPort h))

/-- An end of a link. -/
def State.link (s : State) : LinkEnd → Link
  | .core n port => (s.core n).linkAt port
  | .hub h k => Sparse.get .reset (s.hub h).links k

/-- An end of a link, changed. -/
def State.updLink (s : State) (e : LinkEnd) (f : Link → Link) : State :=
  match e with
  | .core n port => s.updCore n fun c => c.setLinkAt port (f (c.linkAt port))
  | .hub h k => s.updHub h fun u => { u with links := Sparse.set .reset u.links k (f (Sparse.get .reset u.links k)) }

/-- The blocks of a class that an end has room for (R173). -/
def endCap : LinkEnd → Nat
  | .core n port => inCap n port
  | .hub _ _ => 2

/-- A credit of a class is held for the other end of a link (R173). -/
def State.credit (s : State) (e : LinkEnd) (cls : Nat) : Bool :=
  match s.peer e with
  | some p => decide (Sparse.get 0 (s.link e).used cls < endCap p)
  | none => false

/-- The replay buffer of an end has room (R176). -/
def Link.room (l : Link) : Bool := decide (l.replay.length < 16)

/-- The credits that the next sequenced block returns: one of each class that has some to return (R174). -/
def Link.credBits (l : Link) : Nat :=
  (List.range 4).foldl (fun a c => if 0 < Sparse.get 0 l.owed c then a + 2 ^ c else a) 0

/-- A block as this end sends it: it carries the acknowledgement, and a NAK that is due (R174, R176). -/
def Link.stamp (l : Link) (b : LinkBlock) : LinkBlock :=
  { b with ackSeq := (l.expect + 31) % 32, ackValid := l.heard, nak := l.nakDue }

/-- A sequenced block sent, with or without a packet: it takes the next SEQ, carries credits, and stays in the replay buffer (R174,
R176). -/
def Link.send (l : Link) (p : Option Payload) : Link :=
  let b := l.stamp { seqd := true, seq := l.nextSeq, ackSeq := 0, ackValid := false, nak := false, cred := l.credBits, body := p }
  let back (m : Sparse Nat) (c : Nat) : Sparse Nat := if b.cred.testBit c then Sparse.set 0 m c (Sparse.get 0 m c - 1) else m
  { l with nextSeq := (l.nextSeq + 1) % 32, replay := l.replay ++ [(0, b)], flight := l.flight ++ [b],
           used := match p with | some q => Sparse.set 0 l.used q.cls (Sparse.get 0 l.used q.cls + 1) | none => l.used,
           owed := (List.range 4).foldl back l.owed, ackDue := false, nakDue := false }

/-- A block that carries no packet: sequenced where it returns a credit, and idle where it only acknowledges; none where there is nothing
to say (R174). -/
def Link.rest (l : Link) : Link :=
  if l.owed ≠ [] ∧ l.room then l.send none
  else if l.ackDue || l.nakDue then
    { l with flight := l.flight ++ [l.stamp { seqd := false, seq := 0, ackSeq := 0, ackValid := false, nak := false, cred := 0, body := none }],
             ackDue := false, nakDue := false }
  else l

/-- What an acknowledgement settles: the blocks up to its SEQ (R176). -/
def dropThrough (seq : Nat) (l : List (Nat × LinkBlock)) : List (Nat × LinkBlock) :=
  match l.findIdx? fun x => decide (x.2.seq = seq) with
  | some i => l.drop (i + 1)
  | none => l

/-- Every unacknowledged block sent again in SEQ order (R176). -/
def Link.again (l : Link) : Link :=
  { l with replay := l.replay.map fun x => (x.1 + 1, x.2), flight := l.flight ++ l.replay.map fun x => l.stamp x.2,
           ackDue := l.ackDue && decide (l.replay = []), nakDue := l.nakDue && decide (l.replay = []) }

/-- The region whose controller hears of a link's end: the router's own, or that of the router beyond a hub's edge port (R177, log 80). -/
def linkRouter : LinkEnd → Nat × Nat
  | .core n port => (n, port)
  | .hub h k => (edgeCore h k, hubPort h)

/-- FLT_MESH_LINK from the sending end `e`: at its region; the tick aborts (R177). -/
def State.meshLinkFault (s : State) (e : LinkEnd) : State :=
  let w := linkRouter e
  let r := regionOf w.1
  (s.updRegion r fun g =>
    if g.rd RR.LINK_VALID = 0 then g.wrs [(RR.LINK_VALID, 1), (RR.LINK_PORT, w.2), (RR.LINK_CORE, w.1)] else g).sendAbort
    (.ofRegion r logMeshLink)

/-- A link end sends again; where a block has now been sent again 8 times, FLT_MESH_LINK (R176, R177). -/
def State.resend (s : State) (e : LinkEnd) : State :=
  let s1 := s.updLink e Link.again
  if (s.link e).replay.any fun x => x.1 = 7 then s1.meshLinkFault e else s1

/-- A failed CRC counted for the receiving port (R176). -/
def State.countCrc (s : State) (e : LinkEnd) : State :=
  match e with
  | .hub _ _ => s
  | .core n port =>
    let f := match port with | 1 => CR.CRC_ERR_N | 2 => CR.CRC_ERR_E | 3 => CR.CRC_ERR_S | _ => CR.CRC_ERR_W
    (s.updCore n fun c =>
      let c1 := c.count f 1
      if c1.rd f = 255 then c1.wr CR.CRC_ERR_SAT (setBit (c1.rd CR.CRC_ERR_SAT) (port - 1) true) else c1).updRegion
      (regionOf n) fun g => { g with regs := g.regs.count RR.LINK_CRC_TOTAL 1 }

/-! ### Control messages at their destination (R172, R181) -/

/-- A control message that has reached its destination waits on nothing (R172): it joins what its receiver handles. One for a region
controller that has been restarted since it was sent is dropped, and so is a REGION_DONE of one (R393). -/
def State.ctrlArrive (s : State) (m : Ctrl) : State :=
  let region (f : Region → Region) : State :=
    s.updRegion m.dest fun g => if m.gen = g.ctrlGen then f g else g
  match m.body with
  | .tick t => region fun g => { g with tickIn := g.tickIn ++ [t] }
  | .abort => region fun g => { g with abortIn := true }
  | .boost v => region fun g => { g with boostIn := g.boostIn ++ [v] }
  | .coreDone tick hm folds => s.updCore m.src fun c => { c with doneOut := c.doneOut ++ [(tick, hm, folds)] }
  | .clasp x => s.updCore m.dest fun c => { c with claspIn := c.claspIn ++ [x] }
  | .regionDone tick hm =>
    s.updRegion (m.src % 256) fun g => if m.gen = g.ctrlGen then { g with doneOut := g.doneOut ++ [(tick, hm)] } else g
  | .cause a => s.updMd fun u => { u with tu := { u.tu with inbox := u.tu.inbox ++ [a] } }
  | .duty _ => s

/-- A block that has come to its destination and waits on nothing there: a control message for a core or a region controller, or a reply
to a region controller (R172, R180). -/
def State.sinks (s : State) (n : Nat) : Payload → Bool
  | .ctrl m => decide (outsCtrl s.md.remap n m = [0])
  | .mrsp q _ => decide (q.unit = 3) && decide (n = q.router)
  | _ => false

/-- What such a block does. -/
def State.sink (s : State) : Payload → State
  | .ctrl m => s.ctrlArrive m
  | .mrsp q r => s.updRegion (q.src % 256) fun g => { g with replies := g.replies ++ [(q, r)] }
  | _ => s

/-- A block that reaches an end takes its place in the buffer, or is sunk at once, which frees its credit. -/
def State.deliver (s : State) (e : LinkEnd) (p : Payload) : State :=
  match e with
  | .hub h k =>
    match p with
    | .ctrl m => (s.updLink e fun l => l.owe 3 1).ctrlArrive m
    | p => s.updHub h fun u => { u with edgeIn := Sparse.set [] u.edgeIn k (Sparse.get [] u.edgeIn k ++ [p]) }
  | .core n port =>
    if s.sinks n p then (s.updLink e fun l => l.owe p.cls 1).sink p
    else s.updCore n fun c => c.accept s.md.remap s.now n port p

/-! ### The edge ports of the hubs (R183) -/

/-- The first element of a list that a test chooses, taken out. -/
def takeIf {α : Type} (ok : α → Bool) : List α → Option (α × List α)
  | [] => none
  | p :: l => if ok p then some (p, l) else (takeIf ok l).map fun r => (r.1, p :: r.2)

/-- Edge port `k` of hub `h` sends what waits for it, the first block whose class has a credit each time, and then returns credits and
acknowledges (log 80). -/
def State.hubPump (s : State) (h k : Nat) : Nat → State
  | 0 => s.updLink (.hub h k) Link.rest
  | i + 1 =>
    match takeIf (fun p => s.credit (.hub h k) p.cls && (s.link (.hub h k)).room) (Sparse.get [] (s.hub h).edgeOut k) with
    | none => s.updLink (.hub h k) Link.rest
    | some (p, l) =>
      ((s.updHub h fun u => { u with edgeOut := Sparse.set [] u.edgeOut k l }).updLink (.hub h k) fun x => x.send (some p)).hubPump h k i

/-- See `State.hubPump`. -/
def State.hubFlow (s : State) (h k : Nat) : State := s.hubPump h k (Sparse.get [] (s.hub h).edgeOut k).length

/-- A block from hub `h` toward the router of core `dest` leaves through the port that serves the core, if one is enabled (R183). -/
def State.hubSend (s : State) (h dest : Nat) (p : Payload) : State :=
  match edgePortFor s.md.remap h dest with
  | none => s
  | some k => (s.updHub h fun u => { u with edgeOut := Sparse.set [] u.edgeOut k (Sparse.get [] u.edgeOut k ++ [p]) }).hubFlow h k

/-- Blocks taken from the input of edge port `k` of hub `h`, which then holds `l`: their credits return (R173). -/
def State.edgeTook (s : State) (h k : Nat) (l : List Payload) : State :=
  let n (c : Nat) (x : List Payload) : Nat := (x.filter fun p => decide (p.cls = c)).length
  let old := Sparse.get [] (s.hub h).edgeIn k
  ((s.updHub h fun u => { u with edgeIn := Sparse.set [] u.edgeIn k l }).updLink (.hub h k) fun x =>
    (List.range 3).foldl (fun x c => x.owe c (n c old - n c l)) x).hubFlow h k

/-- A control message of H0 to region controller `r`: through the mesh, or over its dedicated line where the path is cut (R27, R48). -/
def State.toRegion (s : State) (r : Nat) (b : CtrlBody) : State :=
  let m : Ctrl := ⟨1, r, hubSrc 0, (s.region r).ctrlGen, b⟩
  if regionCut s.md.remap 0 r then s.ctrlArrive m else s.hubSend 0 (controllerCore r) (.ctrl m)

/-! ### Blocks that enter the mesh at a router -/

/-- A block enters the mesh through the local port of core `n`. -/
def State.inject (s : State) (n : Nat) (p : Payload) : State :=
  if s.sinks n p then s.sink p else s.updCore n fun c => c.accept s.md.remap s.now n 0 p

/-- The local port has room for a block of a class (R173). -/
def Core.localRoom (c : Core) (cls : Nat) : Bool := decide ((c.inBuf 0 cls).length < 2)

/-- The path of a control message is cut: it travels over the service ring or the dedicated line (R27). -/
def Ctrl.cut (ds : List Phys) (m : Ctrl) : Bool :=
  match m.body with
  | .coreDone _ _ _ => coreCut ds m.src
  | .regionDone _ _ => regionCut ds 0 (m.src % 256)
  | .cause _ => regionCut ds 0 (m.src % 256)
  | _ => false

/-- The control messages that wait to enter at router `n`: its core's, then its region controller's, if that attaches there (R182). -/
def State.ctrlWaiting (s : State) (n : Nat) : Option (Ctrl × State) :=
  let r := regionOf n
  match (if (s.core n).lost then [] else (s.core n).ctrlOut) with
  | m :: l => some (m, s.updCore n fun c => { c with ctrlOut := l })
  | [] =>
    if n ≠ controllerCore r then none
    else match (s.region r).ctrlOut with | m :: l => some (m, s.updRegion r fun g => { g with ctrlOut := l }) | [] => none

/-- They enter while the local control input has room; one whose path is cut arrives by its detour. -/
def State.ctrlEnter (s : State) (n : Nat) : Nat → State
  | 0 => s
  | k + 1 =>
    match s.ctrlWaiting n with
    | none => s
    | some (m, s1) =>
      if m.cut s.md.remap then (s1.ctrlArrive m).ctrlEnter n k
      else if (s.core n).localRoom 3 then (s1.inject n (.ctrl m)).ctrlEnter n k
      else s

/-- The memory requests of a region controller enter at its router while the local request input has room; the MP issues those whose path is
cut to the hub (R27, R182). -/
def State.memEnter (s : State) (r : Nat) : Nat → State
  | 0 => s
  | k + 1 =>
    match (s.region r).memOut with
    | [] => s
    | q :: l =>
      let h := bits q.va 9 8
      let s1 := s.updRegion r fun g => { g with memOut := l }
      if regionCut s.md.remap h r then
        (s1.updHub h fun u => { u with regs := u.regs.count HR.WALKS 1, walks := u.walks ++ [⟨q, false⟩] }).memEnter r k
      else if (s.core (controllerCore r)).localRoom 1 then (s1.inject (controllerCore r) (.mreq q)).memEnter r k
      else s

/-- What waits to enter the mesh at router `n` enters as far as there is room. -/
def State.enter (s : State) (n : Nat) : State :=
  let r := regionOf n
  let s1 := s.ctrlEnter n ((s.core n).ctrlOut.length + (s.region r).ctrlOut.length)
  if n = controllerCore r then s1.memEnter r (s1.region r).memOut.length else s1

/-! ### The events of the mesh -/

/-- The end of a link that a command names: an edge port of a hub, or a port of a router. -/
def linkEndOf (hub : Bool) (n k : Nat) : LinkEnd := if hub then .hub n k else .core n k

/-- A block is discarded at its end: one NAK is due until the expected SEQ arrives (R176). -/
def Link.refuse (l : Link) : Link := if l.nakSent then l else { l with nakSent := true, nakDue := true }

/-- A sequenced block is accepted: the acknowledgement advances, and the credits that it carries return (R173, R176). -/
def Link.take (l : Link) (b : LinkBlock) : Link :=
  let back (m : Sparse Nat) (c : Nat) : Sparse Nat := if b.cred.testBit c then Sparse.set 0 m c (Sparse.get 0 m c - 1) else m
  { l with expect := (b.seq + 1) % 32, heard := true, ackDue := true, nakDue := false, nakSent := false,
           used := (List.range 4).foldl back l.used }

/-- What a block with a correct CRC says of the other direction: an acknowledgement, then a NAK (R174, R176). -/
def State.heardBack (s : State) (e : LinkEnd) (b : LinkBlock) : State :=
  let s1 := if b.ackValid then s.updLink e fun l => { l with replay := dropThrough b.ackSeq l.replay } else s
  if b.nak then s1.resend e else s1

/-- A block reaches end `e` with the bits `err` inverted. It is accepted if its CRC is correct and its SEQ the expected one (R176). An
error that the CRC does not find leaves the block as it was sent (log 80). -/
def State.blockAt (s : State) (e : LinkEnd) (b : LinkBlock) (err : Nat) : State :=
  if !b.crcOk err then (s.countCrc e).updLink e Link.refuse
  else
    let s1 := s.heardBack e b
    if !b.seqd then s1
    else if b.seq ≠ (s1.link e).expect then s1.updLink e Link.refuse
    else
      let s2 := s1.updLink e fun l => l.take b
      match b.body with | some p => s2.deliver e p | none => s2

/-- The next block in flight toward end `e` reaches it; an edge port of a hub then sends what it can. -/
def State.linkReceive (s : State) (e : LinkEnd) (err : Nat) : State :=
  match s.peer e with
  | none => s
  | some p =>
    match (s.link p).flight with
    | [] => s
    | b :: rest =>
      let s1 := (s.updLink p fun l => { l with flight := rest }).blockAt e b err
      match e with | .hub h k => s1.hubFlow h k | _ => s1

/-- The sending end `e` has had 512 MCLK with unacknowledged blocks and no change in ACK_SEQ (R176). -/
def State.linkTimeout (s : State) (e : LinkEnd) : State := if (s.link e).replay = [] then s else s.resend e

/-- A bezel notice of the core waits to be sent or acknowledged (R107). -/
def Core.noticesOut (c : Core) : Bool := c.bezels.any fun e => decide (e.2.waiting ≠ []) || decide (e.2.queued ≠ [])

/-- The head block of a candidate is eligible for an output: it owes it a copy, a credit is held, the replay buffer has
room, and it is not outgoing traffic held behind bezel notices (R107, R176, R186). -/
def State.eligible (s : State) (n out : Nat) (cand : Nat) : Bool :=
  match Sparse.get [] (s.core n).router.inb cand with
  | [] => false
  | x :: _ => x.owes.contains out && s.credit (.core n out) (cand % 4) && (s.link (.core n out)).room &&
      !(decide (cand = 0) && (s.core n).noticesOut)

/-- The candidates of an output in the order of their turn: after the one it granted last, in ascending number and wrapping (R186). -/
def Core.turns (c : Core) (out : Nat) : List Nat :=
  (List.range 20).map fun i => (Sparse.get 19 c.router.granted out + 1 + i) % 20

/-- An output of core `n`'s router grants the first eligible candidate and forwards its block; with none it returns credits or
acknowledges (R174, R186). -/
def State.grantOut (s : State) (n out : Nat) : State :=
  match ((s.core n).turns out).find? fun k => s.eligible n out k with
  | none => s.updLink (.core n out) Link.rest
  | some k =>
    match Sparse.get [] (s.core n).router.inb k with
    | [] => s
    | x :: l =>
      (s.updCore n fun c =>
        let c1 := c.setInBuf (k / 4) (k % 4) (paidHead s.now out (x :: l))
        { c1 with router := { c1.router with granted := Sparse.set 19 c1.router.granted out k } }).updLink (.core n out) fun y =>
          y.send (some x.body)

/-- The head block of an input that owes the local port a copy. -/
def Core.localHead (c : Core) (port cls : Nat) : Option Entry :=
  match c.inBuf port cls with
  | [] => none
  | e :: _ => if e.owes.contains 0 then some e else none

/-- The local copy of a head block has been taken. -/
def Core.tookHead (c : Core) (now port cls : Nat) : Core := c.setInBuf port cls (paidHead now 0 (c.inBuf port cls))

end Sys2Proof.Machine
end

