-- ==== Sys2Proof/Machine/Clasps.lean ====
section
/-!
DEFINITION. Clasps (R218 to R228): the nodes' rounds, the messages between neighbours, the instructions cl.arr, cl.wait and
cl.test, and the lease.
-/
namespace Sys2Proof.Machine

/-! ### Nodes -/

/-- Clasp node `k` of a core. -/
def Core.clasp (c : Core) (k : Nat) : Clasp := Sparse.get .reset c.clasps k
/-- Clasp node `k` changed. -/
def Core.updClasp (c : Core) (k : Nat) (f : Clasp → Clasp) : Core :=
  { c with clasps := Sparse.put c.clasps k (f (c.clasp k)) }

/-- The last round of a member thread; 3 at section start (R220). -/
def Clasp.lastOf (k : Clasp) (t : Nat) : Nat := Sparse.get 3 k.last t
/-- The open round is full (R221). -/
def Clasp.full (k : Clasp) : Bool :=
  decide (k.thrArr &&& k.threads = k.threads) && decide (k.childArr &&& k.children = k.children)
/-- The node takes part in rounds. -/
def Clasp.live (k : Clasp) : Bool := k.valid && !k.overrun

/-- The cl.test word (the register at 0x700 + 4c). -/
def Clasp.word (k : Clasp) : Nat :=
  k.openRound + 16 * b2n k.sent + 32 * b2n k.valid + 64 * b2n k.overrun + 256 * k.thrArr + 2 ^ 16 * k.childArr +
    2 ^ 20 * k.thrNext + 2 ^ 28 * k.childNext

/-- The open round closes: the next one opens with the arrivals counted apart (R221). -/
def Clasp.advance (k : Clasp) : Clasp :=
  { k with openRound := (k.openRound + 1) % 4, thrArr := k.thrNext, childArr := k.childNext, thrNext := 0, childNext := 0,
           sent := false }

/-! ### Messages and rounds -/

/-- A clasp message to the neighbour in direction `d`: a control block that waits to enter the mesh (R226). -/
def State.claspSend (s : State) (n d : Nat) (release : Bool) (k round : Nat) : State :=
  match nbrIn s.md.remap n d with
  | none => s
  | some m =>
    s.updCore n fun c => { c with ctrlOut := c.ctrlOut ++
      [⟨0, m, n, 0, .clasp ⟨oppDir d, release, k, round, c.rd CR.ACTIVE_EPOCH, c.secTick % 16⟩⟩] }

/-- ARRIVE for the open round leaves for the parent and SENT sets. -/
def State.claspLeave (s : State) (n k : Nat) : State :=
  let z := (s.core n).clasp k
  (s.claspSend n (z.parent - 1) false k z.openRound).updCore n fun c => c.updClasp k fun z => { z with sent := true }

/-- ARRIVE for the open round: behind bezel notices, or behind an arrival held, it stays in its node, with the number of tokens and signals
that the core issued before it and that have not left (R107). -/
def State.claspArrive (s : State) (n k : Nat) : State :=
  let c := s.core n
  if c.heldArr.any fun a => decide (a.1 = k) then s
  else if c.noticesOut || decide (c.heldArr ≠ []) then
    s.updCore n fun c => { c with heldArr := c.heldArr ++ [(k, (c.inBuf 0 0).length)] }
  else s.claspLeave n k

/-- The section of a core enters CLOSING at the first completion of its final clasp, and its epoch timer starts
(R55, R225). -/
def Core.claspClosing (c : Core) (k : Nat) : Core :=
  if k = c.finalClasp ∧ c.sec = .running then { c with sec := .closing, finalDone := true, epochTimer := true } else c

/-- Node `k` of core `n` completes its open round (R221). -/
def State.claspComplete (s : State) (n k : Nat) : State :=
  let z := (s.core n).clasp k
  let s1 := ((List.range 4).filter fun d => z.children.testBit d).foldl
    (fun s d => s.claspSend n d true k z.openRound) s
  s1.updCore n fun c => (c.updClasp k Clasp.advance).claspClosing k

/-- A full node sends its arrival to its parent, or as the root completes the round and goes on with the next (R221).
A round can follow the one completed only with the arrivals counted apart, so two passes end it. -/
def State.claspRun (s : State) (n k : Nat) : Nat → State
  | 0 => s
  | i + 1 =>
    let z := (s.core n).clasp k
    if z.live && z.full && !z.sent then
      if z.parent = 0 then (s.claspComplete n k).claspRun n k i else s.claspArrive n k
    else s

/-- The node looks at its open round. -/
def State.claspStep (s : State) (n k : Nat) : State := s.claspRun n k 3

/-- Held arrivals leave when every bezel notice is acknowledged, in order with the tokens and signals issued before them (R107). -/
def State.releaseArrivals (s : State) (n : Nat) : State :=
  let c := s.core n
  if c.noticesOut then s
  else
    let due := c.heldArr.takeWhile fun a => decide (a.2 = 0)
    due.foldl (fun s a => s.claspLeave n a.1) (s.updCore n fun c => { c with heldArr := c.heldArr.drop due.length })

/-- How an arrival's round lies to the open one (R220): 0 counted, 1 counted apart, 2 or 3 saturates. -/
def Clasp.ahead (k : Clasp) (round : Nat) : Nat := (round + 4 - k.openRound) % 4

/-! ### cl.arr, cl.wait, cl.test -/

/-- Thread `t` is a member of node `k`. -/
def Clasp.member (k : Clasp) (t : Nat) : Bool := k.valid && k.threads.testBit t

/-- cl.arr: the thread arrives for its next round (R220). -/
def execClArr (n : Nat) (t : BitVec 3) (d : BitVec 4) (pg : BitVec 3) (s : State) : Out :=
  let w := wordG 0x2D d.toNat 0 0 pg.toNat 0x01
  let k := d.toNat
  .next (issueG n t pg w (fun s1 =>
    let c := s1.core n
    let z := c.clasp k
    let i := t.toNat
    if !z.member i then s1.threadFault n i fltClaspMember 0 false w
    else
      let r := (z.lastOf i + 1) % 4
      let z1 := { z with last := Sparse.put z.last i r, lastPc := Sparse.put z.lastPc i (c.thread i).pc,
                         lastInsn := Sparse.put z.lastInsn i w }
      let go (z : Clasp) : State := ((s1.updCore n fun c => c.updClasp k fun _ => z).retire n i id).claspStep n k
      if z.overrun then go z1
      else
        match z.ahead r with
        | 0 => go { z1 with thrArr := setBit z.thrArr i true }
        | 1 => go { z1 with thrNext := setBit z.thrNext i true }
        | _ => (s1.updCore n fun c => c.updClasp k fun _ => { z1 with overrun := true }).threadFault n i fltClaspOverrun 0
            false w) s)

/-- cl.wait: satisfied when the round the thread last arrived at has completed at the node (R223). -/
def execClWait (n : Nat) (t : BitVec 3) (d : BitVec 4) (pg : BitVec 3) (s : State) : Out :=
  let w := wordG 0x2D d.toNat 0 0 pg.toNat 0x02
  .next (issueG n t pg w (fun s1 =>
    let z := (s1.core n).clasp d.toNat
    if !z.member t.toNat then s1.threadFault n t.toNat fltClaspMember 0 false w
    else if z.openRound = (z.lastOf t.toNat + 1) % 4 then s1.retire n t.toNat id
    else s1.spin n t.toNat .clasp) s)

/-- cl.test: g[d] ← the status word of clasp a[3:0]. -/
def execClTest (n : Nat) (t : BitVec 3) (d : BitVec 5) (a : BitVec 4) (pg : BitVec 3) (s : State) : Out :=
  .next (issueG n t pg (wordG 0x2D d.toNat a.toNat 0 pg.toNat 0x03) (fun s1 => s1.updCore n fun c =>
    c.retire t.toNat fun th => th.wg d (BitVec.ofNat 32 (c.clasp a.toNat).word)) s)

/-! ### Arrivals and releases from neighbours (R221, R226) -/

/-- A clasp message is discarded and counted (R226). -/
def Core.claspLate (c : Core) : Core := c.countSat CR.CLASP_LATE CR.CLASP_LATE_SAT 1

/-- The message is of the active section: EPOCH and TTAG match (R226). -/
def Core.claspNow (c : Core) (m : ClaspMsg) : Bool :=
  c.inSection && decide (m.epoch = c.rd CR.ACTIVE_EPOCH) && decide (m.ttag = c.secTick % 16)

/-- The message is of the core's next section (R226, R443). -/
def Core.claspNext (c : Core) (m : ClaspMsg) : Bool :=
  match c.next with
  | some x => decide (m.epoch = x.epoch) && decide (m.ttag = x.tick % 16)
  | none => false

/-- The oldest message from direction `d`, taken out, if it is of the kind the event names: messages of one neighbour
arrive in order. -/
def Core.claspTake (c : Core) (d : Nat) (release : Bool) : Option (ClaspMsg × Core) :=
  match c.claspIn.find? fun m => decide (m.fromDir = d) with
  | none => none
  | some m => if m.release = release then some (m, { c with claspIn := c.claspIn.erase m }) else none

/-- CLASP_ARRIVE: ARRIVE from the child in direction `d` is classified by its round, held early for the next section, or
discarded (R220, R226). -/
def execClaspArrive (n d : Nat) (s : State) : Out :=
  .next <| match (s.core n).claspTake d false with
  | none => s
  | some (m, c) =>
    let z := c.clasp m.clasp
    let at_ (c : Core) : State := s.setCore n c
    let child (f : Clasp → Clasp) : State := (at_ (c.updClasp m.clasp f)).claspStep n m.clasp
    if c.claspNow m then
      if !z.valid || !z.children.testBit d then at_ c.claspLate
      else if z.overrun then at_ c
      else
        match z.ahead m.round with
        | 0 => child fun z => { z with childArr := setBit z.childArr d true }
        | 1 => child fun z => { z with childNext := setBit z.childNext d true }
        | _ => (at_ (c.updClasp m.clasp fun z => { z with overrun := true })).unitFault n (.ofUnit 4 fltClaspOverrun 0)
    else if c.claspNext m && decide (m.round = 0) then
      at_ (c.updClasp m.clasp fun z => { z with early := z.early ++ [m] })
    else at_ c.claspLate

/-- CLASP_RELEASE: RELEASE from the parent, in direction `d`, completes the round (R221). -/
def execClaspRelease (n d : Nat) (s : State) : Out :=
  .next <| match (s.core n).claspTake d true with
  | none => s
  | some (m, c) =>
    let z := c.clasp m.clasp
    if c.claspNow m && z.valid && decide (z.parent = d + 1) && decide (m.round = z.openRound) then
      if z.overrun then s.setCore n c else ((s.setCore n c).claspComplete n m.clasp).claspStep n m.clasp
    else s.setCore n c.claspLate

/-- CLASP_LEASE_EXPIRY: the open round of a node has waited 2^CLASP_LEASE_LOG2 MCLK with an arrival counted and SENT clear;
the region records FLT_CLASP_LEASE with the inputs missing and aborts the tick (R227). -/
def execClaspLeaseExpiry (n k : Nat) (s : State) : Out :=
  let c := s.core n
  let z := c.clasp k
  .next <|
    if c.inSection && z.valid && !z.sent && (decide (z.thrArr ≠ 0) || decide (z.childArr ≠ 0)) then
      (s.updRegion (regionOf n) fun g =>
        if g.rd RR.LEASE_VALID = 0 then
          g.wrs [(RR.LEASE_VALID, 1), (RR.LEASE_CLASP, k), (RR.LEASE_ROUND, z.openRound), (RR.LEASE_CORE, n),
                 (RR.MISSING_CHILDREN, z.children - (z.children &&& z.childArr)),
                 (RR.MISSING_THREADS, z.threads - (z.threads &&& z.thrArr))]
        else g).sendAbort (.ofRegion (regionOf n) logClaspLease)
    else s

/-! ### Section start and abort -/

/-- The number in bytes `a` to `a + len - 1` of a context image. -/
def imgNat (img : Sparse Byte) (a len : Nat) : Nat := leNat (Sparse.slice 0 img a len)

/-- A membership word passes the checks of R219. -/
def claspWordOk (ds : List Phys) (n v : Nat) : Bool :=
  let parent := bits v 10 8
  let children := bits v 15 12
  let gone (d : Nat) : Bool := (nbrIn ds n d).isNone
  decide (parent ≤ 4) && !(decide (0 < parent) && gone (parent - 1)) &&
    ((List.range 4).all fun d => !(children.testBit d && gone d)) &&
    !(decide (0 < parent) && children.testBit (parent - 1)) &&
    !(decide (bits v 7 0 = 0) && decide (children = 0)) && !v.testBit 11 && decide (v / 2 ^ 17 = 0)

/-- The node that a membership word makes at section start (R218). -/
def Clasp.ofWord (v : Nat) : Clasp :=
  if v.testBit 16 then
    { Clasp.reset with threads := bits v 7 0, parent := bits v 10 8, children := bits v 15 12, valid := true }
  else .reset

/-- An arrival that was held early, at section start: counted into round 0 of its node if it is of this section, and otherwise discarded and
counted, as it would be on arrival now (R226). -/
def Core.claspEarly (c : Core) (m : ClaspMsg) : Core :=
  let z := c.clasp m.clasp
  if c.claspNow m && z.valid && z.children.testBit m.fromDir then
    c.updClasp m.clasp fun z => { z with childArr := setBit z.childArr m.fromDir true }
  else c.claspLate

/-- Clasp membership taken from a context image, with the arrivals held early (R38, R218, R226). -/
def Core.claspSetup (c : Core) (img : Sparse Byte) : Core :=
  let early := (List.range 16).flatMap fun k => (c.clasp k).early
  early.foldl Core.claspEarly
    ((List.range 16).foldl (fun c k => c.updClasp k fun _ => Clasp.ofWord (imgNat img (0x580 + 8 * k) 8)) c)

/-- Whether some membership word of a context image fails R219, the final clasp's among them. -/
def claspsBad (ds : List Phys) (n final : Nat) (img : Sparse Byte) : Bool :=
  ((List.range 16).any fun k =>
    let v := imgNat img (0x580 + 8 * k) 8
    v.testBit 16 && !claspWordOk ds n v) || !(imgNat img (0x580 + 8 * final) 8).testBit 16

/-- What an abort or a reset of the core does to its nodes (R228). -/
def Core.claspAbort (c : Core) : Core :=
  let c1 := (List.range 16).foldl (fun c k => c.updClasp k fun z =>
    { z with openRound := 0, thrArr := 0, childArr := 0, thrNext := 0, childNext := 0, last := [], lastPc := [],
             lastInsn := [], sent := false, overrun := false, early := [] }) c
  { c1 with heldArr := [] }.wr CR.CLASP_GEN (c1.rd CR.CLASP_GEN + 1)

/-! ### The grant of a router output -/

/-- BLOCK_FORWARD: output `out` of core `n`'s router grants its next block; what waits to enter the mesh here enters first, clasp arrivals
that bezel notices held among it (R107, R186). -/
def execBlockForward (n out : Nat) (s : State) : Out :=
  .next (if (linkDest s.md.remap n out).isSome then ((s.releaseArrivals n).enter n).grantOut n out else s)

end Sys2Proof.Machine
end

