-- ==== Sys2Proof/Machine/Channels.lean ====
section
/-!
DEFINITION. Channels, queues and signals (07, 08): route entries and sends, the arrival of tokens and signals at their
destination with the epoch check of R54, PLAIN and combining queues, the hold table, and the progress watchdog.
-/
namespace Sys2Proof.Machine

/-! ### Queues -/

/-- Queue `q` of a core. -/
def Core.queue (c : Core) (q : Nat) : Queue := Sparse.get .reset c.queues q
/-- Queue `q` changed. -/
def Core.updQueue (c : Core) (q : Nat) (f : Queue → Queue) : Core := { c with queues := Sparse.put c.queues q (f (c.queue q)) }
/-- The slot of a sequence in a combining queue, if it is taken (R198). -/
def Queue.slot (q : Queue) (s : Nat) : Option CombSlot := (q.slots.find? fun e => e.1 = s % q.depth).map (·.2)
/-- A slot holds all its contributions. -/
def Queue.complete (q : Queue) (s : Nat) : Bool :=
  match q.slot s with
  | some x => decide (x.seq = s) && decide (x.count = q.ncontrib)
  | none => false
/-- The complete slots from the lowest sequence not read on, counted without a gap (R198). -/
def Queue.run (q : Queue) (s : Nat) : Nat → Nat
  | 0 => 0
  | n + 1 => if q.complete s then 1 + q.run (s + 1) n else 0
/-- Tokens held: stored tokens of a ring, or complete slots (ch.count, OCCUPANCY). -/
def Queue.held (q : Queue) : Nat := if q.mode = 0 then q.wr - q.rdn else q.run q.low q.depth
/-- Blocks a queue still keeps from its senders: stored tokens, or contributions accepted and not read (R37, R193). -/
def Queue.stored (q : Queue) : Nat :=
  if q.mode = 0 then q.wr - q.rdn else q.slots.foldl (fun a e => a + e.2.count) 0
/-- A queue emptied. -/
def Queue.drain (q : Queue) : Queue := { q with rdn := q.wr, slots := [] }
/-- The queue takes no tokens: unused or CLOSED (R193). -/
def Queue.shut (q : Queue) : Bool := decide (q.depth = 0) || q.closed

/-- Tokens or signals of queue `q` sunk or discarded: counted at the core and for the region's report (R193). -/
def State.countSunk (s : State) (n q k : Nat) : State :=
  if k = 0 then s
  else (s.updCore n fun c => c.countSat (CR.CLOSED_SUNK.at (8 * q)) (CR.SUNK_SAT.at (8 * q)) k).updRegion (regionOf n) fun g =>
    { g with sunk := g.sunk + k, chanClosedSeen := true }

/-- A late token or signal: sunk and counted (R54). -/
def State.countLate (s : State) (n : Nat) : State :=
  (s.updCore n fun c => c.countSat CR.LATE_TOKENS CR.LATE_SAT 1).updRegion (regionOf n) fun g => { g with lateSeen := true }

/-! ### Held signals (R213 to R216) -/

/-- The arrival counter a held signal waits on. -/
def Core.arrivalsOf (c : Core) (onBezel : Bool) (which : Nat) : Nat :=
  if onBezel then (Sparse.get .reset c.bezels which).arrivals else (c.queue which).arrivals

/-- Every held signal whose counter has reached its COUNT is released (R213). -/
def Core.releaseHeld (c : Core) : Core :=
  let done (h : Held) : Bool := decide (h.count ≤ c.arrivalsOf h.onBezel h.which)
  (c.hold.filter done).foldl (fun c h => c.signal h.thread) { c with hold := c.hold.filter fun h => !done h }

/-- A signal held against a bezel whose generation has advanced is discarded and raises FLT_SIGNAL_ORPHAN (R216). -/
def State.orphans (s : State) (n : Nat) : State :=
  let c := s.core n
  let lost (h : Held) : Bool := h.onBezel && decide (h.gen ≠ (Sparse.get .reset c.bezels h.which).gen)
  (c.hold.filter lost).foldl (fun s _ => s.unitFault n (.ofUnit 4 fltSignalOrphan 0))
    (s.updCore n fun c => { c with hold := c.hold.filter fun h => !lost h })

/-- One arrival at a queue: its counter saturates with its flag, and held signals look at it (R214). -/
def Core.arrived (c : Core) (q : Nat) : Core :=
  let a := (c.queue q).arrivals
  let c1 := c.updQueue q fun z => { z with arrivals := min (a + 1) 0xFFFFFF }
  (if a + 1 < 0xFFFFFF then c1 else c1.wr (CR.QARR_SAT.at (4 * q)) 1).releaseHeld

/-! ### Routes and sends (R187, R188) -/

/-- A route entry (R187). -/
structure Route where
  kind : Nat
  destQ : Nat
  dest : Nat
  hub : Nat
  endpoint : Nat
  xBase : Nat
  yBase : Nat
  colMask : Nat
  rowMask : Nat
  rsv : Nat
  deriving DecidableEq, Repr

/-- The route entry of queue `q` in a context image. -/
def Route.ofImage (img : Sparse Byte) (q : Nat) : Route :=
  let w0 := imgNat img (0x20 * q) 4
  let w1 := imgNat img (0x20 * q + 4) 4
  ⟨bits w0 2 0, bits w0 7 3, bits w0 26 8, bits w1 1 0, bits w1 31 16, imgNat img (0x20 * q + 8) 2,
   imgNat img (0x20 * q + 10) 2, imgNat img (0x20 * q + 16) 8, imgNat img (0x20 * q + 24) 8,
   bits w0 31 27 + bits w1 15 2 + imgNat img (0x20 * q + 12) 4⟩

/-- A route entry is invalid (R188). Kinds 4 to 7 name no route and count as NONE (log 11). -/
def Route.bad (ds : List Phys) (r : Route) : Bool :=
  decide (r.rsv ≠ 0) ||
  match r.kind with
  | 1 => decide (numCores ≤ r.dest) || absentIn ds r.dest
  | 2 =>
    let xs := maskPos r.xBase r.colMask
    let ys := maskPos r.yBase r.rowMask
    (decide (r.colMask = 0) && decide (r.rowMask = 0)) || xs.any (fun x => decide (576 ≤ x)) ||
      ys.any (fun y => decide (504 ≤ y)) || xs.any fun x => ys.any fun y => absentIn ds (coreAt x y)
  | 3 => decide (r.destQ ≠ 0)
  | _ => true

/-- ROUTE_BAD of a context image (R188). -/
def routesBad (ds : List Phys) (img : Sparse Byte) : Nat :=
  (List.range 32).foldl (fun a q => if (Route.ofImage img q).bad ds then a + 2 ^ q else a) 0

/-- The image of the active slot. -/
def Core.activeImage (c : Core) : Sparse Byte := (Sparse.get .reset c.slots (c.rd CR.ACTIVE_SLOT)).image

/-- A signed 16-bit field as an integer. -/
def sint16 (v : Nat) : Int := (BitVec.ofNat 16 v).toInt

/-- The EBLK that sends through route `q` carry: SEND_EXP clamped to -149 to 127 (register table of 07). A sender knows no mode of the
destination's queue, so every send carries it; SEND_EXP is 0 unless an AIR program wrote it (DEDUCED, log 80). -/
def Core.sendExp (c : Core) (q : Nat) : Int := max (-149) (min 127 (sint16 (c.rd (CR.SEND_EXP.at (4 * q)))))

/-- The header of a block sent through route `q` by core `n` (R179, R187, R188, R212). -/
def Core.cdHead (c : Core) (n q : Nat) (signal : Bool) : CdHead :=
  let r := Route.ofImage c.activeImage q
  let mc := decide (r.kind = 2)
  { signal := signal, epoch := c.rd CR.ACTIVE_EPOCH, kind := r.kind - 1, destQ := r.destQ,
    dest := if r.kind = 1 then r.dest else 0, hub := r.hub, endpoint := r.endpoint, src := n, srcQ := q,
    seq := Sparse.get 0 c.routes q, eblk := if signal then 0 else c.sendExp q,
    xBase := if mc then r.xBase else 0, yBase := if mc then r.yBase else 0,
    colMask := if mc then r.colMask else 0, rowMask := if mc then r.rowMask else 0 }

/-- A token or signal sent through route `q`: an invalid route faults, a full local input spins, a token consumes its
SEQ (R188, R212). -/
def State.chSend (s : State) (n : Nat) (t : BitVec 3) (w q : Nat) (signal : Bool) (body : Row) : State :=
  let c := s.core n
  if (c.rd CR.ROUTE_BAD).testBit q then s.threadFault n t.toNat fltRoute 0 false w
  else if !c.localRoom 0 then s.spin n t.toNat .spin
  else
    let h := c.cdHead n q signal
    let s1 := s.inject n (.cd h body)
    (if signal then s1
     else s1.updCore n fun c => { c with routes := Sparse.set 0 c.routes q ((h.seq + 1) % 2 ^ 16) }).retire n t.toNat id

/-- ch.send: one token holding v[a] through the route of queue Qd. -/
def execChSend (n : Nat) (t : BitVec 3) (d : BitVec 5) (a : BitVec 4) (pg : BitVec 3) (s : State) : Out :=
  let w := wordG 0x2A d.toNat a.toNat 0 pg.toNat 0x01
  .next (issueG n t pg w (fun s1 => s1.chSend n t w d.toNat false (((s1.core n).thread t.toNat).rv a)) s)

/-- ch.sendg: one token with g[a] in bytes 0 to 3. -/
def execChSendg (n : Nat) (t : BitVec 3) (d a : BitVec 5) (pg : BitVec 3) (s : State) : Out :=
  let w := wordG 0x2A d.toNat a.toNat 0 pg.toNat 0x02
  .next (issueG n t pg w (fun s1 => s1.chSend n t w d.toNat false ((s1.gOf n t a).setWidth 512)) s)

/-- sig.cnt: a counted signal with signal word g[a] on the route of queue Qd (R211, R212). -/
def execSigCnt (n : Nat) (t : BitVec 3) (d a : BitVec 5) (pg : BitVec 3) (s : State) : Out :=
  let w := wordG 0x2C d.toNat a.toNat 0 pg.toNat 0x03
  .next (issueG n t pg w (fun s1 => s1.chSend n t w d.toNat true ((s1.gOf n t a).setWidth 512)) s)

/-! ### Receiving (R191, R198) -/

/-- The next token of queue `q`, taken out, if it holds one: its read is granted, and an uncorrectable row names its word (R100, R191). -/
def Core.takeToken (c : Core) (q : Nat) : Option (Except Nat Row × Core) :=
  let z := c.queue q
  if z.mode = 0 then
    if z.wr ≤ z.rdn then none
    else
      match (c.updQueue q fun z => { z with rdn := z.rdn + 1 }).readSpad (64 * (z.base + z.rdn % z.depth)) 64 with
      | (.error w, c1) => some (.error w, c1)
      | (.ok bs, c1) => some (.ok (Row.ofBytes bs), c1)
  else if z.complete z.low then
    match z.slot z.low with
    | none => none
    | some x => some (.ok x.acc, c.updQueue q fun z =>
        { z with slots := Sparse.erase z.slots (z.low % z.depth), low := z.low + 1 })
  else none

/-- A receiving instruction. -/
def State.chRecv (s : State) (n : Nat) (t : BitVec 3) (w q : Nat) (f : Row → Thread → Thread) : State :=
  match (s.core n).takeToken q with
  | none => s.spin n t.toNat .spin
  | some (.error e, c) => (s.setCore n c).threadFault n t.toNat fltSpadUncorrectable (e * 8) false w
  | some (.ok r, c) => (s.setCore n c).retire n t.toNat (f r)

/-- ch.recv: v[d] ← the token of queue Qb, which is removed. -/
def execChRecv (n : Nat) (t : BitVec 3) (d : BitVec 4) (b : BitVec 5) (pg : BitVec 3) (s : State) : Out :=
  let w := wordG 0x2A d.toNat 0 b.toNat pg.toNat 0x03
  .next (issueG n t pg w (fun s1 => s1.chRecv n t w b.toNat fun r th => th.wv d r) s)

/-- ch.recvg: g[d] ← bytes 0 to 3 of the token of queue Qb, which is removed. -/
def execChRecvg (n : Nat) (t : BitVec 3) (d b : BitVec 5) (pg : BitVec 3) (s : State) : Out :=
  let w := wordG 0x2A d.toNat 0 b.toNat pg.toNat 0x04
  .next (issueG n t pg w (fun s1 => s1.chRecv n t w b.toNat fun r th => th.wg d (r.setWidth 32)) s)

/-- ch.close: queue Qb becomes CLOSED, its generation advances, and its tokens and the signals held against it are discarded
and counted (R193, R216). -/
def execChClose (n : Nat) (t : BitVec 3) (b : BitVec 5) (pg : BitVec 3) (s : State) : Out :=
  .next (issueG n t pg (wordG 0x2A 0 0 b.toNat pg.toNat 0x05) (fun s1 =>
    let q := b.toNat
    let c := s1.core n
    let gone (h : Held) : Bool := !h.onBezel && decide (h.which = q)
    let k := (c.queue q).stored + (c.hold.filter gone).length
    ((s1.updCore n fun c =>
      { c.updQueue q fun z => { z.drain with closed := true, gen := (z.gen + 1) % 16 } with
        hold := c.hold.filter fun h => !gone h }).countSunk n q k).retire n t.toNat id) s)

/-- ch.count: g[d] ← tokens held in Qb. -/
def execChCount (n : Nat) (t : BitVec 3) (d b : BitVec 5) (pg : BitVec 3) (s : State) : Out :=
  .next (issueG n t pg (wordG 0x2A d.toNat 0 b.toNat pg.toNat 0x06) (fun s1 => s1.updCore n fun c =>
    c.retire t.toNat fun th => th.wg d (BitVec.ofNat 32 (c.queue b.toNat).held)) s)

/-! ### Signals within a core (R209, R210) -/

/-- sig.t: signals thread d[2:0] of this core. -/
def execSigT (n : Nat) (t : BitVec 3) (d : BitVec 3) (pg : BitVec 3) (s : State) : Out :=
  .next (issueG n t pg (wordG 0x2C d.toNat 0 0 pg.toNat 0x01)
    (fun s1 => (s1.retire n t.toNat id).updCore n fun c => c.signal d.toNat) s)

/-- sig.wait: waits until the thread's signal counter is non-zero, then decrements it. -/
def execSigWait (n : Nat) (t : BitVec 3) (pg : BitVec 3) (s : State) : Out :=
  .next (issueG n t pg (wordG 0x2C 0 0 0 pg.toNat 0x02) (fun s1 =>
    if ((s1.core n).thread t.toNat).sig = 0 then s1.spin n t.toNat .spin
    else s1.retire n t.toNat fun th => { th with sig := th.sig - 1 }) s)

/-- sig.test: g[d] ← the thread's signal counter. -/
def execSigTest (n : Nat) (t : BitVec 3) (d : BitVec 5) (pg : BitVec 3) (s : State) : Out :=
  .next (issueGT n t pg (wordG 0x2C d.toNat 0 0 pg.toNat 0x04) (fun th => th.wg d (BitVec.ofNat 32 th.sig)) s)

/-! ### Blocks waiting at their destination (R54, R193) -/

/-- The queue of a token or signal block. -/
def Payload.destQ : Payload → Nat
  | .cd h _ => h.destQ
  | _ => 0

/-- An earlier block that a later one must not pass: of the same queue, or of the same source and route (R185, R38). -/
def Payload.bars (a b : Payload) : Bool :=
  match a, b with
  | .cd h _, .cd k _ => decide (h.destQ = k.destQ) || (decide (h.src = k.src) && decide (h.srcQ = k.srcQ))
  | _, _ => false

/-- The first block of a list that no earlier one of the list bars and that a test chooses. -/
def firstFree (p : Entry → Bool) : List Entry → List Entry → Option Entry
  | _, [] => none
  | before, e :: l =>
    if p e && !(before.any fun b => b.body.bars e.body) then some e else firstFree p (before ++ [e]) l

/-- The blocks of the early buffer that a section start has released. -/
def Core.earlyReleased (c : Core) : List Entry := c.early.filter fun e => e.tag.isSome

/-- The block at hand at an input: the head of a channel-data input that owes the local port a copy and that no released
early block bars, or, at input 5, the first released early block that a test chooses. What the core itself sends waits
behind its bezel notices (R107). -/
def Core.atInput (c : Core) (port : Nat) (p : Entry → Bool) : Option Entry :=
  if port = 5 then firstFree p [] c.earlyReleased
  else if port = 0 && c.noticesOut then none
  else
    match c.localHead port 0 with
    | none => none
    | some e => if p e && !(c.earlyReleased.any fun b => b.body.bars e.body) then some e else none

/-- The block at hand has been taken. -/
def Core.tookInput (c : Core) (now port : Nat) (e : Entry) : Core :=
  if port = 5 then { c with early := c.early.erase e } else c.tookHead now port 0

/-- The head of an input is tagged with its queue's generation. -/
def Core.tagHead (c : Core) (port gen : Nat) : Core :=
  match c.inBuf port 0 with
  | [] => c
  | e :: l => c.setInBuf port 0 ({ e with tag := some gen } :: l)

/-- What the epoch check of R54 says of a block. -/
inductive EpochIs where
  | active | next | late
  deriving DecidableEq, Repr

/-- The epoch check (R54). -/
def Core.epochCheck (c : Core) (epoch : Nat) : EpochIs :=
  if c.inSection && decide (epoch = c.rd CR.ACTIVE_EPOCH) then .active
  else
    match c.next with
    | some x => if x.epoch = epoch then .next else .late
    | none => .late

/-- The epoch check of a block at core `n`. A lost core and one of an eclipsed region sink every block (R372, R401). A block of a hub carries
no section's epoch: it is of the active one where there is one (R246; DEDUCED, log 81). -/
def State.epochIs (s : State) (n : Nat) (h : CdHead) : EpochIs :=
  let c := s.core n
  if c.lost || s.eclipsed (regionOf n) then .late
  else if h.kind = 3 then (if c.inSection then .active else .late)
  else c.epochCheck h.epoch

/-- A block of the next epoch goes into the early buffer of four, or stays at its input (R54). -/
def State.holdEarly (s : State) (n port : Nat) (e : Entry) : State :=
  s.updCore n fun c =>
    if c.early.length < 4 then
      { c.tookHead s.now port 0 with early := c.early ++ [{ e with owes := [0], tag := none }] }
    else c.wr CR.EARLY_FULL_SEEN 1

/-- A block is a token. -/
def Entry.isToken (e : Entry) : Bool := match e.body with | .cd h _ => !h.signal | _ => false
/-- A block is a signal. -/
def Entry.isSignal (e : Entry) : Bool := match e.body with | .cd h _ => h.signal | _ => false

/-- TOKEN_ARRIVAL: the token at the head of input `port` of its destination is checked against the epochs and then against
its queue: it waits for its queue tagged with the queue's generation, is held early, or is sunk (R54, R193). -/
def execTokenArrival (n port : Nat) (s : State) : Out :=
  .next <| match (s.core n).atInput port fun e => e.isToken && e.tag.isNone with
  | some e =>
    match e.body with
    | .cd h _ =>
      let s1 := s.updCore n Core.progress
      match s1.epochIs n h with
      | .late => (s1.updCore n fun c => c.tookHead s.now port 0).countLate n
      | .next => s1.holdEarly n port e
      | .active =>
        let z := (s1.core n).queue h.destQ
        if z.shut then (s1.updCore n fun c => c.tookHead s.now port 0).countSunk n h.destQ 1
        else s1.updCore n fun c => c.tagHead port z.gen
    | _ => s
  | none => s

/-- A tagged token for a queue in a mode of the kind the event names. -/
def Core.tokenFor (c : Core) (plain : Bool) (e : Entry) : Bool :=
  e.isToken && e.tag.isSome && (decide ((c.queue e.body.destQ).mode = 0) == plain)

/-- TOKEN_LANDING: a waiting token is written to its PLAIN ring, if it has room, or is sunk if the queue's generation has
advanced; held signals then see the arrival (R191, R193, R213). Input 5 is the early buffer. -/
def execTokenLanding (n port : Nat) (s : State) : Out :=
  let c := s.core n
  .next <| match c.atInput port (c.tokenFor true) with
  | some e =>
    match e.body with
    | .cd h row =>
      let z := c.queue h.destQ
      if e.tag ≠ some z.gen then (s.updCore n fun c => c.tookInput s.now port e).countSunk n h.destQ 1
      else if z.depth ≤ z.wr - z.rdn then s
      else
        match (c.tookInput s.now port e).writeRow (64 * (z.base + z.wr % z.depth)) row fullMask with
        | (_, c1) => s.setCore n ((c1.updQueue h.destQ fun z => { z with wr := z.wr + 1 }).arrived h.destQ)
    | _ => s
  | none => s

/-! ### Combining queues (R198 to R203) -/

/-- The full sequence number of a contribution: SEQ extended around L; none if it was already read (R199). -/
def fullSeq (low seq : Nat) : Option Nat :=
  let d := (seq + 2 ^ 16 - low % 2 ^ 16) % 2 ^ 16
  if d < 2 ^ 15 then some (low + d) else none

/-- Element `i` of a row in a format of 32 or 16 bits. -/
def rowElem (wide : Bool) (r : Row) (i : Nat) : Nat :=
  if wide then (r.lane i).toNat else (r.extractLsb' (16 * i) 16 : BitVec 16).toNat

/-- The row of elements of 32 or 16 bits, lowest first. -/
def rowOfElems (wide : Bool) (l : List Nat) : Row := Row.ofBytes (l.flatMap fun v => leBytes (if wide then 4 else 2) v)

/-- A lane of an AIR contribution converted to its aligned integer, and whether it was clipped (R201). -/
def airLane (x : FV) (e : Int) : Int × Bool :=
  if x.isZero then (0, false)
  else if e + 1 ≤ x.log2 then (if x.sign then -(2 ^ 31 - 1) else 2 ^ 31 - 1, true)
  else ((x.truncTo (e - 30)).atExp (e - 30), false)

/-- A lane of a float mode after one more contribution (R201, R202), and whether it was clipped. -/
def CombLane.air (l : CombLane) (x : FV) (e : Int) : CombLane × Bool :=
  match x with
  | .nan => ({ l with nan := true }, false)
  | .inf neg => (if neg then { l with ninf := true } else { l with pinf := true }, false)
  | y => let a := airLane y e; ({ l with sum := l.sum + a.1 }, a.2)

/-- The finished value of an AIR lane (R201, R202). -/
def CombLane.value (l : CombLane) (e : Int) : FV :=
  if l.nan || (l.pinf && l.ninf) then .nan
  else if l.pinf then .inf false
  else if l.ninf then .inf true
  else FV.ofInt l.sum (e - 30)

/-- A contribution added to a slot: the slot, the lanes clipped, the numeric events (R200 to R202). -/
def CombSlot.add (x : CombSlot) (mode : Nat) (row : Row) : CombSlot × Nat × Events :=
  let ints (f : Int → Int → Int) : CombSlot × Nat × Events :=
    ({ x with count := x.count + 1, lanes := x.lanes.mapIdx fun i l =>
        let v := (row.lane i).toInt
        { l with sum := if x.count = 0 then v else f l.sum v } }, 0, {})
  match mode with
  | 1 => ints (· + ·)
  | 2 => ints max
  | 3 => ints min
  | 6 =>
    let r := (List.range 16).map fun i => fpAdd (x.acc.lane i) (row.lane i)
    ({ x with count := x.count + 1, acc := rowOfElems true (r.map fun e => e.1.toNat) }, 0, Events.sum (r.map (·.2)))
  | _ =>
    let wide := decide (mode = 4)
    let r := x.lanes.mapIdx fun i l =>
      l.air ((if wide then Fmt.fp32 else Fmt.bf16).decode (rowElem wide row i)) x.eblk
    ({ x with count := x.count + 1, lanes := r.map (·.1) }, (r.filter (·.2)).length, {})

/-- The finished row of a complete slot: the lanes saturated to INT32, or rounded once to FP32 or BF16 (R200, R201). -/
def CombSlot.finish (x : CombSlot) (mode : Nat) : CombSlot × Nat × Events :=
  match mode with
  | 6 => (x, 0, {})
  | 4 | 5 =>
    let wide := decide (mode = 4)
    let r := x.lanes.map fun l => roundTo (if wide then .fp32 else .bf16) .rne false l.nan (l.value x.eblk)
    ({ x with acc := rowOfElems wide (r.map (·.1)) }, 0, Events.sum (r.map (·.2)))
  | _ =>
    let r := x.lanes.map fun l => satInt 32 l.sum
    ({ x with acc := rowOfElems true (r.map (·.1)) }, (r.filter fun e => decide (e.2.ovf ≠ 0)).length, {})

/-- An empty slot taken for a sequence. -/
def CombSlot.fresh (mode seq : Nat) (eblk : Int) : CombSlot :=
  ⟨seq, 0, eblk, List.replicate (if mode = 5 then 32 else 16) ⟨0, false, false, false⟩, 0⟩

/-- An accepted contribution: added, and the slot finished when it is the last (R198, R200). -/
def Core.contribute (c : Core) (q : Nat) (x : CombSlot) (row : Row) : Core :=
  let z := c.queue q
  let a := x.add z.mode row
  let f := if a.1.count = z.ncontrib then a.1.finish z.mode else (a.1, 0, {})
  (((c.updQueue q fun z => { z with slots := Sparse.put z.slots (x.seq % z.depth) f.1 }).countSat CR.COMB_CLIP CR.CLIP_SAT
    (a.2.1 + f.2.1)).countEvents (a.2.2.add f.2.2)).arrived q

/-- COMBINING_CONTRIBUTION: a waiting contribution is accepted into its slot, waits while the slot holds another sequence,
is sunk as excess, or faults on its EBLK (R198 to R203). -/
def execCombiningContribution (n port : Nat) (s : State) : Out :=
  let c := s.core n
  .next <| match c.atInput port (c.tokenFor false) with
  | some e =>
    match e.body with
    | .cd h row =>
      let z := c.queue h.destQ
      let c1 := c.tookInput s.now port e
      let excess : State := s.setCore n (c1.countSat CR.COMB_EXCESS CR.EXCESS_SAT 1)
      if e.tag ≠ some z.gen then (s.setCore n c1).countSunk n h.destQ 1
      else
        match fullSeq z.low h.seq with
        | none => excess
        | some q =>
          match z.slot q with
          | none => s.setCore n (c1.contribute h.destQ (CombSlot.fresh z.mode q h.eblk) row)
          | some x =>
            if x.seq ≠ q then s
            else if x.count = z.ncontrib then excess
            else if (z.mode = 4 ∨ z.mode = 5) ∧ x.eblk ≠ h.eblk then
              (s.setCore n c1).unitFault n (.ofUnit 4 fltCombMismatch 0)
            else s.setCore n (c1.contribute h.destQ x row)
    | _ => s
  | none => s

/-! ### Signals at their destination (R213, R215) -/

/-- SIGNAL_ARRIVAL: a signal at its destination passes the epoch check; it is sunk for a queue that is unused or CLOSED,
released at once if its counter has reached COUNT, held, or waits while the hold table is full (R213, R215). Input 5 is
the early buffer. -/
def execSignalArrival (n port : Nat) (s : State) : Out :=
  .next <| match (s.core n).atInput port Entry.isSignal with
  | some e =>
    match e.body with
    | .cd h row =>
      let s1 := s.updCore n Core.progress
      let c := s1.core n
      match (if port = 5 then .active else s1.epochIs n h) with
      | .late => (s1.updCore n fun c => c.tookHead s.now port 0).countLate n
      | .next => s1.holdEarly n port e
      | .active =>
        let v := (row.lane 0).toNat
        let onBezel := v.testBit 27
        let which := if onBezel then bits v 30 28 else h.destQ
        let c1 := c.tookInput s.now port e
        if !onBezel && (c.queue h.destQ).shut then (s1.setCore n c1).countSunk n h.destQ 1
        else if bits v 23 0 ≤ c.arrivalsOf onBezel which then s1.setCore n (c1.signal (bits v 26 24))
        else if c.hold.length < 16 then
          s1.setCore n { c1 with hold := c1.hold ++
            [⟨bits v 23 0, bits v 26 24, onBezel, which, (Sparse.get .reset c.bezels which).gen⟩] }
        else s1.updCore n fun c => c.wr CR.HOLD_FULL_SEEN 1
    | _ => s
  | none => s

/-! ### The progress watchdog and the snapshot (R196, R197) -/

/-- A queue that a token of the core waits for at its router (HELD). -/
def Core.heldFor (c : Core) (q : Nat) : Bool :=
  (c.earlyReleased.any fun e => e.body.destQ = q) ||
  (List.range 5).any fun p => match c.localHead p 0 with | some e => e.isToken && decide (e.body.destQ = q) | none => false

/-- A queue's 16 bits in the snapshot (R197). -/
def Core.snapWord (c : Core) (q : Nat) : Nat :=
  let z := c.queue q
  z.held + 2 ^ 12 * b2n z.closed + 2 ^ 13 * b2n (c.heldFor q) + 2 ^ 14 * (if z.depth = 0 then 2 else if z.mode = 0 then 0 else 1)

/-- REGION_GEN as the requests of a region controller carry it (R393). -/
def Region.genNow (g : Region) : Nat := g.rd RR.REGION_GEN % 16

/-- A region controller's memory write: it waits to enter the mesh at the controller's router (R180, R182, R393). -/
def State.regionWrite (s : State) (r va : Nat) (data : Row) : State :=
  s.updRegion r fun g =>
    { g with memOut := g.memOut ++ [⟨true, va, regionSrc r, 0, 3, 0, g.genNow, data, fullMask, 0, 0⟩], snapLeft := g.snapLeft + 1 }

/-- Where region `r` writes its snapshot. -/
def State.snapBase (s : State) (r : Nat) : Nat :=
  (s.rd MR.SNAP_BASE_LO / 4096 * 4096 + 2 ^ 32 * s.rd MR.SNAP_BASE_HI) + r * 0x52000

/-- QUEUE_SNAPSHOT: with SNAP_EN, the region controller writes the queue states of its cores; the header, with its complete
flag, follows when they are acknowledged (R197). -/
def State.takeSnapshot (s : State) (r age : Nat) : State :=
  if s.rd MR.SNAP_EN = 0 then s
  else
    let g := s.region r
    let np := g.rd RR.NP_CORE + 2 ^ 19 * g.rd RR.NP_QUEUE + 2 ^ 28 * g.rd RR.NP_PORT
    let head := Row.ofBytes (leBytes 8 (r + 256) ++ leBytes 8 (s.rd MR.TICK_NUM_LO + 2 ^ 32 * s.rd MR.TICK_NUM_HI) ++
      leBytes 4 np ++ leBytes 4 age)
    (List.range 5184).foldl (fun s i =>
      let n := coreIn r (i % 72) (i / 72)
      let row := if absentIn s.md.remap n then 0
        else Row.ofBytes ((List.range 32).flatMap fun q => leBytes 2 ((s.core n).snapWord q))
      s.regionWrite r (s.snapBase r + 0x40 + 64 * i) row)
      (s.updRegion r fun g => { g with snapHead := some head })

/-- The CD head of an input of a core in a section: since when its age counts, and its DEST_Q (R196). -/
def Core.agedHead (c : Core) (port : Nat) : Option (Nat × Nat) :=
  match c.inBuf port 0 with
  | [] => none
  | e :: _ => if c.inSection then some (max e.since c.secSince, e.body.destQ) else none

/-- Of the CD heads of a region whose age counts from one MCLK, and which so reach the limit in one, the one that is kept: that of the
lowest core, and its first port (R196). -/
def State.firstStuck (s : State) (r since : Nat) : Option (Nat × Nat × Nat) :=
  (s.cores.flatMap fun (e : Nat × Core) =>
    if regionOf e.1 ≠ r then []
    else (List.range 5).filterMap fun p =>
      match e.2.agedHead p with | some (t, q) => if t = since then some (e.1, p, q) else none | none => none).head?

/-- PROGRESS_WATCHDOG: the age of a CD head block of core `n` reached the limit; the region records FLT_NO_PROGRESS, takes
its snapshot and aborts the tick (R196). The age counts only in a RUNNING or CLOSING section. -/
def execProgressWatchdog (n port : Nat) (s : State) : Out :=
  let r := regionOf n
  .next <| match (s.core n).agedHead port with
  | none => s
  | some (since, q) =>
    let x := (s.firstStuck r since).getD (n, port, q)
    ((s.updRegion r fun g =>
      if g.rd RR.NP_VALID = 0 then
        g.wrs [(RR.NP_VALID, 1), (RR.NP_PORT, x.2.1), (RR.NP_QUEUE, x.2.2), (RR.NP_CORE, x.1), (RR.NP_SNAP_DONE, 0)]
      else g).takeSnapshot r (s.now - since)).sendAbort (.ofRegion r logNoProgress)

/-! ### Section start and abort -/

/-- Rows of the combining buffer that a slot takes (R200). -/
def combRows (mode : Nat) : Nat := match mode with | 1 => 2 | 4 => 2 | 5 => 4 | _ => 1

/-- A queue setup word that R190 refuses. -/
def queueWordBad (v : Nat) : Bool :=
  let base := bits v 11 0
  let depth := bits v 23 12
  let mode := bits v 26 24
  decide (depth ≠ 0) &&
    (decide (bits v 31 27 ≠ 0) || decide (bits v 63 48 ≠ 0) || decide (mode = 7) ||
     (if mode = 0 then decide (2560 < base + depth)
      else decide (64 < base + depth * combRows mode) || decide (16 < depth) || decide (bits v 47 32 = 0)))

/-- The queues of a context image at section start: empty, open, each generation advanced (R38, R189, R193). -/
def Core.queueSetup (c : Core) (img : Sparse Byte) : Core :=
  (List.range 32).foldl (fun c q =>
    let v := imgNat img (0x400 + 8 * q) 8
    c.updQueue q fun z => { Queue.reset with base := bits v 11 0, depth := bits v 23 12, mode := bits v 26 24,
                                             ncontrib := bits v 47 32, gen := (z.gen + 1) % 16 }) c

/-- Whether some queue setup word of an image fails R190. -/
def queuesBad (img : Sparse Byte) : Bool := (List.range 32).any fun q => queueWordBad (imgNat img (0x400 + 8 * q) 8)

/-- An abort empties every queue and advances its generation, and empties the hold table; the signal counters clear (R51, R228). DESIGN
CHOICE (log 87): it empties the early buffer too, and counts nothing. -/
def Core.queueAbort (c : Core) : Core :=
  let c1 := (List.range 32).foldl (fun c q => c.updQueue q fun z => { z.drain with gen := (z.gen + 1) % 16 }) c
  (List.range 8).foldl (fun c t => c.updThread t fun th => { th with sig := 0 }) { c1 with hold := [], early := [] }

/-- Tokens held early for the section that starts are released to their queues in arrival order: each is tagged, or sunk
where its queue takes no tokens (R38, R54, R193). DESIGN CHOICE (log 87): one of another epoch is late now. -/
def State.releaseEarly (s : State) (n : Nat) : State :=
  let es := (s.core n).early
  es.foldl (fun s e =>
    match e.body with
    | .cd h row =>
      let c := s.core n
      let z := c.queue h.destQ
      let bz := h.signal && (row.lane 0).getLsbD 27
      if h.epoch ≠ c.rd CR.ACTIVE_EPOCH then s.countLate n
      else if z.shut && !bz then s.countSunk n h.destQ 1
      else s.updCore n fun c => { c with early := c.early ++ [{ e with tag := some z.gen }] }
    | _ => s) (s.updCore n fun c => { c with early := [] })

/-- A block at an input that owes the core a copy and is of the active epoch, or from a hub (log 81). -/
def Core.ofEpoch (c : Core) (e : Entry) : Bool :=
  e.owes.contains 0 && match e.body with | .cd h _ => decide (h.epoch = c.rd CR.ACTIVE_EPOCH) || decide (h.kind = 3) | _ => false

/-- Tokens and signals of the active epoch that the core still holds: in its queues, its hold table, its early buffer and
at its inputs (R37, R55, R215). -/
def Core.epochHeld (c : Core) : Nat :=
  (List.range 32).foldl (fun a q => a + (c.queue q).stored) 0 + c.hold.length + c.earlyReleased.length +
    (List.range 5).foldl (fun a p => a + ((c.inBuf p 0).filter c.ofEpoch).length) 0

/-- Those tokens and signals discarded (R55). -/
def Core.dropEpoch (c : Core) (now : Nat) : Core :=
  let cut (e : Entry) : List Entry :=
    if c.ofEpoch e then
      let owes := e.owes.filter (· ≠ 0)
      if owes = [] then [] else [{ e with owes := owes, tag := none }]
    else [e]
  let c1 := (List.range 5).foldl (fun c p =>
    let l := (c.inBuf p 0).flatMap cut
    c.setInBuf p 0 (if l.head?.map (·.body) = (c.inBuf p 0).head?.map (·.body) then l
      else match l with | [] => [] | e :: l => { e with since := now } :: l)) c
  (List.range 32).foldl (fun c q => c.updQueue q Queue.drain)
    { c1 with hold := [], early := c1.early.filter fun e => e.tag.isNone }

end Sys2Proof.Machine
end

