-- ==== Sys2Proof/Machine/Bezels.lean ====
section
/-!
DEFINITION. Bezels (R103 to R112): opens, closes and their notices on the bezel lane, the writes of neighbours with their
checks and rejections, and the instructions bz.*.
-/
namespace Sys2Proof.Machine

/-! ### Bezels and the lane -/

/-- Bezel `b` of a core. -/
def Core.bezel (c : Core) (b : Nat) : Bezel := Sparse.get .reset c.bezels b
/-- Bezel `b` changed. -/
def Core.updBezel (c : Core) (b : Nat) (f : Bezel → Bezel) : Core := { c with bezels := Sparse.put c.bezels b (f (c.bezel b)) }
/-- Messages on the lane from direction `d` that have not been handled, oldest first. -/
def Core.laneFrom (c : Core) (d : Nat) : List LaneMsg := Sparse.get [] c.lane d
/-- The lane from a direction replaced. -/
def Core.setLane (c : Core) (d : Nat) (l : List LaneMsg) : Core := { c with lane := Sparse.set [] c.lane d l }
/-- What this router knows of bezel `b` of its neighbour in direction `d`. -/
def Core.shadow (c : Core) (d b : Nat) : Shadow := Sparse.get .reset c.shadows (8 * d + b)

/-- A lane message is a write. -/
def LaneMsg.isWrite : LaneMsg → Bool
  | .write _ _ _ _ => true
  | _ => false

/-- A message sent on the lane of core `n` in direction `d`. -/
def State.laneSend (s : State) (n d : Nat) (m : LaneMsg) : State :=
  match nbrIn s.md.remap n d with
  | none => s
  | some k => s.updCore k fun u => u.setLane (oppDir d) (u.laneFrom (oppDir d) ++ [m])

/-- The first message from direction `d` that is no write, taken out; and the first write. Notices, acknowledgements and
rejections need no grant of the write port and so do not wait for the writes that arrived before them (R109). -/
def takeFirst (p : LaneMsg → Bool) : List LaneMsg → Option (LaneMsg × List LaneMsg)
  | [] => none
  | m :: l => if p m then some (m, l) else (takeFirst p l).map fun r => (r.1, m :: r.2)

/-- The directions in which a core has a neighbour (R105). -/
def neighbourDirs (ds : List Phys) (n : Nat) : List Nat := (List.range 4).filter fun d => (nbrIn ds n d).isSome

/-- A notice of bezel `b` goes to every neighbour (R105). -/
def State.bzNotify (s : State) (n b gen : Nat) (opened : Bool) : State :=
  let dirs := neighbourDirs s.md.remap n
  let len := ((s.core n).bezel b).length
  (dirs.foldl (fun s d => s.laneSend n d (.notice b gen len opened)) s).updCore n fun c =>
    c.updBezel b fun z => { z with waiting := dirs }

/-- An open carried out: the generation advances, the bezel is OPEN, ARRIVALS returns to 0, and a notice goes out
(R106). Another open still queued leaves it OPEN_PENDING (log 12). -/
def State.bzDoOpen (s : State) (n b base length mask : Nat) : State :=
  let s1 := s.updCore n fun c => c.updBezel b fun z =>
    { z with base := base, length := length, mask := mask, gen := (z.gen + 1) % 16, arrivals := 0,
             state := if z.queued.any (fun q => match q with | .reopen _ _ _ => true | _ => false) then .pending else .opened }
  (s1.bzNotify n b ((s1.core n).bezel b).gen true).orphans n

/-- Queued changes of a bezel, one at a time while no notice is unacknowledged (R106). -/
def State.bzNext (s : State) (n b : Nat) : Nat → State
  | 0 => s
  | k + 1 =>
    let z := (s.core n).bezel b
    match z.waiting, z.queued with
    | [], q :: qs =>
      let s1 := s.updCore n fun c => c.updBezel b fun z => { z with queued := qs }
      (match q with
       | .closeNotice gen => s1.bzNotify n b gen false
       | .reopen base len mask => s1.bzDoOpen n b base len mask).bzNext n b k
    | _, _ => s

/-- A change goes to the end of the bezel's queue of changes, which is then looked at. -/
def State.bzQueue (s : State) (n b : Nat) (q : BzChange) : State :=
  let k := ((s.core n).bezel b).queued.length + 1
  (s.updCore n fun c => c.updBezel b fun z => { z with queued := z.queued ++ [q] }).bzNext n b k

/-- An open requested: OPEN_PENDING while a notice is unacknowledged, else carried out at once (R106). -/
def State.bzOpen (s : State) (n b base length mask : Nat) : State :=
  let z := (s.core n).bezel b
  let pend := decide (z.waiting ≠ []) || decide (z.queued ≠ [])
  (s.updCore n fun c => c.updBezel b fun z => if pend then { z with state := .pending } else z).bzQueue n b
    (.reopen base length mask)

/-- A bezel closes at once and disarms; opens not yet carried out are cancelled, and a close notice follows unless it was
already CLOSED or had only a cancelled open (R105, R106, R110). -/
def State.bzClose (s : State) (n b : Nat) : State :=
  let z := (s.core n).bezel b
  let s1 := s.updCore n fun c => c.updBezel b fun z =>
    { z with state := .closed, armed := false,
             queued := z.queued.filter fun q => match q with | .reopen _ _ _ => false | _ => true }
  if z.state = .closed then s1 else s1.bzQueue n b (.closeNotice z.gen)

/-- A section start or an abort closes a bezel and advances its generation (R38, R51, R105). -/
def State.bzRestart (s : State) (n b : Nat) : State :=
  let g := (((s.core n).bezel b).gen + 1) % 16
  (s.updCore n fun c => c.updBezel b fun z =>
    { z with state := .closed, armed := false, gen := g,
             queued := z.queued.filter fun q => match q with | .reopen _ _ _ => false | _ => true }).bzQueue n b
    (.closeNotice g)

/-- BASE and LENGTH pass R104. -/
def bzSetupOk (base length : Nat) : Bool :=
  decide (base % 64 = 0) && decide (1 ≤ length) && decide (length ≤ 2560) && decide (base + 64 * length ≤ spadSize)

/-! ### The instructions bz.open, bz.close, bz.closea, bz.count -/

/-- bz.open: opens bezel d[2:0] at base g[a] with setup word g[b] (R103, R104, R106). -/
def execBzOpen (n : Nat) (t : BitVec 3) (d : BitVec 3) (a b : BitVec 5) (pg : BitVec 3) (s : State) : Out :=
  let w := wordG 0x2B d.toNat a.toNat b.toNat pg.toNat 0x01
  .next (issueG n t pg w (fun s1 =>
    let base := (s1.gOf n t a).toNat
    let v := (s1.gOf n t b).toNat
    if !bzSetupOk base (bits v 11 0) then s1.threadFault n t.toNat fltBezelSetup base false w
    else
      ((s1.updCore n fun c => c.updBezel d.toNat fun z => { z with armed := false }).bzOpen n d.toNat base (bits v 11 0)
        (bits v 15 12)).retire n t.toNat id) s)

/-- bz.close: CLOSE_NOW on bezel d[2:0] (R110). -/
def execBzClose (n : Nat) (t : BitVec 3) (d : BitVec 3) (pg : BitVec 3) (s : State) : Out :=
  .next (issueG n t pg (wordG 0x2B d.toNat 0 0 pg.toNat 0x02) (fun s1 => (s1.bzClose n d.toNat).retire n t.toNat id) s)

/-- CLOSE_AFTER n: acts as CLOSE_NOW if ARRIVALS has reached n or n = 0, else it is armed (R110). -/
def State.bzCloseAfter (s : State) (n b k : Nat) : State :=
  let z := (s.core n).bezel b
  if k = 0 ∨ (z.state ≠ .pending ∧ k ≤ z.arrivals) then s.bzClose n b
  else s.updCore n fun c => c.updBezel b fun z => { z with armed := true, afterN := k }

/-- bz.closea: CLOSE_AFTER g[a] on bezel d[2:0]. -/
def execBzClosea (n : Nat) (t : BitVec 3) (d : BitVec 3) (a : BitVec 5) (pg : BitVec 3) (s : State) : Out :=
  .next (issueG n t pg (wordG 0x2B d.toNat a.toNat 0 pg.toNat 0x03)
    (fun s1 => (s1.bzCloseAfter n d.toNat (s1.gOf n t a).toNat).retire n t.toNat id) s)

/-- bz.count: g[d] ← ARRIVALS of the local bezel a[2:0]. -/
def execBzCount (n : Nat) (t : BitVec 3) (d : BitVec 5) (a : BitVec 3) (pg : BitVec 3) (s : State) : Out :=
  .next (issueG n t pg (wordG 0x2B d.toNat a.toNat 0 pg.toNat 0x05) (fun s1 => s1.updCore n fun c =>
    c.retire t.toNat fun th => th.wg d (BitVec.ofNat 32 (c.bezel a.toNat).arrivals)) s)

/-! ### Outgoing writes (R108) -/

/-- Writes in the lane of core `n` toward direction `d` that its owner has not yet checked: the credits are eight. -/
def State.laneWrites (s : State) (n d : Nat) : Nat :=
  match nbrIn s.md.remap n d with
  | none => 0
  | some k => (((s.core k).laneFrom (oppDir d)).filter LaneMsg.isWrite).length

/-- Outgoing writes leave while the owner has credits, each stamped from the shadow as it leaves (R108). -/
def State.bzDrain (s : State) (n d : Nat) : Nat → State
  | 0 => s
  | k + 1 =>
    let c := s.core n
    match Sparse.get [] c.bzOut d with
    | [] => s
    | w :: ws =>
      if s.laneWrites n d < 8 then
        ((s.updCore n fun c => { c with bzOut := Sparse.set [] c.bzOut d ws }).laneSend n d
          (.write w.b w.offset (c.shadow d w.b).gen w.row)).bzDrain n d k
      else s

/-- A thread whose write has now entered the outgoing buffer of eight issues again (R108). -/
def Core.bzEntered (c : Core) (d : Nat) : Core :=
  let late := ((Sparse.get [] c.bzOut d).drop 8).map (·.thread)
  (List.range 8).foldl (fun c t =>
    if (c.thread t).wait = .put d && !late.contains t then
      c.updThread t fun th => { th with status := .ready, wait := .none }.stall
    else c) c

/-- The outgoing writes of core `n` toward `d` move as far as they can. -/
def State.bzFlow (s : State) (n d : Nat) : State :=
  (s.bzDrain n d ((Sparse.get [] (s.core n).bzOut d).length)).updCore n fun c => c.bzEntered d

/-- bz.put: the row v[b] goes to offset g[a] of bezel d[4:2] of the neighbour in direction d[1:0]; the thread waits while
the outgoing buffer is full (R108). A misaligned offset is looked at before the neighbour (DESIGN CHOICE, log 82). -/
def execBzPut (n : Nat) (t : BitVec 3) (d a : BitVec 5) (b : BitVec 4) (pg : BitVec 3) (s : State) : Out :=
  let w := wordG 0x2B d.toNat a.toNat b.toNat pg.toNat 0x04
  .next (issueG n t pg w (fun s1 =>
    let dir := d.toNat % 4
    let off := (s1.gOf n t a).toNat
    if off % 64 ≠ 0 then s1.threadFault n t.toNat fltMisaligned off false w
    else if (nbrIn s1.md.remap n dir).isNone then s1.threadFault n t.toNat fltBezelRange off false w
    else
      let row := ((s1.core n).thread t.toNat).rv b
      ((s1.retire n t.toNat id).updCore n fun c =>
        { c.updThread t.toNat fun th => { th with status := .waiting, wait := .put dir } with
          bzOut := Sparse.set [] c.bzOut dir (Sparse.get [] c.bzOut dir ++ [⟨t.toNat, d.toNat / 4, off, row⟩]) }).bzFlow
        n dir) s)

/-! ### The bezel lane at its end -/

/-- BEZEL_NOTICE: a neighbour's notice updates the shadow and is acknowledged (R105). -/
def execBezelNotice (n d : Nat) (s : State) : Out :=
  .next <| match takeFirst (fun m => !m.isWrite) ((s.core n).laneFrom d) with
  | some (.notice b gen len opened, rest) =>
    (s.updCore n fun c => { c.setLane d rest with shadows := Sparse.put c.shadows (8 * d + b) ⟨opened, gen, len⟩ }).laneSend
      n d (.ack b)
  | _ => s

/-- BEZEL_NOTICE_ACK: an acknowledgement; when all have come, the bezel's next change is carried out, and when no notice of
the core is out its held arrivals leave (R106, R107). -/
def execBezelNoticeAck (n d : Nat) (s : State) : Out :=
  .next <| match takeFirst (fun m => !m.isWrite) ((s.core n).laneFrom d) with
  | some (.ack b, rest) =>
    let s1 := s.updCore n fun c => (c.setLane d rest).updBezel b fun z => { z with waiting := z.waiting.filter (· ≠ d) }
    (s1.bzNext n b ((s1.core n).bezel b).queued.length).releaseArrivals n
  | _ => s

/-- The check of a write at its owner (R109): the cause of a rejection, if it fails. -/
def Bezel.check (z : Bezel) (dir offset stamp : Nat) : Option Nat :=
  if z.state ≠ .opened then some 0
  else if stamp ≠ z.gen then some 1
  else if !z.mask.testBit dir then some 2
  else if 64 * z.length < offset + 64 then some 3
  else none

/-- A write that passes lands: the row is written, ARRIVALS counts it, held signals look, and CLOSE_AFTER closes the bezel
(R109, R110). -/
def State.bzLand (s : State) (n b offset : Nat) (row : Row) : State :=
  let c := s.core n
  let z := c.bezel b
  let a := min (z.arrivals + 1) 0xFFFFFFFF
  let c1 := ((c.writeRow (z.base + offset) row fullMask).2).updBezel b fun z => { z with arrivals := a }
  let c2 := if a = 0xFFFFFFFF then c1.wr (CR.BZ_ARR_SAT.at (16 * b)) 1 else c1
  let s1 := s.setCore n c2.releaseHeld
  if z.armed && decide (z.afterN ≤ a) then s1.bzClose n b else s1

/-- The answer to a bezel write: every bezel of a lost core, or of an eclipsed region, is CLOSED (R109, R111, R372). -/
def State.bzCheck (s : State) (n b dir offset stamp : Nat) : Option Nat :=
  if (s.core n).lost || s.eclipsed (regionOf n) then some 0 else ((s.core n).bezel b).check dir offset stamp

/-- BEZEL_WRITE: the owner takes the first write of the next direction in turn, and it lands or is rejected; the credit
lets the writer's next write leave (R108, R109). -/
def execBezelWrite (n : Nat) (s : State) : Out :=
  let c := s.core n
  .next <| match ((List.range 4).map fun i => (c.lastDir + 1 + i) % 4).find? fun d => (c.laneFrom d).any LaneMsg.isWrite with
  | none => s
  | some d =>
    match takeFirst LaneMsg.isWrite (c.laneFrom d) with
    | some (.write b offset stamp row, rest) =>
      let s1 := s.setCore n { c.setLane d rest with lastDir := d }
      let z := c.bezel b
      let s2 := match s.bzCheck n b d offset stamp with
        | none => s1.bzLand n b offset row
        | some cause =>
          (s1.updCore n fun c => c.countSat (CR.BZ_REJECTS.at (16 * b)) (CR.BZ_REJ_SAT.at (16 * b)) 1).laneSend n d
            (.reject b offset stamp z.gen cause)
      match nbrIn s.md.remap n d with
      | some k => s2.bzFlow k (oppDir d)
      | none => s2
    | _ => s

/-- BEZEL_REJECTION: the writer records and counts it, the region reports FLT_BEZEL_CLOSED at tick end, and DENIED or RANGE
raises FLT_BEZEL_RANGE (R111). -/
def execBezelRejection (n d : Nat) (s : State) : Out :=
  .next <| match takeFirst (fun m => !m.isWrite) ((s.core n).laneFrom d) with
  | some (.reject b offset stamp found cause, rest) =>
    let s1 := (s.updCore n fun c =>
      let c1 := (c.setLane d rest).countSat CR.REJ_COUNT CR.REJ_CNT_SAT 1
      if c1.rd CR.REJ_VALID = 0 then
        c1.wrs [(CR.REJ_VALID, 1), (CR.GEN_FOUND, found), (CR.GEN_SENT, stamp), (CR.REJ_BEZEL, b), (CR.REJ_DIR, d),
                (CR.REJ_CAUSE, cause), (CR.REJ_OFFSET, offset)]
      else c1).updRegion (regionOf n) fun g => { g with bzClosedSeen := true }
    if 2 ≤ cause then s1.unitFault n (.ofUnit 4 fltBezelRange offset) else s1
  | _ => s

/-! ### Section start and abort -/

/-- At a section start every bezel closes with a new generation, then the AUTO_OPEN entries that pass R104 open in bezel
order, with CLOSE_AFTER armed where AFTER_N is not zero (R38, R103, R107). -/
def State.bzSetup (s : State) (n : Nat) (img : Sparse Byte) : State :=
  let s1 := ((List.range 8).foldl (fun s b => s.bzRestart n b) s).orphans n
  (List.range 8).foldl (fun s b =>
    let base := imgNat img (0x500 + 16 * b) 4
    let v := imgNat img (0x504 + 16 * b) 4
    let after := imgNat img (0x508 + 16 * b) 4
    if v.testBit 16 && bzSetupOk base (bits v 11 0) then
      (s.bzOpen n b base (bits v 11 0) (bits v 15 12)).updCore n fun c => c.updBezel b fun z =>
        if after = 0 then z else { z with armed := true, afterN := after }
    else s) s1

/-- The first AUTO_OPEN entry of an image that fails R104, if one. -/
def bezelsBad (img : Sparse Byte) : Option Nat :=
  (List.range 8).find? fun b =>
    (imgNat img (0x504 + 16 * b) 4).testBit 16 &&
      !bzSetupOk (imgNat img (0x500 + 16 * b) 4) (bits (imgNat img (0x504 + 16 * b) 4) 11 0)

/-- An abort closes every bezel (R51, R107). -/
def State.bzAbort (s : State) (n : Nat) : State :=
  ((List.range 8).foldl (fun s b => s.bzRestart n b) s).orphans n

end Sys2Proof.Machine
end

