-- ==== Sys2Proof/Machine/Flash.lean ====
section
/-!
DEFINITION. The serial flash (15): its bytes, and the records, the defect list and the firmware image that it holds.
-/
namespace Sys2Proof.Machine

/-- Bytes of the flash; erased ones are 0xFF. -/
def State.flashPeek (s : State) (a len : Nat) : List Byte := Sparse.slice 0xFF s.md.sec.flash a len
/-- Bytes written to the flash, which is erased first. -/
def State.flashPut (s : State) (a : Nat) (bs : List Byte) : State :=
  s.updMd fun m => { m with sec := { m.sec with flash := Sparse.blit 0xFF m.sec.flash a bs } }

/-- A field of a record. -/
def fieldOf (b : List Byte) (a len : Nat) : Nat := leNat ((b.drop a).take len)
/-- Bytes of a record that are all zero. -/
def zeroIn (b : List Byte) (a len : Nat) : Bool := ((b.drop a).take len).all fun x => decide (x = 0)
/-- The last four bytes of a record are its CRC-32C. -/
def crcAtEnd (b : List Byte) : Bool := decide (fieldOf b (b.length - 4) 4 = crc32c (b.take (b.length - 4)))

/-! ### The defect list (R383 to R385) -/

/-- Where an entry of the list stands: after the header of 16 bytes. -/
def defectAddr (k : Nat) : Nat := 0x4000010 + 8 * k
/-- The entries from entry `k` up to the first erased one, of `n` at most. -/
def defectsFrom (fl : Sparse Byte) : Nat → Nat → List (List Byte)
  | 0, _ => []
  | n + 1, k =>
    let b := Sparse.slice 0xFF fl (defectAddr k) 8
    if b = List.replicate 8 0xFF then [] else b :: defectsFrom fl n (k + 1)
/-- The entries of the list, those with a bad CRC among them. -/
def defectEntries (fl : Sparse Byte) : List (List Byte) := defectsFrom fl 524286 0
/-- The CRC of an entry checks; an entry whose CRC fails is ignored (R384). -/
def defectOk (b : List Byte) : Bool := decide (fieldOf b 6 2 = crc16 (b.take 6))
/-- The 8 bytes of an entry. -/
def Defect.bytes (d : Defect) : List Byte :=
  let b := leBytes 1 d.core.region ++ leBytes 1 d.core.row ++ leBytes 1 d.core.col ++ leBytes 1 d.cause ++ leBytes 2 d.boot
  b ++ leBytes 2 (crc16 b)
/-- The entry that 8 bytes spell. -/
def Defect.ofBytes (b : List Byte) : Defect := ⟨⟨fieldOf b 0 1, fieldOf b 1 1, fieldOf b 2 1⟩, fieldOf b 3 1, fieldOf b 4 2⟩
/-- The valid entries of the flash, in list order. -/
def validDefects (fl : Sparse Byte) : List (List Byte) := (defectEntries fl).filter defectOk

/-- DEFECT_HASH of the list (R385). -/
def State.hashDefects (s : State) : State :=
  let h := shake256 ((validDefects s.md.sec.flash).flatMap id) 32
  (List.range 8).foldl (fun s i => s.wr (MR.DEFECT_HASH.at (4 * i)) (leNat ((h.drop (4 * i)).take 4))) s

/-! ### The boot counter (R413) -/

/-- The record of a number of bring-ups. -/
def bootRecord (seq : Nat) : List Byte :=
  let b := leBytes 4 seq ++ List.replicate 8 0
  b ++ leBytes 4 (crc32c b)
/-- Where it goes: the records are used in turn (log 86). -/
def bootSlot (seq : Nat) : Nat := 0x4402000 + 16 * ((seq - 1) % 3584)
/-- The SEQ of the record that holds a byte of the area, if that record is valid. -/
def bootSeq (fl : Sparse Byte) (a : Nat) : Option Nat :=
  let b := Sparse.slice 0xFF fl (a / 16 * 16) 16
  if 0x4402000 ≤ a && decide (a < 0x4410000) && zeroIn b 4 8 && crcAtEnd b then some (fieldOf b 0 4) else none
/-- The newest valid SEQ, 0 where no record is valid. -/
def bootNewest (fl : Sparse Byte) : Nat := (fl.filterMap fun e => bootSeq fl e.1).foldl max 0
/-- BOOT_COUNT goes on by one, in the flash too (R413). -/
def State.countBoot (s : State) : State :=
  let n := s.rd MR.BOOT_COUNT + 1
  (s.flashPut (bootSlot n) (bootRecord n)).wr MR.BOOT_COUNT n

/-! ### Boot configuration (R413) -/

/-- The addresses of the slots of a record kept twice. -/
def bootCfgSlot (k : Nat) : Nat := 0x4400000 + 0x1000 * k
/-- The format of a boot configuration record. -/
def bootCfgForm (b : List Byte) : Bool :=
  decide (b.length = 64) && decide (fieldOf b 0 4 = 0x43425744) && decide (fieldOf b 4 2 = 1) && zeroIn b 6 2 &&
    zeroIn b 0x10 0x2C && crcAtEnd b
/-- A boot configuration record that is valid. -/
def bootCfgOk (b : List Byte) : Bool := bootCfgForm b && decide (fieldOf b 8 4 ≤ 1000000)

/-- Of two slots, the valid one with the higher SEQ: its number and its record. -/
def newest (ok : List Byte → Bool) (seq : List Byte → Nat) (a b : List Byte) : Option (Nat × List Byte) :=
  match ok a, ok b with
  | true, true => if seq a < seq b then some (1, b) else some (0, a)
  | true, false => some (0, a)
  | false, true => some (1, b)
  | false, false => none

/-- The boot configuration in force. -/
def State.bootCfg (s : State) : Option (Nat × List Byte) :=
  newest bootCfgOk (fun b => fieldOf b 0xC 4) (s.flashPeek (bootCfgSlot 0) 64) (s.flashPeek (bootCfgSlot 1) 64)
/-- REF_SETTLE in µs. -/
def State.refSettle (s : State) : Nat := match s.bootCfg with | some (_, b) => fieldOf b 8 4 | none => 100000

/-! ### User calibration (R426, R427) -/

/-- See `bootCfgSlot`. -/
def ucalSlot (k : Nat) : Nat := 0x4410000 + 0x8000 * k
/-- The length of a calibration record by its COUNT. -/
def ucalLen (count : Nat) : Nat := 16 + 8 * count + 4
/-- The record at the start of some bytes. -/
def ucalRecord (b : List Byte) : List Byte := b.take (ucalLen (fieldOf b 6 2))
/-- The entries of a record: class, index, offset. -/
def ucalEntries (b : List Byte) : List (Nat × Nat × Int) :=
  (List.range (fieldOf b 6 2)).map fun k =>
    (fieldOf b (16 + 8 * k) 1, fieldOf b (18 + 8 * k) 2, (BitVec.ofNat 16 (fieldOf b (20 + 8 * k) 2)).toInt)
/-- The number of items of a class. -/
def calCount : Nat → Nat
  | 1 => 116 | 2 => 512 | 3 => 68 | 4 => 1728 | _ => 0
/-- A calibration item's factory value lies in its class's range (R426). -/
def factoryCal (cls index : Nat) : Int :=
  let v := Config.factoryCal cls index
  match cls with
  | 1 => max 0 (min 255 v) | 2 => max (-320) (min 320 v) | 3 => max (-24) (min 24 v) | _ => max 0 (min 63 v)
/-- The bound of a user offset of a class. -/
def calBound : Nat → Int
  | 1 => 8 | 2 => 64 | 3 => 8 | 4 => 4 | _ => 0

/-- A record is valid: CRC, format and every field check. -/
def ucalOk (b : List Byte) : Bool :=
  decide (fieldOf b 0 4 = 0x43555744) && decide (fieldOf b 4 2 = 1) && decide (fieldOf b 6 2 ≤ 2424) && zeroIn b 12 4 &&
    decide (b.length = ucalLen (fieldOf b 6 2)) && crcAtEnd b &&
    (List.range (fieldOf b 6 2)).all (fun k =>
      zeroIn b (17 + 8 * k) 1 && zeroIn b (22 + 8 * k) 2 &&
        decide (fieldOf b (18 + 8 * k) 2 < calCount (fieldOf b (16 + 8 * k) 1)))
/-- A valid record is in bounds: every offset within its class's bound, no item twice. -/
def ucalInBounds (b : List Byte) : Bool :=
  let es := ucalEntries b
  es.all (fun e => decide (-(calBound e.1) ≤ e.2.2) && decide (e.2.2 ≤ calBound e.1)) &&
    decide ((es.map fun e => (e.1, e.2.1)).Nodup)

/-- The newest valid user calibration record. -/
def State.ucalNewest (s : State) : Option (Nat × List Byte) :=
  newest ucalOk (fun b => fieldOf b 8 4) (ucalRecord (s.flashPeek (ucalSlot 0) 0x8000)) (ucalRecord (s.flashPeek (ucalSlot 1) 0x8000))

/-! ### The firmware image (R414, R415, R417) -/

/-- Consecutive set bits from bit 0. -/
def thermometer : Nat → Nat → Nat
  | 0, _ => 0
  | k + 1, v => if v % 2 = 1 then 1 + thermometer k (v / 2) else 0
/-- ROLLBACK_LEVEL (R417). -/
def State.rollbackLevel (s : State) : Nat := thermometer 64 s.md.sec.rollback

/-- The rollback fuses with a level programmed (R417). -/
def fuseLevel (fuses level : Nat) : Nat := fuses ||| (2 ^ min 64 level - 1)
/-- A ROLLBACK_COMMIT cut short has programmed some of its bits, how many is open (R417). -/
def State.cutCommit (s : State) : State :=
  if s.md.sec.commit then
    let f := s.fresh 7
    let span := s.rd MR.IMAGE_ROLLBACK - s.rollbackLevel
    f.2.updMd fun m =>
      { m with sec := { m.sec with rollback := fuseLevel m.sec.rollback (s.rollbackLevel + f.1.toNat % (span + 1)), commit := false } }
  else s

/-- The signed part of an image: header bytes 0x000 to 0x7FF and the body; its measurement D. -/
def measure (hdr body : List Byte) : List Byte := shake256 (hdr.take 0x800 ++ body) 64
/-- SHAKE256 of a public key is the root key's hash. -/
def rootKey (key : List Byte) : Bool := decide (shake256 key 32 = leBytes 32 Config.rootKeyHash.toNat)

/-- The checks of an image after its reading, in order: 0, or the RECOVERY_CODE of the first that fails (R415). -/
def imageCode (level : Nat) (hdr : List Byte) (body : Nat → List Byte) : Nat :=
  let n := fieldOf hdr 0x10 4
  let form := decide (hdr.length = 4096) && decide (fieldOf hdr 0 4 = 0x57465744) && decide (fieldOf hdr 4 2 = 1) &&
    zeroIn hdr 6 2 && zeroIn hdr 9 7 && zeroIn hdr 0x1C 4 && zeroIn hdr 0x721 0xDF && zeroIn hdr 0xD00 0x300 &&
    decide (n % 64 = 0) && decide (64 ≤ n) && decide (n ≤ 0x2000000) && decide (fieldOf hdr 0x14 4 < n)
  let key := (hdr.drop 0x20).take 1793
  if !form then 1
  else if !rootKey key then 2
  else if fieldOf hdr 8 1 < level then 3
  else if !falconVerify key ((hdr.drop 0x800).take 1280) (measure hdr (body n)) then 4
  else 0

/-- The header of the image in flash. -/
def State.imageHeader (s : State) : List Byte := s.flashPeek 0 4096
/-- Its body. -/
def State.imageBody (s : State) (n : Nat) : List Byte := s.flashPeek 4096 n
/-- RECOVERY_CODE for the image in flash; `readOk`: it reads without error (R415). -/
def State.flashImageCode (s : State) (readOk : Bool) : Nat :=
  if !readOk then 5 else imageCode s.rollbackLevel s.imageHeader s.imageBody

/-! ### The certificate (R420) -/

/-- The certificate's bytes. -/
def State.cert (s : State) : List Byte := s.flashPeek 0x4420000 3328
/-- SERIAL as a number. -/
def State.serial (s : State) : Nat := s.rd MR.SERIAL_LO + 2 ^ 32 * s.rd MR.SERIAL_HI
/-- MAGIC, SERIAL and SIG of the certificate check; the vendor root key is the one in the running image's header. -/
def State.certValid (s : State) : Bool :=
  let b := s.cert
  decide (fieldOf b 0 4 = 0x43535744) && decide (fieldOf b 8 8 = s.serial) &&
    falconVerify ((s.imageHeader.drop 0x20).take 1793) ((b.drop 0x800).take 1280) (shake256 (b.take 0x800) 64)

end Sys2Proof.Machine
end

