-- ==== Sys2Proof/Machine/Clocks.lean ====
section
/-!
DEFINITION. The reference, source changes and the clock dividers (13).
-/
namespace Sys2Proof.Machine

/-! ### Dividers (R350 to R353) -/

/-- One step of a divider toward a want (R352). -/
def stepTo (d want : Nat) : Nat :=
  if d < want then min want (d * 16 / 15)
  else if want < d then max want ((d * 16 + 16) / 17)
  else d

/-- DWELL_NS, clamped. -/
def State.dwell (s : State) : Nat := clampTo 500 65535 (s.md.regs.inForce MR.DWELL_NS)
/-- A step that many µs after the one before it keeps the dwell. -/
def State.dwelt (s : State) (age : Nat) : Bool := decide (s.dwell ≤ age * 1000)

/-- CCLK_TARGET_D of a region in force. -/
def Region.ccTarget (g : Region) : Nat := max 64 (g.regs.inForce RR.CCLK_TARGET_D)
/-- MCLK_TARGET_D of a region in force. -/
def Region.mcTarget (g : Region) : Nat := max 64 (g.regs.inForce RR.MCLK_TARGET_D)
/-- A, the slowest divider that an automatic reduction takes (R353). -/
def Region.autoFloor (g : Region) : Nat := max g.ccTarget (min (g.regs.inForce RR.CCLK_FLOOR_D) (2 * g.rd RR.MCLK_D))

/-- The targets acted on: with both changed by one commit, CCLK's waits until MCLK has reached its own (R351). -/
def RegPower.aim (p : RegPower) (c m mNow : Nat) : RegPower :=
  if p.deferC then (if mNow = p.mT then { p with deferC := false, cT := c, mT := m } else { p with mT := m })
  else if p.cT ≠ c ∧ p.mT ≠ m ∧ mNow ≠ m then { p with deferC := true, mT := m }
  else { p with cT := c, mT := m }

/-- The want of CCLK with the term that set it, coded as in LIMIT_CAUSE (R353). -/
def Region.cclkWant (g : Region) : Nat × Nat :=
  [(g.rd RR.LIMIT_D, 1), (g.rd RR.THERMAL_D, 2), (g.pw.parkC, 3), (if g.pw.eclPhase = 0 then 0 else g.autoFloor, 4)].foldl
    (fun w t => if w.1 < t.1 then t else w) (g.pw.cT, 0)
/-- The want of MCLK. -/
def Region.mclkWant (g : Region) : Nat := max g.pw.mT g.pw.parkM

/-- LIMIT_D and THERMAL_D never exceed A, wherever A stands now (R353). -/
def Region.bounded (g : Region) : Region :=
  let a := g.autoFloor
  g.wrs [(RR.LIMIT_D, min a (g.rd RR.LIMIT_D)), (RR.THERMAL_D, min a (g.rd RR.THERMAL_D))]

/-- The depth of the spread that a region moves toward, in 0.1% (R355). -/
def Region.sscWant (g : Region) : Nat :=
  if g.regs.inForce RR.SSC_EN = 1 then min 10 (g.regs.inForce RR.SSC_DEPTH) else 0

/-- The spread: its depth moves 0.1% once its dwell has passed, and its rate follows SSC_RATE_KHZ while it is on (R355). -/
def RegPower.spread (p : RegPower) (want rate : Nat) (dwelt : Nat → Bool) : RegPower :=
  let age := p.sscAge + 1
  let d := if p.sscDepth < want then p.sscDepth + 1 else p.sscDepth - 1
  let p1 := if p.sscDepth ≠ want ∧ dwelt age then { p with sscDepth := d, sscAge := 0 } else { p with sscAge := age }
  { p1 with sscRate := if p1.sscDepth = 0 then 0 else clampTo 30 60 rate }

/-- A region's update: its wants, and a step of each divider whose dwell has passed (R352, R353, R355). -/
def Region.dividers (g : Region) (dwelt : Nat → Bool) : Region :=
  let aimed : RegPower := g.pw.aim g.ccTarget g.mcTarget (g.rd RR.MCLK_D)
  let spread := aimed.spread g.sscWant (g.regs.inForce RR.SSC_RATE_KHZ) dwelt
  let g1 : Region := { g with pw := { spread with cAge := aimed.cAge + 1, mAge := aimed.mAge + 1 } }
  let step (d want age : Nat) : Nat × Nat := if d ≠ want ∧ dwelt age then (stepTo d want, 0) else (d, age)
  let m := step (g1.rd RR.MCLK_D) g1.mclkWant g1.pw.mAge
  let gm := (g1.wr RR.MCLK_D m.1).bounded
  let w := gm.cclkWant
  let c := step (g1.rd RR.CCLK_D) w.1 g1.pw.cAge
  let g2 : Region := { gm with pw := { gm.pw with mAge := m.2, cAge := c.2 } }
  let g3 := g2.wrs [(RR.CCLK_D, c.1), (RR.LIMIT_CAUSE, w.2), (RR.MCLK_RAMPING, b2n (decide (m.1 ≠ g1.mclkWant))),
    (RR.CCLK_RAMPING, b2n (decide (c.1 ≠ w.1)))]
  g3.wr RR.AUTO_FLOOR_D g3.autoFloor

/-- The want of HCLK: 128 in a source change until its return, 64 otherwise (R354). -/
def State.hclkWant (s : State) : Nat := if s.rd MR.SWITCH_STEP = 1 ∨ s.rd MR.SWITCH_STEP = 2 then 128 else 64

/-- The divider of a hub steps once its dwell has passed (R352). -/
def State.hubDivider (s : State) (h : Nat) : State :=
  let age := Sparse.get 0 s.md.pw.hAge h + 1
  let d := (s.hub h).rd HR.HCLK_D
  let go := decide (d ≠ s.hclkWant) && s.dwelt age
  let s1 := s.updMd fun m => { m with pw := { m.pw with hAge := Sparse.set 0 m.pw.hAge h (if go then 0 else age) } }
  if go then s1.updHub h fun u => u.wr HR.HCLK_D (stepTo d s.hclkWant) else s1

/-- Every divider of the module updated. -/
def State.dividers (s : State) : State :=
  (List.range 4).foldl (fun s h => s.hubDivider h) ((List.range 56).foldl (fun s r => s.updRegion r fun g => g.dividers s.dwelt) s)

/-! ### Source changes (R349, R354) -/

/-- A change to a source begins, or waits for the one under way (R354). -/
def State.changeSource (s : State) (dest : Nat) : State :=
  let pw (f : Power → Power) (s : State) : State := s.updMd fun m => { m with pw := f m.pw }
  if s.rd MR.SWITCH_STEP = 1 ∨ s.rd MR.SWITCH_STEP = 2 then pw (fun p => { p with srcNext := some dest }) s
  else
    let park (g : Region) : Region :=
      { g with pw := { g.pw with parkC := max (g.rd RR.CCLK_D) 128, parkM := max (g.rd RR.MCLK_D) 128 } }
    (List.range 56).foldl (fun s r => s.updRegion r park)
      ((pw (fun p => { p with srcTarget := dest, srcNext := none }) s).wr MR.SWITCH_STEP 1)

/-- TIMING_PORT; values above 8 act as 8. -/
def State.timingPort (s : State) : Nat := min 8 (s.rd MR.TIMING_PORT)
/-- The source that will be in use when what is under way and waiting is done. -/
def State.sourceAhead (s : State) : Nat :=
  if s.rd MR.SWITCH_STEP = 0 then s.rd MR.REF_IN_USE else (s.md.pw.srcNext.getD s.md.pw.srcTarget)
/-- Back to CHASSIS: the following PLLs enter holdover (R349). -/
def State.toChassis (s : State) : State :=
  let s1 := s.wr MR.REF_SETTLING 0
  if s1.sourceAhead = 0 then s1 else (s1.wr MR.REF_HOLDOVER 1).changeSource 0

/-- A port reaches UP, or leaves it: if it is TIMING_PORT, the settle timer starts anew, or the source goes back (R349). -/
def State.refPort (s : State) (p : Nat) (up : Bool) : State :=
  if p ≠ s.timingPort ∨ s.rd MR.REF_SOURCE_REQ = 0 then s
  else if up then s.wr MR.REF_SETTLING 1
  else s.toChassis

/-- REF_SOURCE_REQ and TIMING_PORT written (R349); `up` tells whether a port is UP. A new timing port starts the settle timer
anew. -/
def State.refWrite (s : State) (req port : Nat) (up : Nat → Bool) : State :=
  let s1 := s.wrs [(MR.REF_SOURCE_REQ, req), (MR.TIMING_PORT, port)]
  if req = 0 then s1.toChassis
  else if s.rd MR.REF_SOURCE_REQ = 1 ∧ s1.timingPort = s.timingPort then s1
  else
    let s2 := if s.rd MR.REF_SOURCE_REQ = 1 then s1.toChassis else s1
    if up s1.timingPort then s2.wr MR.REF_SETTLING 1 else s2

/-- REF_SOURCE_REQ_WRITE: a write of REF_SOURCE_REQ and TIMING_PORT (R349). -/
def execRefSourceReqWrite (req : Bool) (port : BitVec 4) (s : State) : Out :=
  .next (s.refWrite (b2n req) port.toNat fun p => decide ((s.hub 0).rd (PR.LINK_UP.at (0x600000 + p % 9 * 0x40000)) = 1))

/-- REF_SETTLE_EXPIRY: TIMING_PORT has been UP for REF_SETTLE: the switch to RECOVERED begins (R349). -/
def execRefSettleExpiry (s : State) : Out :=
  .next (if s.rd MR.REF_SETTLING = 0 then s else (s.wr MR.REF_SETTLING 0).changeSource 1)

/-- The PLL inputs move to a source; `next`: the further change that waits for the end of step 3, while which the lost source's holdover
goes on (R354). -/
def State.moveInputs (s : State) (src : Nat) (next : Option Nat) : State :=
  ((s.updMd fun m => { m with pw := { m.pw with srcTarget := src, srcNext := next } }).wrs
    [(MR.SWITCH_STEP, 2), (MR.REF_IN_USE, src), (MR.REF_HOLDOVER, b2n (s.md.pw.refLost || decide (next = some 0)))]).updMd fun m =>
      { m with regs := m.regs.countSat MR.SWITCH_COUNT MR.SWITCH_SAT 1 }

/-- A source change goes on to its next step when the one in progress has done its work (R354). -/
def State.sourceStep (s : State) : State :=
  let rs := (List.range 56).map s.region
  match s.rd MR.SWITCH_STEP with
  | 1 =>
    if rs.all (fun g => decide (g.pw.parkC ≤ g.rd RR.CCLK_D) && decide (g.pw.parkM ≤ g.rd RR.MCLK_D)) &&
        (List.range 4).all (fun h => decide ((s.hub h).rd HR.HCLK_D = 128)) then s.moveInputs s.md.pw.srcTarget s.md.pw.srcNext
    else s
  | 2 =>
    match s.md.pw.srcNext with
    | some dest => s.moveInputs dest none
    | none =>
      let back (g : Region) : Region := { g with pw := { g.pw with parkC := 0, parkM := 0 } }
      (List.range 56).foldl (fun s r => s.updRegion r back) (s.wr MR.SWITCH_STEP 3)
  | 3 =>
    if rs.all (fun g => decide (g.rd RR.CCLK_D = g.cclkWant.1) && decide (g.rd RR.MCLK_D = g.mclkWant)) &&
        (List.range 4).all (fun h => decide ((s.hub h).rd HR.HCLK_D = 64)) then s.wr MR.SWITCH_STEP 0
    else s
  | _ => s

/-- SOURCE_CHANGE_STEP: a step of a source change ends (R354). -/
def execSourceChangeStep (s : State) : Out := .next s.sourceStep

end Sys2Proof.Machine
end

