-- ==== Sys2Proof/Machine/Hbm.lean ====
section
/-!
DEFINITION. The HBM stacks (11): the interleave, the memory controllers' reads and writes with their block integrity, the
MP's own accesses, and the MP log (14).
-/
namespace Sys2Proof.Machine

/-! ### The interleave (R280) -/

/-- The hub that owns a physical address. -/
def hubOf (pa : Nat) : Nat := bits pa 9 8
/-- Its stack among the hub's four. -/
def stackOf (pa : Nat) : Nat := bits pa 11 10 ^^^ bits pa 18 17
/-- Its channel within the stack. -/
def channelOf (pa : Nat) : Nat := bits pa 16 12 ^^^ bits pa 23 19
/-- A register of the memory controller of stack `i` in its hub's window. -/
def ctl (i : Nat) (f : Fld) : Fld := f.at (0x100000 * (i + 1))

/-! ### The MP log (R379) -/

/-- The tick in progress. -/
def State.tickNum (s : State) : Nat := s.rd MR.TICK_NUM_LO + 2 ^ 32 * s.rd MR.TICK_NUM_HI

/-- A record written to its slot of the MP log. -/
def State.logRec (s : State) (kind code result level index detail : Nat) : State :=
  let q := s.rd MR.LOG_WR
  let tick := if s.rd MR.MOD_STATE = 0 then 0 else s.tickNum
  let rec_ : LogRec := ⟨q, kind, code, result, level, tick, index, detail⟩
  (s.updMd fun m => { m with log := Sparse.put m.log (q % 1024) rec_ }).wr MR.LOG_WR (q + 1)

/-- A FAULT record. -/
def State.logFault (s : State) (code level index : Nat) : State := s.logRec 2 code 0 level index 0

/-! ### Blocks (R282 to R285) -/

/-- Bytes of HBM as the stacks hold them. -/
def State.hbmPeek (s : State) (a len : Nat) : List Byte := Sparse.slice 0 s.hbm a len

/-- A counter of a hub with its sticky flag (R14). -/
def State.countHub (s : State) (h : Nat) (f flag : Fld) : State :=
  s.updHub h fun u => { u with regs := u.regs.countSat f flag 1 }

/-- An uncorrectable block counted and, if the record is free, recorded (R283, R286). -/
def State.noteBlock (s : State) (pa : Nat) (scrub write : Bool) : State :=
  let i := stackOf pa
  (s.countHub (hubOf pa) (ctl i KR.UE_COUNT) (ctl i KR.UE_SAT)).updHub (hubOf pa) fun u =>
    if u.rd (ctl i KR.UE_VALID) = 0 then
      u.wrs [(ctl i KR.UE_VALID, 1), (ctl i KR.UE_SCRUB, b2n scrub), (ctl i KR.UE_WRITE, b2n write),
             (ctl i KR.UE_PA_HI, pa / 2 ^ 32), (ctl i KR.UE_PA_LO, pa / 64 * 64)]
    else u

/-- The channel of an address is FAILED (R287). -/
def State.channelFailed (s : State) (pa : Nat) : Bool :=
  ((s.hub (hubOf pa)).rd (ctl (stackOf pa) KR.CH_FAILED)).testBit (channelOf pa)

/-- The CRC of block `b` as its contents and its address have it: over its 64 bytes, then PA[47:6] as six bytes (R282). -/
def State.blockCrc (s : State) (b : Nat) : Nat := crc16 (s.hbmPeek (64 * b) 64 ++ leBytes 6 b)

/-- The CRC stored with block `b` (R282). -/
def State.storedCrc (s : State) (b : Nat) : Nat := s.blockCrc b ^^^ Sparse.get 0 s.hbmCrc b

/-- How many of the next three reads of block `b` fail: all of them where its stored CRC is not that of its contents (R282, R283). -/
def State.readsFail (s : State) (b : Nat) : Nat := if Sparse.get 0 s.hbmCrc b = 0 then min 3 (Sparse.get 0 s.hbmFail b) else 3

/-- The reads that one access takes of block `b` are behind it: those that failed, up to three. -/
def State.readBehind (s : State) (b : Nat) : State :=
  { s with hbmFail := Sparse.set 0 s.hbmFail b (Sparse.get 0 s.hbmFail b - s.readsFail b) }

/-- A block read by a foreground request: the block, on a retry where its first read fails, or none where it is uncorrectable (R283,
R287). -/
def State.hbmRead (s : State) (pa : Nat) (write : Bool) : Option Row × State :=
  let b := pa / 64
  let i := stackOf pa
  if s.channelFailed pa then (none, s)
  else if s.readsFail b = 0 then (some (Row.ofBytes (s.hbmPeek (64 * b) 64)), s)
  else if s.readsFail b < 3 then
    (some (Row.ofBytes (s.hbmPeek (64 * b) 64)), s.readBehind b |>.countHub (hubOf pa) (ctl i KR.RETRY_COUNT) (ctl i KR.RETRY_SAT))
  else (none, ((s.readBehind b).noteBlock pa false write).logFault fltMemUncorrectable 2 (hubOf pa))

/-- The bytes of a block replaced under a byte mask, with a fresh CRC (R282, R284). -/
def State.hbmStore (s : State) (b : Nat) (row : Row) (mask : Nat) : State :=
  { s with hbmCrc := Sparse.erase s.hbmCrc b, hbm := (List.range 64).foldl (fun m i =>
      if mask.testBit i then Sparse.set 0 m (64 * b + i) (row.byte i) else m) s.hbm }

/-- A block write; a full one clears an uncorrectable block, a masked one to such a block is refused (R284). -/
def State.hbmWrite (s : State) (pa : Nat) (row : Row) (mask : Nat) : Bool × State :=
  let b := pa / 64
  if s.channelFailed pa then (false, s)
  else if mask = fullMask then
    (true, { s.hbmStore b row mask with hbmFail := Sparse.erase s.hbmFail b })
  else
    match s.hbmRead pa true with
    | (none, s1) => (false, s1)
    | (some _, s1) => (true, s1.hbmStore b row mask)

/-! ### Byte ranges, as the MP and the hub agents access them (R288, R320) -/

/-- The blocks of a byte range. -/
def blocksOf (a len : Nat) : List Nat := if len = 0 then [] else (List.range ((a + len - 1) / 64 + 1 - a / 64)).map (· + a / 64)

/-- Some edge port of hub `h` is enabled (R24). -/
def State.hubReached (s : State) (h : Nat) : Bool := (List.range (edgePorts h)).any fun k => edgeEnabled s.md.remap h k

/-- An agent of hub `own` cannot reach a physical address: it is beyond HBM (R31), or behind another hub while one of the two has
no enabled edge port (R24, R320). -/
def State.unreachable (s : State) (own pa : Nat) : Bool :=
  decide (hbmSize ≤ pa) || (decide (hubOf pa ≠ own) && !(s.hubReached own && s.hubReached (hubOf pa)))

/-- A refused access of an agent's own, recorded with cause UNMAPPED (R24, R31): the MP in H0 (`own` none), or an agent of a hub,
whose number is the REQ_ID (log 78). -/
def State.agentFault (s : State) (own : Option Nat) (a : Nat) : State :=
  match own with
  | none => s.addrFault a .mp .unmapped 0
  | some h => s.addrFault a .hubAgent .unmapped h

/-- The first refused address of a physical range, if one is (R31; log 78). -/
def State.refusedAt (s : State) (own : Option Nat) (a len : Nat) : Option Nat :=
  ((blocksOf a len).find? fun b => s.unreachable (own.getD 0) (64 * b)).map fun b => max a (64 * b)

/-- The bytes of a physical range; none where a block of it is uncorrectable. -/
def State.rangeRead (s : State) (a len : Nat) : Option (List Byte) × State :=
  (blocksOf a len).foldl (fun r b =>
    match r with
    | (none, s) => (none, s)
    | (some acc, s) =>
      match s.hbmRead (64 * b) false with
      | (none, s1) => (none, s1)
      | (some row, s1) =>
        let lo := max a (64 * b)
        let hi := min (a + len) (64 * b + 64)
        (some (acc ++ ((row.toBytes.drop (lo - 64 * b)).take (hi - lo))), s1)) (some [], s)

/-- A physical range read by the MP or a hub agent; none where it is refused or a block of it is uncorrectable (R24, R31). -/
def State.mpRead (s : State) (a len : Nat) (own : Option Nat := none) : Option (List Byte) × State :=
  match s.refusedAt own a len with
  | some x => (none, s.agentFault own x)
  | none => s.rangeRead a len

/-- A number of `len` bytes read by the MP; none where it cannot be read. -/
def State.mpNat (s : State) (a len : Nat) : Option Nat × State :=
  match s.mpRead a len with
  | (some bs, s1) => (some (leNat bs), s1)
  | (none, s1) => (none, s1)

/-- Bytes written to a physical range, block by block (R285): false where the write of some block was refused, in which case
the other blocks hold the new bytes. -/
def State.rangeWrite (s : State) (a : Nat) (bs : List Byte) : Bool × State :=
  (blocksOf a bs.length).foldl (fun r b =>
    let lo := max a (64 * b)
    let hi := min (a + bs.length) (64 * b + 64)
    let part := (bs.drop (lo - a)).take (hi - lo)
    let row := Row.ofBytes (List.replicate (lo - 64 * b) 0 ++ part)
    let mask := (lowMask (hi - lo)) * 2 ^ (lo - 64 * b)
    match r.2.hbmWrite (64 * b) row mask with
    | (ok, s1) => (r.1 && ok, s1)) (true, s)

/-- A physical range written by the MP or a hub agent; a refused access writes nothing (R24, R31). -/
def State.mpWrite (s : State) (a : Nat) (bs : List Byte) (own : Option Nat := none) : Bool × State :=
  match s.refusedAt own a bs.length with
  | some x => (false, s.agentFault own x)
  | none => s.rangeWrite a bs

end Sys2Proof.Machine
end

