-- ==== Sys2Proof/Machine/Operands.lean ====
section
/-!
DEFINITION. Operand forms: the narrow and far addresses of the memory instructions (R73, R75), and the operand access word
that the engine and the DMA engine read the scratchpad by (R91 to R94).
-/
namespace Sys2Proof.Machine

/-- The narrow address g[a] + sext(imm) (R69). -/
def narrowAddr (th : Thread) (a : BitVec 5) (imm : BitVec 16) : Nat := (th.rg a + sext16 imm).toNat

/-- The far address: the 48-bit sum of the base in g[a], g[a + 1] and sext(imm) (R75). -/
def farAddr (th : Thread) (a : BitVec 5) (imm : BitVec 16) : Nat :=
  (((th.rgPair a).setWidth 48) + imm.signExtend 48).toNat

/-- Whether g[a + 1][31:16] is zero, as R75 demands. -/
def farBaseOk (th : Thread) (a : BitVec 5) : Bool := decide ((th.rg (a + 1)).toNat < 0x10000)

/-- Segments of a tile: 16 in T8, 8 in T16. -/
def Oaw.segments (o : Oaw) : Nat := if o.mode = 1 then 16 else 8

/-- Bytes of one row or tile as delivered. -/
def Oaw.unitBytes (o : Oaw) : Nat := if o.mode = 0 then 64 else if o.mode = 1 then 256 else 128

/-- Bytes the OAW delivers in all. -/
def Oaw.total (o : Oaw) : Nat := o.count * o.unitBytes

/-- The end of the highest byte range the OAW names. -/
def Oaw.endAddr (o : Oaw) : Nat :=
  if o.mode = 0 then (o.base / 64 + (o.count - 1) * o.stride) * 64 + 64
  else o.base + 16 * (o.count - 1) * o.tstep + 16 * (o.segments - 1) * o.stride + 16

/-- The checks of R92 in its order: the fault code of the first that fails. -/
def Oaw.check (o : Oaw) : Option Nat :=
  if o.mode = 3 ∨ o.rsv ≠ 0 ∨ o.count = 0 ∨ 2560 < o.count ∨ (o.mode = 0 ∧ 2559 < o.stride) ∨
      (o.mode ≠ 0 ∧ (o.stride = 0 ∨ 10239 < o.stride ∨ 10239 < o.tstep)) then some fltSpadPattern
  else if (o.mode = 0 ∧ o.base % 64 ≠ 0) ∨ o.base % 16 ≠ 0 then some fltMisaligned
  else if spadSize < o.endAddr then some fltLocalAddr
  else none

/-- The first address of each row or segment of unit `k` (R93, R94). -/
def Oaw.unitAddrs (o : Oaw) (k : Nat) : List Nat :=
  if o.mode = 0 then [(o.base / 64 + k * o.stride) * 64]
  else (List.range o.segments).map fun i => o.base + 16 * k * o.tstep + 16 * i * o.stride

/-- The bytes of a unit as delivered from the bytes of its rows or segments: T8 and T16 tiles are transposed (R94). -/
def Oaw.deliver (o : Oaw) (segs : List (List Byte)) : List Byte :=
  if o.mode = 0 then segs.flatten
  else if o.mode = 1 then (List.range 16).flatMap fun j => segs.map fun g => nth 0 g j
  else (List.range 8).flatMap fun j => segs.flatMap fun g => [nth 0 g (2 * j), nth 0 g (2 * j + 1)]

/-- Rows read through a port, whole: the first uncorrectable word ends it (R89, R100). -/
def Core.readRows (c : Core) : List Nat → Option Nat × Core
  | [] => (none, c)
  | a :: as =>
    match c.readSpad a 64 with
    | (.error w, c') => (some w, c')
    | (.ok _, c') => c'.readRows as

/-- The rows that hold unit `k`, each read once (R94, R95). -/
def Oaw.unitRows (o : Oaw) (k : Nat) : List Nat := ((o.unitAddrs k).map fun a => a / 64 * 64).eraseDups

/-- The bytes of the units named, in order. -/
def Core.readUnits (c : Core) (o : Oaw) : List Nat → Except Nat (List Byte) × Core
  | [] => (.ok [], c)
  | k :: ks =>
    match c.readRows (o.unitRows k) with
    | (some w, c') => (.error w, c')
    | (none, c') =>
      match c'.readUnits o ks with
      | (.error w, c'') => (.error w, c'')
      | (.ok bs, c'') => (.ok (o.deliver ((o.unitAddrs k).map fun a => c'.peek a (if o.mode = 0 then 64 else 16)) ++ bs), c'')

/-- `len` bytes at `a`, which lie in one row, read with their row (R89, R100). -/
def Core.readInRow (c : Core) (a len : Nat) : Except Nat (List Byte) × Core :=
  match c.readSpad (a / 64 * 64) 64 with
  | (.error w, c') => (.error w, c')
  | (.ok _, c') => (.ok (c'.peek a len), c')

/-- The first `need` bytes of the stream an OAW delivers, or all it has if that is fewer: only the units that hold them
are read (R93, R94, R124). -/
def Core.readStream (c : Core) (o : Oaw) (need : Nat) : Except Nat (List Byte) × Core :=
  c.readUnits o (List.range (min o.count ((need + o.unitBytes - 1) / o.unitBytes)))

end Sys2Proof.Machine
end

