-- ==== Sys2Proof/Machine/FarMem.lean ====
section
/-!
DEFINITION. The memory share of a core (R204, R205), and far loads and stores (R75 to R77).
-/
namespace Sys2Proof.Machine

/-! ### The share (R204) -/

/-- What a request block costs: 64 bytes, in 1/65,536 byte. -/
def shareCost : Nat := 64 * 65536
/-- SHARE_BURST in force (clamped and rounded down). -/
def State.shareBurst (s : State) : Nat := clampTo 64 32768 (s.md.regs.inForce MR.SHARE_BURST) / 64 * 64 * 65536
/-- The gain of a region's cores in one reference cycle. -/
def State.shareGain (s : State) (r : Nat) : Nat := s.md.regs.inForce MR.SHARE_RATE * (s.region r).boost / 16

/-- A memory request of core `n` can leave now: the balance holds its cost and the local port has room. -/
def Core.canRequest (c : Core) : Bool := decide (shareCost ≤ c.balance) && c.localRoom 1
/-- A memory request of core `n` leaves: it costs its share and enters the mesh. -/
def State.request (s : State) (n : Nat) (q : MReq) : State :=
  (s.updCore n fun c => { c with balance := c.balance - shareCost }).inject n (.mreq q)

/-- The core's generation as its requests carry it (R180). -/
def Core.genNow (c : Core) : Nat := c.gen % 16

/-- The next row of a core's context load may be issued: some are left, and a row in another 64 KiB page waits for every
earlier one (R301, R302, R305). -/
def CtxLoad.nextRow (x : CtxLoad) : Option Nat :=
  if x.parked || decide (32 ≤ x.issued) then none
  else if x.outstanding ≠ [] ∧ (x.base + 64 * x.issued) / 2 ^ 16 ≠ (x.base + 64 * (x.issued - 1)) / 2 ^ 16 then none
  else some x.issued

/-- The request of the next context row of core `n`. -/
def Core.ctxReq (c : Core) (n : Nat) : Option MReq :=
  match c.dma.ctx with
  | none => none
  | some x =>
    x.nextRow.map fun k => ⟨false, (x.base + 64 * k) % 2 ^ 48, n, 0, 2, k, c.genNow, 0, 0, 0, 0⟩

/-- The kind of request whose turn it is at a core: 0 far accesses, if `far` says that one waits, 1 context rows, 2 descriptor rows: the
first after the kind issued last that has work (R301). -/
def Core.turnNow (c : Core) (n : Nat) (far : Bool) : Option Nat :=
  let works (k : Nat) : Bool := match k with | 0 => far | 1 => (c.ctxReq n).isSome | _ => c.dma.hasRow
  ((List.range 3).map fun i => (c.dma.turn + 1 + i) % 3).find? works

/-- A context row has been issued. -/
def Core.ctxIssued (c : Core) : Core :=
  { c with dma := { c.dma with ctx := c.dma.ctx.map fun x =>
      { x with issued := x.issued + 1, outstanding := x.outstanding ++ [x.issued] }, turn := 1 } }

/-- The first far request that waits has been issued: a store's thread issues on. -/
def Core.farIssued (c : Core) (q : MReq) : Core :=
  let c1 := { c with memWait := c.memWait.drop 1, dma := { c.dma with turn := 0 } }
  if q.write ∧ (c1.thread q.thread).wait = .share then
    c1.updThread q.thread fun th => { th with status := .ready, wait := .none }.stall
  else c1

/-- One waiting request of core `n` issued; far accesses, context rows and descriptor rows take turns, and a descriptor row goes by its own
command (R204, R301). -/
def State.shareStep (s : State) (n : Nat) : Option State :=
  let c := s.core n
  if !c.canRequest then none
  else
    match c.turnNow n (decide (c.memWait ≠ [])), c.memWait, c.ctxReq n with
    | some 0, q :: _, _ => some ((s.updCore n fun c => c.farIssued q).request n q)
    | some 1, _, some x => some ((s.updCore n Core.ctxIssued).request n x)
    | _, _, _ => none

/-- Requests of core `n` that wait are issued as far as the share and the local port allow. -/
def State.shareRun (s : State) (n : Nat) : Nat → State
  | 0 => s
  | k + 1 => match s.shareStep n with | some s1 => s1.shareRun n k | none => s

/-- SHARE_BALANCE_GAIN: a reference cycle adds to every core's balance, and requests that wait for it are issued (R204). -/
def execShareBalanceGain (s : State) : Out :=
  let add (r b : Nat) : Nat := min s.shareBurst (b + s.shareGain r)
  let s1 := (List.range 56).foldl (fun s r => s.updRegion r fun g => { g with idleShare := add r g.idleShare }) s
  let s2 := { s1 with cores := s1.cores.map fun (e : Nat × Core) => (e.1, { e.2 with balance := add (regionOf e.1) e.2.balance }) }
  .next (s2.cores.foldl (fun (s : State) (e : Nat × Core) => s.shareRun e.1 4) s2)

/-- The MREQ blocks that wait at the four hubs' memory controllers. -/
def State.waitingBlocks (s : State) : Nat := (List.range 4).foldl (fun a h => a + (s.hub h).ready.length) 0

/-- BOOST_EPOCH: H0 adjusts BOOST by the blocks that wait, and sends it to every region (R205). -/
def execBoostEpoch (s : State) : Out :=
  let b := s.rd MR.BOOST
  let w := s.waitingBlocks
  let v :=
    if s.md.regs.inForce MR.BOOST_EN = 0 then 16
    else if w < s.md.regs.inForce MR.BOOST_LOW then min 255 (b + 1)
    else if s.md.regs.inForce MR.BOOST_HIGH < w then max 16 (b - 4)
    else b
  .next ((List.range 56).foldl (fun s r => s.toRegion r (.boost v)) (s.wr MR.BOOST v))

/-- BOOST_MESSAGE: region controller `r` receives BOOST and applies it to its cores (R205). -/
def execBoostMessage (r : Nat) (s : State) : Out :=
  .next <| match (s.region r).boostIn with
  | [] => s
  | v :: l => s.updRegion r fun g => { g with boost := v, boostIn := l }

/-! ### Far loads and stores (R75 to R77) -/

/-- A far access of thread `t`: its request leaves, or waits for the share and its turn behind earlier ones (R71, R204, R301). -/
def State.farRequest (s : State) (n : Nat) (q : MReq) : State × Bool :=
  let c := s.core n
  if c.memWait = [] ∧ c.canRequest ∧ c.turnNow n true = some 0 then
    ((s.updCore n fun c => { c with dma := { c.dma with turn := 0 } }).request n q, true)
  else (s.updCore n fun c => { c with memWait := c.memWait ++ [q] }, false)

/-- The address checks of a far access of `len` bytes, then its effect (R75). -/
def farAccess (n : Nat) (t : BitVec 3) (a : BitVec 5) (imm : BitVec 16) (len insn : Nat) (body : Nat → State → State)
    (s : State) : State :=
  let th := (s.core n).thread t.toNat
  let addr := farAddr th a imm
  if !farBaseOk th a then s.threadFault n t.toNat fltAddrUnmapped addr true insn
  else if addr % len ≠ 0 then s.threadFault n t.toNat fltMisaligned addr true insn
  else body addr s

/-- A far load: the request leaves or waits; the thread holds its issue until the reply (R71, R76). -/
def State.farLoadBegin (s : State) (n : Nat) (t : BitVec 3) (d : BitVec 5) (wide : Bool) (insn addr : Nat) : State :=
  let c := s.core n
  let s1 := s.updCore n fun c =>
    c.progress.updThread t.toNat fun th => { th with status := .waiting, wait := .far, farLoad := some ⟨addr, d, wide, insn⟩ }
  (s1.farRequest n ⟨false, addr / 64 * 64, n, t.toNat, 0, t.toNat, c.genNow, 0, 0, (c.thread t.toNat).pc, insn⟩).1

/-- A far store: posted, with at most four of the thread unacknowledged (R76). -/
def State.farStoreBegin (s : State) (n : Nat) (t : BitVec 3) (len insn addr : Nat) (v : Nat) : State :=
  let c := s.core n
  let th := c.thread t.toNat
  if 4 ≤ th.farStores then s.hold n t.toNat
  else
    let off := addr % 64
    let s1 := s.retire n t.toNat fun th => { th with farStores := th.farStores + 1 }
    match s1.farRequest n ⟨true, addr / 64 * 64, n, t.toNat, 0, t.toNat, c.genNow, BitVec.ofNat 512 (v * 2 ^ (8 * off)),
        lowMask len * 2 ^ off, th.pc, insn⟩ with
    | (s2, true) => s2
    | (s2, false) => s2.updCore n fun c => c.updThread t.toNat fun th => { th with status := .waiting, wait := .share }

/-- fld.w: g[d] ← 32 bits at the far address. -/
def execFldW (n : Nat) (t : BitVec 3) (d a : BitVec 5) (imm : BitVec 16) (s : State) : Out :=
  let w := wordI 0x1A d.toNat a.toNat imm.toNat
  .next (if oddReg a then issueIllegal n t w s
    else issue n t w (farAccess n t a imm 4 w fun addr s => s.farLoadBegin n t d false w addr) s)

/-- fld.d: g[d], g[d + 1] ← 64 bits at the far address. -/
def execFldD (n : Nat) (t : BitVec 3) (d a : BitVec 5) (imm : BitVec 16) (s : State) : Out :=
  let w := wordI 0x1B d.toNat a.toNat imm.toNat
  .next (if oddReg a || oddReg d then issueIllegal n t w s
    else issue n t w (farAccess n t a imm 8 w fun addr s => s.farLoadBegin n t d true w addr) s)

/-- fst.w: 32 bits at the far address ← g[d]. -/
def execFstW (n : Nat) (t : BitVec 3) (d a : BitVec 5) (imm : BitVec 16) (s : State) : Out :=
  let w := wordI 0x1C d.toNat a.toNat imm.toNat
  .next (if oddReg a then issueIllegal n t w s
    else issue n t w (farAccess n t a imm 4 w fun addr s => s.farStoreBegin n t 4 w addr (s.gOf n t d).toNat) s)

/-- fst.d: 64 bits at the far address ← g[d], g[d + 1]. -/
def execFstD (n : Nat) (t : BitVec 3) (d a : BitVec 5) (imm : BitVec 16) (s : State) : Out :=
  let w := wordI 0x1D d.toNat a.toNat imm.toNat
  .next (if oddReg a || oddReg d then issueIllegal n t w s
    else issue n t w (farAccess n t a imm 8 w fun addr s =>
      s.farStoreBegin n t 8 w addr (((s.core n).thread t.toNat).rgPair d).toNat) s)

/-! ### Replies at the core -/

/-- The memory reply at the head of an input of core `n` that owes the local port, with its request, if it is of the kind
the event names. -/
def Core.replyAt (c : Core) (port : Nat) (ok : MReq → Bool) : Option (MReq × Reply) :=
  match c.localHead port 2 with
  | some e => match e.body with | .mrsp q r => if ok q then some (q, r) else none | _ => none
  | none => none

/-- The code of the fault a refused request raises (R31, R283, R284, R295). -/
def Reply.fault : Reply → Nat
  | .notHbm => fltAddrUnmapped
  | .unmapped => fltAddrUnmapped
  | .denied => fltPageDenied
  | _ => fltMemUncorrectable

/-- FAR_REPLY: a far load's reply writes its register, or stops its thread with a fault; one of an old generation is
dropped (R77, R180), and one to a thread that has been stopped changes nothing there. -/
def execFarReply (n port : Nat) (s : State) : Out :=
  let c := s.core n
  .next <| match c.replyAt port fun q => decide (q.unit = 0) && !q.write with
  | none => s
  | some (q, r) =>
    let s1 := s.updCore n fun c => c.tookHead s.now port 2
    let th := c.thread q.thread
    if q.gen ≠ c.genNow then s1
    else
      let s2 := s1.updCore n Core.progress
      match (if th.status = .waiting then th.farLoad else none) with
      | none => s2
      | some f =>
        match r with
        | .data row =>
          let v := row.toNat / 2 ^ (8 * (f.addr % 64))
          s2.retire n q.thread fun th =>
            let th := { th with farLoad := none }.stall
            if f.wide then th.wgPair f.dst (BitVec.ofNat 64 v) else th.wg f.dst (BitVec.ofNat 32 v)
        | r => (s2.updCore n fun c => c.updThread q.thread fun th => { th with farLoad := none }).threadFault n q.thread
            r.fault f.addr true f.insn

/-- FAR_STORE_ACK: a far store's acknowledgement, or its refusal, which stops the thread that issued it (R76, R284). -/
def execFarStoreAck (n port : Nat) (s : State) : Out :=
  let c := s.core n
  .next <| match c.replyAt port fun q => decide (q.unit = 0) && q.write with
  | none => s
  | some (q, r) =>
    let s1 := s.updCore n fun c => c.tookHead s.now port 2
    if q.gen ≠ c.genNow then s1
    else
      let s2 := s1.updCore n fun c =>
        c.progress.updThread q.thread fun th => { th with farStores := th.farStores - 1 }
      match r with
      | .ack => s2
      | r => (s2.updCore n fun c =>
          c.updThread q.thread fun th => { th with status := .stopped, wait := .none, farLoad := none }).unitFault n
          ⟨0, q.thread, r.fault, q.pc.toNat, q.va + ((List.range 64).find? fun i => q.mask.testBit i).getD 0, true, q.insn⟩

end Sys2Proof.Machine
end

