-- ==== Sys2Proof/Machine/Translate.lean ====
section
/-!
DEFINITION. Translation (11): the table walk of R289, the hubs' caches, and accesses to virtual addresses by hub agents.
-/
namespace Sys2Proof.Machine

/-- What translation answers (R289). -/
inductive Trans where
  | ok (pa : Nat) (e : PageEnt)
  | fault (k : FaultKind) (level entry entryAt : Nat)
  | unmapped
  | notHbm
  | uncorrectable
  deriving DecidableEq, Repr

/-- The root of the tables in force (R292). -/
def State.ptRoot (s : State) : Nat := 4096 * s.md.regs.inForce MR.PT_ROOT_LO + 2 ^ 32 * s.md.regs.inForce MR.PT_ROOT_HI

/-- The index of a level, as the offset of its entry in its table (R288). -/
def entryOff (va level : Nat) : Nat :=
  8 * (match level with | 1 => bits va 47 39 | 2 => bits va 38 30 | 3 => bits va 29 21 | _ => bits va 20 16)

/-- ADDR of an entry, as an address. -/
def entryAddr (e : Nat) : Nat := bits e 47 8 * 256
/-- A field of an entry that must be zero is not. -/
def entryReserved (e : Nat) : Bool := decide (bits e 7 5 ≠ 0) || decide (bits e 55 48 ≠ 0)

/-- A leaf entry at the end of a walk. -/
def leafOf (e va level at_ : Nat) (write host : Bool) : Trans :=
  let big := decide (level = 3)
  let off := if big then va % 2 ^ 21 else va % 2 ^ 16
  if host && !e.testBit 3 then .unmapped
  else if write && !e.testBit 2 then (if host then .unmapped else .fault .writeProtect level e at_)
  else if hbmSize ≤ entryAddr e + off then .notHbm
  else .ok (entryAddr e + off) ⟨big, if big then va / 2 ^ 21 else va / 2 ^ 16, entryAddr e, e.testBit 2, e.testBit 3⟩

/-- A malformed entry: a host access is refused, any other faults. -/
def badEntry (host : Bool) (level e at_ : Nat) : Trans := if host then .unmapped else .fault .badEntry level e at_

/-- What a walk finds: the answer, the entries read, and the L3 entry it passed through, if it did. -/
structure WalkEnd where
  res : Trans
  reads : Nat
  l3 : Option Nat
  deriving DecidableEq, Repr

/-- The walk from level `level` with its table at `t`; `n` bounds the levels left. -/
def State.walkFrom (s : State) (va : Nat) (write host : Bool) : Nat → Nat → Nat → Nat → Option Nat → WalkEnd × State
  | 0, _, _, reads, l3 => (⟨.uncorrectable, reads, l3⟩, s)
  | n + 1, level, t, reads, l3 =>
    let at_ := t + entryOff va level
    match s.rangeRead at_ 8 with
    | (none, s1) => (⟨.uncorrectable, reads + 1, l3⟩, s1)
    | (some bs, s1) =>
      let e := leNat bs
      let done (r : Trans) : WalkEnd × State := (⟨r, reads + 1, l3⟩, s1)
      if !e.testBit 0 then done (if host then .unmapped else .fault .notPresent level e at_)
      else if entryReserved e then done (badEntry host level e at_)
      else if level = 4 then
        if !e.testBit 1 || decide (bits e 15 8 ≠ 0) then done (badEntry host 4 e at_) else done (leafOf e va 4 at_ write host)
      else if level = 3 ∧ e.testBit 1 then
        if bits e 20 8 ≠ 0 then done (badEntry host 3 e at_) else done (leafOf e va 3 at_ write host)
      else if e.testBit 1 || (decide (level < 3) && decide (bits e 11 8 ≠ 0)) then done (badEntry host level e at_)
      else if hbmSize ≤ entryAddr e then done (badEntry host level e at_)
      else s1.walkFrom va write host n (level + 1) (entryAddr e) (reads + 1) (if level = 3 then some e else l3)

/-- A walk of hub `h`, from its walk cache's level where that holds the address (R290). -/
def State.walk (s : State) (h va : Nat) (write host : Bool) : WalkEnd × State :=
  let r := match (s.hub h).walkCache.find? (fun e => e.1 = va / 2 ^ 21) with
    | some e => s.walkFrom va write host 1 4 (entryAddr e.2) 0 none
    | none =>
      if hbmSize ≤ s.ptRoot then (⟨badEntry host 1 0 s.ptRoot, 0, none⟩, s) else s.walkFrom va write host 4 1 s.ptRoot 0 none
  (r.1, r.2.updHub h fun u => { u with regs := u.regs.count HR.WALK_READS r.1.reads })

/-- The first `k` elements of those a test chooses stay, and all the others. -/
def keepFirst {α : Type} (mine : α → Bool) : Nat → List α → List α
  | _, [] => []
  | k, e :: l =>
    if !mine e then e :: keepFirst mine k l
    else match k with | 0 => keepFirst mine 0 l | k + 1 => e :: keepFirst mine k l

/-- Two cached pages lie in one set of the page cache: 4,096 sets of eight 64 KiB pages, 1,024 of eight 2 MiB pages (R290). -/
def PageEnt.sameSet (a b : PageEnt) : Bool :=
  decide (a.big = b.big) && (let n := if a.big then 1024 else 4096; decide (a.vpage % n = b.vpage % n))

/-- What a walk found goes into the caches of its hub: eight pages to a set, 1,024 entries in the walk cache. DESIGN CHOICE (log 85): the
entry filled longest ago gives way (R290). -/
def Hub.fill (u : Hub) (va : Nat) (w : WalkEnd) : Hub :=
  let u1 := match w.l3 with
    | some e => { u with walkCache := ((va / 2 ^ 21, e) :: u.walkCache.filter fun x => decide (x.1 ≠ va / 2 ^ 21)).take 1024 }
    | none => u
  match w.res with
  | .ok _ e =>
    let others := u1.cache.filter fun x => !(decide (x.big = e.big) && decide (x.vpage = e.vpage))
    { u1 with cache := e :: keepFirst e.sameSet 7 others }
  | _ => u1

/-- A cached page that answers an access: one whose rights it passes. -/
def Hub.lookup (u : Hub) (va : Nat) (write host : Bool) : Option Nat :=
  (u.cache.find? fun e => decide (e.vpage = if e.big then va / 2 ^ 21 else va / 2 ^ 16) && (!write || e.w) && (!host || e.host)).map
    fun e => e.base + if e.big then va % 2 ^ 21 else va % 2 ^ 16

/-- A counter of a hub without a flag. -/
def State.hubCount (s : State) (h : Nat) (f : Fld) (k : Nat) : State :=
  s.updHub h fun u => { u with regs := u.regs.count f k }

/-- A hub agent's translation, at once: a cached page, or a walk that fills the caches. -/
def State.translate (s : State) (h va : Nat) (write host : Bool) : Trans × State :=
  match (s.hub h).lookup va write host with
  | some pa => (.ok pa ⟨false, va / 2 ^ 16, pa / 2 ^ 16 * 2 ^ 16, write, host⟩, s.hubCount h HR.PAGE_HITS 1)
  | none =>
    match (s.hubCount h HR.WALKS 1).walk h va write host with
    | (w, s1) => (w.res, s1.updHub h fun u => u.fill va w)

/-- The outcome of an access to a virtual range by a hub agent: done (with the bytes read), an answer of translation other
than an address, or an uncorrectable block. -/
inductive VRes where
  | ok (bs : List Byte)
  | no (t : Trans)
  | bad
  deriving DecidableEq, Repr

/-- The translation of a block for an agent of hub `own`, through the hub that owns the block: one that the agent cannot reach
is refused, and recorded unless it is the host's, whose request the bridge records (R24, R320). -/
def State.agentTrans (s : State) (b : Nat) (write host : Bool) (own : Nat) : Trans × State :=
  match s.translate (hubOf (64 * b)) (64 * b % 2 ^ 48) write host with
  | (.ok pa e, s1) =>
    if s1.unreachable own pa then (.unmapped, if host then s1 else s1.agentFault (some own) (64 * b)) else (.ok pa e, s1)
  | r => r

/-- The first block of a virtual range that does not translate, with its answer. -/
def State.vCheck (s : State) (va len : Nat) (write host : Bool) (own : Nat := 0) : Option Trans × State :=
  (blocksOf va len).foldl (fun r b =>
    match r with
    | (some t, s) => (some t, s)
    | (none, s) =>
      match s.agentTrans b write host own with
      | (.ok _ _, s1) => (none, s1)
      | (t, s1) => (some t, s1)) (none, s)

/-- A virtual range read, block by block. -/
def State.vRead (s : State) (va len : Nat) (host : Bool) (own : Nat := 0) : VRes × State :=
  (blocksOf va len).foldl (fun r b =>
    match r with
    | (.ok acc, s) =>
      match s.agentTrans b false host own with
      | (.ok pa _, s1) =>
        match s1.hbmRead pa false with
        | (none, s2) => (.bad, s2)
        | (some row, s2) =>
          let lo := max va (64 * b)
          let hi := min (va + len) (64 * b + 64)
          (.ok (acc ++ ((row.toBytes.drop (lo - 64 * b)).take (hi - lo))), s2)
      | (t, s1) => (.no t, s1)
    | r => r) (.ok [], s)

/-- A virtual range written, each block on its own (R284, R285). A block that does not translate stops the write there; a
block whose masked write is refused leaves the others written. -/
def State.vWrite (s : State) (va : Nat) (bs : List Byte) (host : Bool) (own : Nat := 0) : VRes × State :=
  (blocksOf va bs.length).foldl (fun r b =>
    match r with
    | (.no t, s) => (.no t, s)
    | (v, s) =>
      match s.agentTrans b true host own with
      | (.ok pa _, s1) =>
        let lo := max va (64 * b)
        let hi := min (va + bs.length) (64 * b + 64)
        let row := Row.ofBytes (List.replicate (lo - 64 * b) 0 ++ (bs.drop (lo - va)).take (hi - lo))
        match s1.hbmWrite pa row (lowMask (hi - lo) * 2 ^ (lo - 64 * b)) with
        | (ok, s2) => (if ok then v else .bad, s2)
      | (t, s1) => (.no t, s1)) (.ok [], s)

end Sys2Proof.Machine
end

