-- ==== Sys2Proof/Machine/Net.lean ====
section
/-!
DEFINITION. Sending over Ryudon (12): the node table, ports of a node, sending flows, and the packets they send.
-/
namespace Sys2Proof.Machine

/-! ### Ports and nodes (R308, R318, R319) -/

/-- A register of port `p` in the window of its hub. -/
def portFld (p : Nat) (f : Fld) : Fld := f.at (0x600000 + p % 9 * 0x40000)
/-- A register of port `p`. -/
def State.portRd (s : State) (p : Nat) (f : Fld) : Nat := (s.hub (p / 9)).rd (portFld p f)
/-- A register of port `p` written. -/
def State.portWr (s : State) (p : Nat) (f : Fld) (v : Nat) : State := s.updHub (p / 9) fun u => u.wr (portFld p f) v
/-- The MAC rate of a port in Gb/s (R308). -/
def State.macRate (s : State) (p : Nat) : Nat := match s.portRd p PR.LANE_RATE with | 1 => 400 | 2 => 800 | 3 => 1600 | _ => 0
/-- TICK_PORT and REPORT_PORT_B in force: values above 8 act as 8. -/
def State.tickPort (s : State) : Nat := min 8 (s.md.regs.inForce MR.TICK_PORT)
/-- See `State.tickPort`. -/
def State.reportPortB (s : State) : Nat := min 8 (s.md.regs.inForce MR.REPORT_PORT_B)

/-- A node entry (R318). -/
structure NodeEnt where
  valid : Bool
  v4 : Bool
  member : Bool
  index : Nat
  ports : Nat
  addr : List Byte
  deriving DecidableEq, Repr

/-- Bytes of a table in HBM; none where a block cannot be read. -/
def State.tablePeek (s : State) (a len : Nat) : Option (List Byte) :=
  if (blocksOf a len).any (fun b => decide (hbmSize ≤ 64 * b) || decide (s.readsFail b = 3) || s.channelFailed (64 * b)) then none
  else some (s.hbmPeek a len)

/-- An entry of a table that hub `h` looks up: one beyond HBM is refused and recorded (R31). -/
def State.noteTable (s : State) (h a len : Nat) : State :=
  match (blocksOf a len).find? fun b => decide (hbmSize ≤ 64 * b) with
  | some b => s.agentFault (some h) (max a (64 * b))
  | none => s

/-- Where entry `n` of the node table lies. -/
def State.nodeAddr (s : State) (n : Nat) : Nat := s.rd MR.NODE_TABLE_LO + 2 ^ 32 * s.rd MR.NODE_TABLE_HI + 32 * n

/-- Entry `n` of the node table, if it is VALID. -/
def State.node (s : State) (n : Nat) : Option NodeEnt :=
  if s.rd MR.NODE_COUNT ≤ n then none
  else
    match s.tablePeek (s.nodeAddr n) 32 with
    | none => none
    | some bs =>
      let f := leNat (bs.take 1)
      if bitOf f 0 then
        some ⟨true, bitOf f 1, bitOf f 2, leNat ((bs.drop 1).take 1), leNat ((bs.drop 8).take 8), bs.drop 16⟩
      else none

/-- The node of a group member, if the table has one. -/
def State.memberNode (s : State) (m : Nat) : Option Nat :=
  (List.range (s.rd MR.NODE_COUNT)).find? fun n => match s.node n with | some e => e.member && decide (e.index = m) | none => false

/-- The address of port `p` of a node: `p` added to the last byte (R318). -/
def NodeEnt.addrOf (e : NodeEnt) (p : Nat) : List Byte := e.addr.take 15 ++ [BitVec.ofNat 8 (leNat (e.addr.drop 15) + p)]

/-- TOPO_OK of a port (R390). -/
def State.topoOk (s : State) (p : Nat) : Bool := (s.rd MR.TOPO_OK_LO + 2 ^ 32 * s.rd MR.TOPO_OK_HI).testBit p
/-- An entry of the expected topology or of the discovered one: its flags, and PEER_PORT with PEER_SERIAL (R389). -/
def topoEntry (m : Sparse Byte) (p : Nat) : Nat × List Byte :=
  (leNat (Sparse.slice 0 m (16 * p) 1), Sparse.slice 0 m (16 * p + 1) 1 ++ Sparse.slice 0 m (16 * p + 8) 8)
/-- A port matches: it is UP, not UNUSED, and its discovered entry equals its expected one (R390). -/
def State.topoMatch (s : State) (p : Nat) : Bool :=
  let e := topoEntry s.md.boot.exp p
  decide (s.portRd p PR.LINK_UP = 1) && !bitOf e.1 1 && decide ((topoEntry s.md.boot.disc p).2 = e.2)
/-- TOPO_OK of every port set anew, once TOPO_EXPECT_VALID is 1 (R390). -/
def State.markTopo (s : State) : State :=
  if s.rd MR.TOPO_EXPECT_VALID = 0 then s
  else
    let ok := (List.range 36).foldl (fun a p => if s.topoMatch p then a + 2 ^ p else a) 0
    s.wrs [(MR.TOPO_OK_LO, ok), (MR.TOPO_OK_HI, ok / 2 ^ 32)]

/-- The UP ports of hub `h` cabled toward a node, ascending, which are TOPO_OK (R319, R390). -/
def State.upPorts (s : State) (h node : Nat) : List Nat :=
  match s.node node with
  | none => []
  | some e => ((List.range 9).map (9 * h + ·)).filter fun p =>
      e.ports.testBit p && decide (s.portRd p PR.LINK_UP = 1) && s.topoOk p

/-- NEXT_HOP_MAC of a port. -/
def State.nextHop (s : State) (p : Nat) : Nat := s.portRd p PR.NEXT_HOP_LO + 2 ^ 32 * s.portRd p PR.NEXT_HOP_HI
/-- The address of a port, in 16 bytes as a node entry holds it. -/
def State.portAddr (s : State) (p : Nat) (v4 : Bool) : List Byte :=
  if v4 then List.replicate 12 0 ++ leBytes 4 (s.portRd p PR.IPV4_ADDR)
  else (List.range 4).flatMap fun w => leBytes 4 (s.portRd p (PR.IPV6_ADDR.at (4 * w)))

/-! ### Packets (R314 to R316) -/

/-- Number of 512-byte blocks of a payload. -/
def blockCount (len : Nat) : Nat := (len + 511) / 512
/-- The blocks of a mask of a body, each with its CRC. -/
def packBlocks (body : List Byte) (mask : Nat) : List Byte :=
  ((List.range (blockCount body.length)).filter fun k => mask.testBit k).flatMap fun k =>
    let b := (body.drop (512 * k)).take 512
    b ++ leBytes 4 (crc32c b)

/-- The bytes of a Ryudon packet (R315). -/
def ryudonBytes (typ : Nat) (retx ackNow : Bool) (flow seq src dst jobId jobGen hubGen mask : Nat) (body : List Byte) :
    List Byte :=
  let h := leBytes 1 (typ + 16) ++ leBytes 1 (b2n retx + 2 * b2n ackNow) ++ leBytes 2 flow ++ leBytes 4 seq ++ leBytes 4 src ++
    leBytes 4 dst ++ leBytes 2 jobId ++ leBytes 1 jobGen ++ leBytes 1 hubGen ++ leBytes 2 body.length ++ leBytes 1 mask ++
    List.replicate 5 0
  h ++ leBytes 4 (crc32c h) ++ packBlocks body mask

/-- The MAC address of a port: the module's MAC base plus the port's number (R311). -/
def portMac (p : Nat) : Nat := (Config.macBase.toNat + p) % 2 ^ 48

/-- A Ryudon packet sent from hub `h` through port `p` to port `p` of a node; a port that is not UP carries no frames. -/
def State.sendPacket (s : State) (h p node flow : Nat) (bytes : List Byte) : State :=
  match (if s.portRd p PR.LINK_UP = 1 then s.node node else none) with
  | none => s
  | some e =>
    let u := s.hub h
    let ctrl := decide (flow ≤ 1)
    (s.emit (.ryudon
      { port := p, mac := s.nextHop p, v4 := decide (u.rd HR.IPV4 = 1), src := s.portAddr p (decide (u.rd HR.IPV4 = 1)),
        dst := e.addrOf p, srcPort := 49152 + flow % 16384,
        dstPort := u.rd HR.UDP_PORT, dscp := u.regs.inForce (if ctrl then HR.DSCP_CTRL else HR.DSCP_DATA), ecn := 2,
        vlan := if s.portRd p PR.VLAN_EN = 1 then some (s.portRd p PR.VLAN_ID, s.portRd p PR.VLAN_PCP) else none,
        payload := bytes })).hubCount h HR.PKT_TX 1

/-- Nanoseconds of a span of CCLK at 1.05 GHz. -/
def nsOf (cclk : Nat) : Nat := cclk * 20 / 21

/-- The body as this transmission carries it: a TICK_REPORT has its own ELAPSED_NS each time (R328). -/
def State.bodyNow (s : State) (m : TxMsg) : List Byte :=
  if m.typ = 4 then
    m.body.take 12 ++ leBytes 4 (nsOf (s.now - Sparse.get s.now s.md.reportAt (leNat (m.body.take 8)))) ++ m.body.drop 16
  else m.body

/-- A packet of a flow transmitted: all its blocks the first time, the blocks of a mask when sent again; a TICK_REPORT is
sent whole each time (R323, R328). -/
def State.transmit (s : State) (h : Nat) (f : TxFlow) (k : TxPkt) (retx : Bool) (mask : Nat) : State :=
  let body := s.bodyNow k.msg
  let m := if k.msg.typ = 4 ∨ !retx then 2 ^ blockCount body.length - 1 else mask
  let s1 := s.sendPacket h f.port f.node f.flow (ryudonBytes k.msg.typ retx false f.flow k.seq (s.rd MR.NODE_ID) f.node
    k.msg.jobId k.msg.jobGen ((s.hub h).rd HR.HUB_GEN) m body)
  if retx then s1.hubCount h HR.RETX_PKTS 1 else s1

/-! ### Sending flows (R319, R323) -/

/-- The sending flow of hub `h` to a node. -/
def State.txFlow (s : State) (h node flow : Nat) : Option TxFlow :=
  (s.hub h).tx.find? fun f => decide (f.node = node) && decide (f.flow = flow)
/-- FLOWS_ACTIVE: bound contexts of both directions. -/
def Hub.countFlows (u : Hub) : Hub := u.wr HR.FLOWS_ACTIVE (u.tx.length + u.rx.length)
/-- A sending flow put back; a new one is bound. -/
def State.setTx (s : State) (h : Nat) (f : TxFlow) : State :=
  let same (x : TxFlow) : Bool := decide (x.node = f.node) && decide (x.flow = f.flow)
  let put (l : List TxFlow) : List TxFlow := if l.any same then l.map (fun x => if same x then f else x) else l ++ [f]
  s.updHub h fun u => Hub.countFlows { u with tx := put u.tx }

/-- A 32-byte group event (R329). -/
def groupEvent (kind member elapsed tick node outcome : Nat) : List Byte :=
  leBytes 1 kind ++ leBytes 1 member ++ leBytes 2 0 ++ leBytes 4 elapsed ++ leBytes 8 tick ++ leBytes 4 node ++
    leBytes 1 outcome ++ List.replicate 11 0

/-- A group event handed to the MP for FM_RING (R329, R342). -/
def State.postEvent (s : State) (bs : List Byte) : State :=
  s.updMd fun m => { m with ringWait := m.ringWait ++ [.msg (m.regs.rd MR.FM_RING) 0 bs] }

/-! ### Queue pairs of the bridge (R335 to R337) -/

/-- An entry of the queue pair table (R335). -/
structure QpEnt where
  v4 : Bool
  write : Bool
  read : Bool
  send : Bool
  regs : Bool
  pmtu : Nat
  port : Nat
  rnr : Nat
  qpn : Nat
  rkey : Nat
  rqPsn : Nat
  addr : List Byte
  ring : Nat
  member : Nat
  deriving DecidableEq, Repr

/-- Entry `q` of the queue pair table, if it is VALID. -/
def State.qpEnt (s : State) (q : Nat) : Option QpEnt :=
  if s.rd MR.QP_COUNT ≤ q then none
  else
    match s.tablePeek (s.rd MR.QP_TABLE_LO + 2 ^ 32 * s.rd MR.QP_TABLE_HI + 64 * q) 64 with
    | none => none
    | some b =>
      let n (a len : Nat) : Nat := leNat ((b.drop a).take len)
      let f := n 0 1
      if bitOf f 0 then
        some ⟨bitOf f 1, bitOf f 2, bitOf f 3, bitOf f 4, bitOf f 5, 2 ^ (n 1 1 + 7), n 2 1, n 3 1 % 32, n 4 4 % 2 ^ 24, n 8 4,
          n 12 4 % 2 ^ 24, (b.drop 0x10).take 16, n 0x20 4 % 2 ^ 18, n 0x24 1⟩
      else none

/-- Where the packets of queue pair `q` go: its entry's host, from its host port (R335); QPN 0x10_0000 + q is the bridge's (R334). -/
def State.roceTo (s : State) (q : Nat) : RoceTo :=
  match s.qpEnt q with
  | some e => ⟨e.port, s.nextHop e.port, e.v4, e.addr, e.qpn, 0x100000 + q⟩
  | none => ⟨0, 0, false, [], 0, 0x100000 + q⟩

/-- Queue pair `q`; it begins at RQ_PSN, and anew when the entry's RQ_PSN has changed (log 33). -/
def State.qp (s : State) (q : Nat) : Qp :=
  let ps := match s.qpEnt q with | some e => (e.rqPsn, s.macRate e.port) | none => (0, 0)
  let fresh : Qp := ⟨ps.1, ps.1, none, none, [], 0, none, ps.2, 1, s.now, s.now⟩
  match s.md.qps.find? fun e => e.1 = q with
  | some e => if e.2.start = ps.1 then e.2 else fresh
  | none => fresh
/-- Queue pair `q` changed. -/
def State.updQp (s : State) (q : Nat) (f : Qp → Qp) : State :=
  let x := f (s.qp q)
  s.updMd fun m => { m with qps := Sparse.put m.qps q x }

/-- The answer to a complete request: the packets of a READ response, or an ACK of its last PSN. -/
def State.qpAnswer (s : State) (q : Nat) (r : QpReq) (pmtu msn : Nat) : State :=
  if r.read then
    let n := max 1 ((r.data.length + pmtu - 1) / pmtu)
    (List.range n).foldl (fun s i =>
      s.emit (.roceRead (s.roceTo q) ((r.psn + i) % 2 ^ 24) (decide (i = 0)) (decide (i + 1 = n)) msn ((r.data.drop (pmtu * i)).take pmtu))) s
  else s.emit (.roceAck (s.roceTo q) r.last 0 msn)

/-- Requests are answered in PSN order as far as they are complete; one that failed is answered with its NAK, and the queue pair
waits for the host at that PSN (R336, R337, log 33). -/
def State.qpDrain (s : State) (q : Nat) : Nat → State
  | 0 => s
  | n + 1 =>
    let x := s.qp q
    match x.reqs with
    | [] => s
    | r :: l =>
      match r.nak with
      | some (syn, psn) =>
        (s.emit (.roceAck (s.roceTo q) psn syn x.msn)).updQp q fun x => { x with reqs := [], write := none, send := none, psn := psn }
      | none =>
        if r.complete then
          let msn := (x.msn + 1) % 2 ^ 24
          ((s.updQp q fun x => { x with reqs := l, msn := msn }).qpAnswer q r
            (match s.qpEnt q with | some e => e.pmtu | none => 1024) msn).qpDrain q n
        else s

/-- See `State.qpDrain`. -/
def State.qpRun (s : State) (q : Nat) : State := s.qpDrain q (s.qp q).reqs.length

/-- FLT_PEER_UNREACHABLE toward a member fails the requests that wait for it with NAK 0x63 (R336). -/
def State.qpLost (s : State) (q node : Nat) : State :=
  let fail (r : QpReq) : QpReq :=
    if r.node = some node ∧ !r.complete then { r with nak := some (0x63, r.psn) } else r
  if s.md.qps.any fun e => e.1 = q then (s.updQp q fun x => { x with reqs := x.reqs.map fail }).qpRun q else s

/-- FLT_PEER_UNREACHABLE: the record if it is free, the abort, and the master's group event (R323, R329, R345). -/
def State.peerUnreachable (s : State) (h node flow : Nat) : State :=
  let s1 := if s.rd MR.UNREACH_VALID = 0 then
    s.wrs [(MR.UNREACH_VALID, 1), (MR.UNREACH_NODE, node), (MR.UNREACH_FLOW, flow)] else s
  let s0 := s1.sendAbort (.ofHub h logPeerUnreachable)
  let s2 := if 0x1000 ≤ flow then s0.qpLost (flow - 0x1000) node else s0
  if s2.md.regs.inForce MR.GROUP_MASTER = 1 then
    s2.postEvent (groupEvent 4 (match s2.node node with | some e => e.index | none => 0) 0 s2.tickNum node 0)
  else s2

/-- Messages that wait are sent while fewer than 64 packets are unacknowledged (R323). -/
def State.pump (s : State) (h node flow : Nat) : Nat → State
  | 0 => s
  | n + 1 =>
    match s.txFlow h node flow with
    | none => s
    | some f =>
      match f.queue with
      | [] => s
      | m :: l =>
        if f.unacked.length < 64 then
          let k : TxPkt := ⟨f.nextSeq, m, 0⟩
          let f1 := { f with queue := l, nextSeq := (f.nextSeq + 1) % 2 ^ 32, unacked := f.unacked ++ [k] }
          ((s.setTx h f1).transmit h f1 k false 0).pump h node flow n
        else s

/-- Flow contexts of a hub in each direction (R321). -/
def flowContexts : Nat := 8192

/-- A flow bound to its port at first use (R319, R325); none where no UP port leads to the node. -/
def State.bind (s : State) (h node flow : Nat) : Option TxFlow :=
  let at_ (p : Nat) : Option TxFlow :=
    if !s.topoOk p || decide (s.portRd p PR.LINK_UP = 0) then none
    else some
      { node := node, flow := flow, port := p, nextSeq := 0, unacked := [], queue := [], tried := [],
        rate := s.macRate p, alpha := 1, cut := s.now, mark := s.now, peerGen := none }
  if flow = 0 then at_ s.tickPort
  else if flow = 1 then at_ s.reportPortB
  else
    let ps := s.upPorts h node
    match ps[(flow + node) % ps.length]? with
    | some p => at_ p
    | none => none

/-- A message handed to a flow of hub `h`; one whose flow finds no free context waits (R321). -/
def State.netSend (s : State) (h node flow : Nat) (m : TxMsg) : State :=
  if (s.txFlow h node flow).isNone ∧ flowContexts ≤ (s.hub h).tx.length then
    s.updHub h fun u => { u with txWait := u.txWait ++ [(node, flow, m)] }
  else
  match (match s.txFlow h node flow with | some f => some f | none => s.bind h node flow) with
  | none => (if node < s.rd MR.NODE_COUNT then s.noteTable h (s.nodeAddr node) 32 else s).peerUnreachable h node flow
  | some f => (s.setTx h { f with queue := f.queue ++ [m] }).pump h node flow (f.queue.length + 1)

/-- A copy of the report of a tick waits for its acknowledgement on flow 0 or 1 of H0. -/
def State.reportHeld (s : State) (tick : Nat) : Bool :=
  (s.hub 0).tx.any fun f => decide (f.flow ≤ 1) && (f.unacked.map (·.msg) ++ f.queue).any fun m =>
    decide (m.typ = 4) && decide (leNat (m.body.take 8) = tick)

/-- Contexts of hub `h` are free: the messages that wait for one are sent in order as far as they find one (R321). -/
def State.txLook (s : State) (h : Nat) : State :=
  (s.hub h).txWait.foldl (fun s x => s.netSend h x.1 x.2.1 x.2.2) (s.updHub h fun u => { u with txWait := [] })

end Sys2Proof.Machine
end

