-- ==== Sys2Proof/Machine/Rings.lean ====
section
/-!
DEFINITION. Message rings (R339 to R344): posts, the notices that follow them, and the MP's posts that wait for room.
-/
namespace Sys2Proof.Machine

/-- A ring descriptor (R339). -/
structure Ring where
  base : Nat
  sizeLog : Nat
  valid : Bool
  notify : Bool
  qp : Nat
  tail : Nat
  head : Nat
  deriving DecidableEq, Repr

/-- Where the descriptor of ring `r` lies. -/
def State.ringAddr (s : State) (r : Nat) : Nat := s.rd MR.RING_TABLE_LO + 2 ^ 32 * s.rd MR.RING_TABLE_HI + 32 * r

/-- The descriptor of ring `r`; none where it cannot be read. -/
def State.ring (s : State) (r : Nat) : Option Ring :=
  (s.tablePeek (s.ringAddr r) 32).map fun bs =>
    let n (a len : Nat) : Nat := leNat ((bs.drop a).take len)
    ⟨n 0 8, n 8 1, bitOf (n 9 1) 0, bitOf (n 9 1) 1, n 10 2, n 16 8, n 24 8⟩

/-- What a post answers. -/
inductive Posted where
  | ok | refused | full
  deriving DecidableEq, Repr

/-- The bytes a message of `len` bytes takes in a ring (R340). -/
def recordSize (len : Nat) : Nat := (8 + len + 63) / 64 * 64

/-- A body of DATA (R333). -/
def dataBody (op flags q psn addr len imm : Nat) (b : List Byte) : List Byte :=
  leBytes 1 op ++ leBytes 1 flags ++ leBytes 2 q ++ leBytes 4 psn ++ leBytes 8 addr ++ leBytes 4 len ++ leBytes 4 imm ++ b

/-- The bridge sends a ring notice on its queue pair, if that is VALID (R343). -/
def State.sendNotice (s : State) (q imm : Nat) : State :=
  if (s.qpEnt q).isNone then s
  else (s.updMd fun m => { m with notices := m.notices ++ [⟨q, imm, s.now, false⟩] }).emit (.notice (s.roceTo q) imm)

/-- A ring's notice to the host (R343): the bridge writes it itself, a member sends DATA NOTIFY to the bridge, which FM_NODE names
(R405), from the hub of the queue pair's host port (R319; the ring's hub where the module has no entry for it, log 16). -/
def State.notify (s : State) (h r qp : Nat) : State :=
  let imm := s.md.regs.inForce MR.GROUP_INDEX * 2 ^ 18 + r
  if s.rd MR.BRIDGE_EN = 1 then s.sendNotice qp imm
  else
    let from_ := match s.qpEnt qp with | some e => e.port / 9 % 4 | none => h
    s.netSend from_ (s.rd MR.FM_NODE) (0x1000 + qp) ⟨0, 0, 0, dataBody 7 0 qp 0 imm 0 imm [], none⟩

/-- A message posted to ring `r` by the hub that owns it (R339 to R343). A record that cannot be written is refused
(log 17). -/
def State.ringPost (s : State) (r tag : Nat) (msg : List Byte) : Posted × State :=
  let h := r / 2 ^ 16
  let refuse (s : State) : Posted × State := (.refused, s.hubCount h HR.RING_REFUSED 1)
  match s.ring r with
  | none => refuse (s.noteTable h (s.ringAddr r) 32)
  | some g =>
    if !g.valid || decide (g.sizeLog < 12) || decide (30 < g.sizeLog) then refuse s
    else
      let size := 2 ^ g.sizeLog
      let len := recordSize msg.length
      if size / 2 < len then refuse (s.logFault logRingMsgSize 2 h)
      else
        let t := g.tail % size
        let pad := if size < t + len then size - t else 0
        if size < (g.tail - g.head) + pad + len then (.full, s)
        else
          let at_ := g.base + (t + pad) % size
          match s.vCheck at_ (8 + msg.length) true false h with
          | (some _, s1) => refuse s1
          | (none, s1) =>
            let r1 := if 0 < pad then s1.vWrite (g.base + t) (leBytes 4 (2 ^ 30 + (pad - 8)) ++ leBytes 4 0) false h else (.ok [], s1)
            let r2 := r1.2.vWrite at_ (leBytes 4 msg.length ++ leBytes 4 tag ++ msg) false h
            let r3 := r2.2.mpWrite (s.ringAddr r + 16) (leBytes 8 (g.tail + pad + len)) (some h)
            (.ok, if g.notify then r3.2.notify h r g.qp else r3.2)

/-- The record of a pending translation fault (R295). -/
def State.faultRecord (s : State) (i : Nat) : List Byte :=
  match s.md.faults.find? fun e => e.1 = i with
  | none => []
  | some (_, f) =>
    let waiters := (List.range 4).foldl (fun a h => a + ((s.hub h).held.filter fun q => match q with
      | .mreq p _ => decide (p = f.page) | .engine p _ => decide (p = f.page)).length) 0
    leBytes 4 (f.seq * 256 + i) ++ leBytes 1 f.kind.code ++ leBytes 1 f.level ++ leBytes 1 f.unit ++
      leBytes 1 (b2n f.poolEmpty) ++ leBytes 8 (f.page * 2 ^ 16) ++ leBytes 4 f.first ++ leBytes 4 waiters ++
      leBytes 8 s.tickNum ++ leBytes 8 f.entry ++ List.replicate 24 0

/-- The MP's first waiting post carried out if its ring has room (R342). -/
def State.ringStep (s : State) : Option State :=
  match s.md.ringWait with
  | [] => none
  | p :: l =>
    let s1 := s.updMd fun m => { m with ringWait := l }
    let r := match p with
      | .msg ring tag body => s1.ringPost ring tag body
      | .fault i => s1.ringPost (s.rd MR.FAULT_RING) 0 (s.faultRecord i)
    if r.1 = .full then none else some r.2

/-- The MP's waiting posts carried out in order as far as they have room. -/
def State.ringDrain (s : State) : Nat → State
  | 0 => s
  | n + 1 => match s.ringStep with | some s1 => s1.ringDrain n | none => s

/-- See `State.ringDrain`. -/
def State.ringRun (s : State) : State := s.ringDrain (2 * s.md.ringWait.length)

/-- The MGMT posts that wait at hub `h` carried out in order; one whose ring is still full goes on waiting (R331). -/
def State.mgmtDrain (s : State) (h : Nat) : State :=
  (s.hub h).mgmtWait.foldl (fun s p =>
    let keep : State := s.updHub h fun u => { u with mgmtWait := u.mgmtWait ++ [p] }
    match p with
    | .msg ring tag body => match s.ringPost ring tag body with | (.full, _) => keep | (_, s1) => s1
    | .fault _ => keep) (s.updHub h fun u => { u with mgmtWait := [] })

/-- A consumer may have advanced a HEAD: every post that waits looks again (R342). -/
def State.ringsLook (s : State) : State :=
  (List.range 4).foldl (fun s h => s.mgmtDrain h) s.ringRun

/-- A message handed to a flow, and the posts that its failure makes (R323). -/
def State.send (s : State) (h node flow : Nat) (m : TxMsg) : State := (s.netSend h node flow m).ringRun

end Sys2Proof.Machine
end

