-- ==== Sys2Proof/Machine/Requests.lean ====
section
/-!
DEFINITION. Memory requests at the hubs (11): translation, translation faults, the memory controllers, and their background
work.
-/
namespace Sys2Proof.Machine

/-! ### Requests and answers -/

/-- Two requests of one source to one granule keep their order (R185). -/
def MReq.sameGranule (a b : MReq) : Bool := decide (a.src = b.src) && decide (a.va / 256 = b.va / 256)

/-- A request held at a fault goes before another one. -/
def Hub.heldBefore (u : Hub) (q : MReq) : Bool :=
  u.held.any fun x => match x with | .mreq _ p => p.sameGranule q | _ => false

/-- A request held at a fault or in a walk goes before another one. -/
def Hub.blocked (u : Hub) (ws : List Walk) (q : MReq) : Bool := ws.any (fun w => w.req.sameGranule q) || u.heldBefore q

/-- The answer to a request leaves its hub for the core or the region controller that asked; to a controller whose path is cut, over its
dedicated line (R27, R182). -/
def State.answer (s : State) (h : Nat) (q : MReq) (r : Reply) : State :=
  if q.unit = 3 ∧ regionCut s.md.remap h (q.src % 256) then s.sink (.mrsp q r)
  else s.hubSend h q.router (.mrsp q r)

/-- The first memory request in an edge port's buffer, taken out. -/
def takeReq : List Payload → Option (MReq × List Payload)
  | [] => none
  | .mreq q :: l => some (q, l)
  | p :: l => (takeReq l).map fun r => (r.1, p :: r.2)

/-- MEMORY_REQUEST: hub `h` takes the next request of edge port `k`; its page cache answers it, or a walk starts (R290). -/
def execMemoryRequest (h k : Nat) (s : State) : Out :=
  let u := s.hub h
  .next <| match takeReq (Sparse.get [] u.edgeIn k) with
  | none => s
  | some (q, l) =>
    let s1 := s.edgeTook h k l
    match u.lookup q.va q.write false with
    | some pa =>
      if u.blocked u.walks q then (s1.hubCount h HR.WALKS 1).updHub h fun u => { u with walks := u.walks ++ [⟨q, false⟩] }
      else (s1.hubCount h HR.PAGE_HITS 1).updHub h fun u => { u with ready := u.ready ++ [⟨q, pa, false⟩] }
    | none => (s1.hubCount h HR.WALKS 1).updHub h fun u => { u with walks := u.walks ++ [⟨q, false⟩] }

/-! ### Translation faults (R293 to R295) -/

/-- HELD of a hub and FAULTS_PENDING follow their lists. -/
def State.countHeld (s : State) (h : Nat) : State :=
  (s.updHub h fun u => u.wr HR.HELD u.held.length).wr MR.FAULTS_PENDING s.md.faults.length

/-- The next pool page, bad entries skipped and counted; none if the pool is empty (R294). `k` bounds the entries left. -/
def State.takePool (s : State) : Nat → Option Nat × State
  | 0 => (none, s)
  | k + 1 =>
    let head := s.rd MR.POOL_HEAD
    if head = s.rd MR.POOL_TAIL then (none, s)
    else
      let at_ := s.rd MR.POOL_BASE_LO / 64 * 64 + 2 ^ 32 * s.rd MR.POOL_BASE_HI + 8 * (head % 2 ^ min 16 (s.rd MR.POOL_ORDER))
      match s.mpNat at_ 8 with
      | (e, s1) =>
        let s2 := s1.wr MR.POOL_HEAD (head + 1)
        match e with
        | some pa => if pa % 2 ^ 16 = 0 ∧ pa + 2 ^ 16 ≤ hbmSize then (some pa, s2) else (s2.count MR.POOL_BAD).takePool k
        | none => (s2.count MR.POOL_BAD).takePool k

/-- A request of a unit joins the pending fault of its page or opens one; none where the table is full. A fault the MP does
not resolve with a pool page goes to the runtime (R293 to R295). -/
def State.openFault (s : State) (page : Nat) (k : FaultKind) (level entry at_ unit first : Nat) : Option State :=
  if s.md.faults.any (fun e => e.2.page = page) then some s
  else
    match (List.range 256).find? fun i => !s.md.faults.any fun e => e.1 = i with
    | none => none
    | some i =>
      let q := (Sparse.get 0 s.md.faultSeq i + 1) % 2 ^ 24
      let wants := decide (k = .notPresent) && decide (level = 4) && entry.testBit 4
      let r := if wants then s.takePool 0x10000 else (none, s)
      let s1 := r.2.updMd fun m => { m with
        faultSeq := Sparse.put m.faultSeq i q,
        faults := Sparse.put m.faults i
          { seq := q, page := page, kind := k, level := level, entry := entry, entryAt := at_, first := first, unit := unit,
            demand := r.1, poolEmpty := wants && r.1.isNone, posted := r.1.isNone },
        ringWait := if r.1.isNone then m.ringWait ++ [.fault i] else m.ringWait }
      some s1

/-- A far access, whose request is held at a fault or is no longer held: what it does to its thread (R77). -/
def State.farWaits (s : State) (q : MReq) (f : Thread → Thread) : State :=
  if q.unit = 0 ∧ q.gen = (s.core q.src).genNow then s.updCore q.src fun c => c.updThread q.thread f else s

/-- PAGE_WALK: the walk of the `i`-th request that waits on one at hub `h` ends: with an address, a refusal, or a fault that
holds the request; a request that finds the MP's table full goes on waiting (R289, R293). A request behind a held one of its
granule is held with it where it faults, and otherwise waits for it (R185). A refusal as NOT_HBM is recorded with the virtual address
(DESIGN CHOICE, log 78). -/
def execPageWalk (h i : Nat) (s : State) : Out :=
  let u := s.hub h
  .next <| match u.walks[i]? with
  | none => s
  | some w =>
    let q := w.req
    let behind := u.heldBefore q
    if (u.walks.take i).any fun x => x.req.sameGranule q then s
    else
      match s.walk h q.va q.write false with
      | (e, s1) =>
        let gone := s1.updHub h fun u => { u with walks := u.walks.eraseIdx i }
        let wait (t : State) : State := if behind then s else t
        match e.res with
        | .ok pa _ =>
          wait <| gone.updHub h fun u =>
            { (if w.old then u else u.fill q.va e) with ready := u.ready ++ [⟨q, pa, w.old⟩] }
        | .notHbm =>
          wait <| (gone.addrFault q.va (if q.unit = 3 then .hubAgent else .core) .notHbm (q.src % 65536)).answer h q .notHbm
        | .uncorrectable => wait (gone.answer h q .uncorrectable)
        | .unmapped => wait (gone.answer h q .unmapped)
        | .fault k level entry at_ =>
          if q.unit = 3 then wait <| (gone.addrFault q.va .hubAgent .unmapped (q.src % 65536)).answer h q .unmapped
          else
            match gone.openFault (q.va / 2 ^ 16) k level entry at_ q.unit q.src with
            | none => s1
            | some s2 =>
              ((((s2.updHub h fun u => { u with held := u.held ++ [.mreq (q.va / 2 ^ 16) q] }).countHeld h).farWaits q
                Thread.held).ringRun)

/-! ### The memory controllers (R283 to R285) -/

/-- The `i`-th translated request of hub `h`, if the controller may serve it: no earlier one to its block, and none of its source to its
granule, waits, and its channel is not in training (R185, R206, R285, R286). -/
def Hub.servable (u : Hub) (i : Nat) (write : Bool) : Option Ready :=
  match u.ready[i]? with
  | none => none
  | some r =>
    if r.req.write = write && !(u.ready.take i).any (fun x => decide (x.pa / 64 = r.pa / 64) || x.req.sameGranule r.req) &&
        decide (Sparse.get 0 u.training (stackOf r.pa) ≠ channelOf r.pa + 1) then some r
    else none

/-- HBM_READ: the controller serves the `i`-th request of hub `h`, a read (R283). -/
def execHbmRead (h i : Nat) (s : State) : Out :=
  .next <| match (s.hub h).servable i false with
  | none => s
  | some r =>
    let s1 := s.updHub h fun u => { u with ready := u.ready.eraseIdx i }
    match s1.hbmRead r.pa false with
    | (some row, s2) => s2.answer h r.req (.data row)
    | (none, s2) => s2.answer h r.req .uncorrectable

/-- HBM_WRITE: the controller serves the `i`-th request of hub `h`, a write (R284). -/
def execHbmWrite (h i : Nat) (s : State) : Out :=
  .next <| match (s.hub h).servable i true with
  | none => s
  | some r =>
    let s1 := s.updHub h fun u => { u with ready := u.ready.eraseIdx i }
    match s1.hbmWrite r.pa r.req.data r.req.mask with
    | (true, s2) => (s2.answer h r.req .ack).ringsLook
    | (false, s2) => s2.answer h r.req .uncorrectable

/-! ### Invalidation (R291) -/

/-- A hub's part of an invalidation: entries of the range leave its caches; the walks that began before it will fill none, and they and the
accesses translated before it are waited for (R291). -/
def Hub.invalidate (u : Hub) (inv : Nat × Nat) : Hub :=
  let touches (lo n : Nat) : Bool := decide (inv.2 = 0) || (decide (inv.1 < lo + n) && decide (lo < inv.1 + inv.2))
  { u with
    cache := u.cache.filter fun e => !touches (if e.big then e.vpage * 32 else e.vpage) (if e.big then 32 else 1),
    walkCache := u.walkCache.filter fun e => !touches (e.1 * 32) 32,
    walks := u.walks.map fun w => { w with old := true },
    ready := u.ready.map fun r => { r with old := true } }

/-- A command that its state ignores (R61). -/
def State.ignoreCmd (s : State) : State :=
  s.updMd fun m => { m with regs := m.regs.countSat MR.CMD_IGNORED MR.CMD_IGNORED_SAT 1 }

/-- INV_GO written 1. -/
def State.invalidate (s : State) : State :=
  if s.md.inv.isSome then s.ignoreCmd
  else
    let inv := ((s.rd MR.INV_VA_LO + 2 ^ 32 * s.rd MR.INV_VA_HI) / 2 ^ 16, s.rd MR.INV_PAGES)
    (List.range 4).foldl (fun s h => s.updHub h fun u => u.invalidate inv)
      ((s.updMd fun m => { m with inv := some inv }).wr MR.INV_BUSY 1)

/-- INVALIDATE: INV_GO is written, which starts an invalidation or, while one runs, is ignored (R291). -/
def execInvalidate (s : State) : Out := .next s.invalidate

/-- INVALIDATE_DONE: no walk or access of the time before the invalidation is left; INV_BUSY returns to 0. -/
def execInvalidateDone (s : State) : Out :=
  let left := (List.range 4).any fun h => (s.hub h).walks.any (·.old) || (s.hub h).ready.any (·.old)
  .next (if s.md.inv.isSome && !left then (s.updMd fun m => { m with inv := none }).wr MR.INV_BUSY 0 else s)

/-! ### Work beneath the foreground (R286, R287) -/

/-- Blocks of a stack. -/
def stackBlocks : Nat := 805306368

/-- The address of the `k`-th block of stack `i` of hub `h`, in ascending channel offset (R280, R286). -/
def scrubAddr (h i k : Nat) : Nat :=
  let c := k % 32
  let off := k / 32 * 64
  let hi := off / 256
  hi * 2 ^ 17 + (c ^^^ bits hi 6 2) * 2 ^ 12 + (i ^^^ bits hi 1 0) * 2 ^ 10 + h * 2 ^ 8 + off % 256

/-- PATROL_SCRUB: the scrub of stack `i` of hub `h` reads its next block: a corrected one is written back, an uncorrectable
one recorded and counted (R286). -/
def execPatrolScrub (h i : Nat) (s : State) : Out :=
  let u := s.hub h
  .next <|
    if u.regs.inForce (ctl i KR.SCRUB_EN) = 0 then s
    else
      let k := Sparse.get 0 u.scrub i
      let pa := scrubAddr h i k
      let bad := decide (s.readsFail (pa / 64) = 3)
      let s1 := if bad then (s.readBehind (pa / 64)).noteBlock pa true false else s.readBehind (pa / 64)
      let s2 := s1.updHub h fun u => { u with scrub := Sparse.set 0 u.scrub i ((k + 1) % stackBlocks) }
      if k + 1 = stackBlocks then s2.hubCount h (ctl i KR.SCRUB_PASSES) 1 else s2

/-- HBM_REFRESH: a refresh of stack `i` of hub `h` changes no value (R286). -/
def execHbmRefresh (_h _i : Nat) (s : State) : Out := .next s

/-- REFRESH_MANAGEMENT: a refresh-management command for a bank of stack `i` of hub `h` changes no value (R286). -/
def execRefreshManagement (_h _i _bank : Nat) (s : State) : Out := .next s

/-- RETRAIN_TIMER: channel `c` of stack `i` of hub `h` begins a training, if no other channel of the stack trains (R286). -/
def execRetrainTimer (h i c : Nat) (s : State) : Out :=
  .next (if Sparse.get 0 (s.hub h).training i ≠ 0 then s
    else (s.updHub h fun u => { u with training := Sparse.set 0 u.training i (c + 1) }).hubCount h (ctl i KR.RETRAIN_COUNT) 1)

/-- RETRAIN_DONE: the training of stack `i` of hub `h` ends; a failure marks the channel FAILED and aborts the tick with
FLT_MEM_CHANNEL (R287). -/
def execRetrainDone (h i : Nat) (ok : Bool) (s : State) : Out :=
  let c := Sparse.get 0 (s.hub h).training i
  .next <|
    if c = 0 then s
    else
      let s1 := s.updHub h fun u => { u with training := Sparse.set 0 u.training i 0 }
      if ok then s1
      else
        (s1.updHub h fun u => (u.wr (ctl i KR.CH_FAILED) (setBit (u.rd (ctl i KR.CH_FAILED)) (c - 1) true)).wr
          (ctl i KR.TRAINED) 0).sendAbort (.ofHub h logMemChannel)

/-! ### Replies to region controllers (R197) -/

/-- REGION_CONTROLLER_REPLY: region controller `r` receives the next reply to a write of its snapshot. When every row is
acknowledged it writes the header, whose acknowledgement completes the snapshot; a refused write leaves it incomplete. A reply of an older
generation is dropped (R393). -/
def execRegionControllerReply (r : Nat) (s : State) : Out :=
  let g := s.region r
  .next <| match g.replies with
  | [] => s
  | (q, a) :: l =>
    if q.gen ≠ g.genNow then s.updRegion r fun g => { g with replies := l } else
    let ok := decide (a = .ack)
    let s1 := s.updRegion r fun g => { g with replies := l, snapLeft := g.snapLeft - 1 }
    match g.snapHead with
    | some head =>
      let head := if ok then head else head &&& ~~~(0x100 : Row)
      if g.snapLeft = 1 then (s1.updRegion r fun g => { g with snapHead := none }).regionWrite r (s.snapBase r) head
      else s1.updRegion r fun g => { g with snapHead := some head }
    | none => if ok && q.data.getLsbD 8 then s1.updRegion r fun g => g.wr RR.NP_SNAP_DONE 1 else s1

end Sys2Proof.Machine
end

