-- ==== Sys2Proof/Machine/Fm.lean ====
section
/-!
DEFINITION. What the module sends to the fabric manager (14): FM messages, STATUS, RESET_REPORT and DEFECT.
-/
namespace Sys2Proof.Machine

/-- The unusable cores of the defect list (R25). -/
def Module.unusable (m : Module) : List Phys := m.defects.map (·.core)
/-- The pending remap (R25): the defect list. -/
def State.pendingRemap (s : State) : List Phys := s.md.unusable
/-- MOD_STATE is READY. -/
def State.isReady (s : State) : Bool := decide (s.rd MR.MOD_STATE = 1)
/-- The regions with a ROW_DEGRADED row in force, as a mask (R18). -/
def State.degraded (s : State) : Nat :=
  (List.range 56).foldl (fun a r => if regionDegraded s.md.remap r then a + 2 ^ r else a) 0

/-- The header of an FM message from this module and its fields (R404). -/
def State.fmBody (s : State) (typ : Nat) (fields : List Byte) : List Byte :=
  leBytes 1 typ ++ List.replicate 3 0 ++ leBytes 4 (s.rd MR.NODE_ID) ++ leBytes 4 (s.rd MR.SERIAL_LO) ++
    leBytes 4 (s.rd MR.SERIAL_HI) ++ fields

/-- An FM message to the fabric manager: posted to FM_RING at the bridge, sent on flow 0 by a member (R319, R405). -/
def State.fmSend (s : State) (body : List Byte) : State :=
  let typ := leNat (body.take 1)
  if s.rd MR.FM_NODE = s.rd MR.NODE_ID then
    if s.rd MR.BRIDGE_EN = 1 then
      (s.updMd fun m => { m with ringWait := m.ringWait ++ [.msg (m.regs.rd MR.FM_RING) typ body] }).ringRun
    else s
  else s.send 0 (s.rd MR.FM_NODE) 0 ⟨7, 0, 0, body, none⟩

/-- FM_NOTICE in ALERT_CAUSE (R439). -/
def State.fmNotice (s : State) : State := s.wr MR.FM_NOTICE 1

/-- STATUS made, kept, and sent once READY (R378, R405, R406). -/
def State.sendStatus (s : State) : State :=
  let body := s.fmBody 3 (leBytes 1 (s.rd MR.MOD_STATE) ++ leBytes 1 (s.rd MR.STAGE) ++ leBytes 1 (s.rd MR.STAGE_RESULT) ++
    leBytes 1 0 ++ leBytes 4 s.md.unusable.length ++ leBytes 8 s.degraded ++ leBytes 4 (s.rd MR.BOOT_COUNT) ++ leBytes 4 0)
  let s1 := (s.updMd fun m => { m with fmStatus := body }).fmNotice
  if s.isReady then s1.fmSend body else s1

/-- RESET_REPORT made, kept, and sent once READY (R405, R406). -/
def State.sendResetReport (s : State) (domain cause gen index : Nat) : State :=
  let body := s.fmBody 4 (leBytes 1 domain ++ leBytes 1 cause ++ leBytes 1 gen ++ leBytes 1 0 ++ leBytes 4 index ++
    leBytes 8 s.tickNum)
  let s1 := (s.updMd fun m => { m with fmReset := body }).fmNotice
  if s.isReady then s1.fmSend body else s1

/-- A core retired, once: the pending view changes at once (R25). `saved`: the flash takes the entry, with its hash, its DEFECT record and
its DEFECT message; else the retirement holds in memory until power-off (R377, R384, R385, R406). -/
def State.appendDefect (s : State) (p : Phys) (cause : Nat) (saved : Bool) : State :=
  if s.md.unusable.contains p then s
  else
    let d : Defect := ⟨p, cause, s.rd MR.BOOT_COUNT % 2 ^ 16⟩
    let s1 := s.updMd fun m => { m with defects := m.defects ++ [d] }
    if saved then
      let at_ := defectAddr (defectEntries s.md.sec.flash).length
      let s2 := ((s1.flashPut at_ d.bytes).hashDefects).logRec 3 cause 0 1 p.region (leNat d.bytes)
      s2.fmSend (s2.fmBody 5 d.bytes)
    else s1

end Sys2Proof.Machine
end

