-- ==== Sys2Proof/Machine/Compressor.lean ====
section
/-!
DEFINITION. The output compressor (06): areas and staged rows, objects in the 2:4, transposable and bitmap forms, the
histogram, flush and configuration. Each operation answers the core after it and the fault it ends in, if one.
-/
namespace Sys2Proof.Machine

/-- A core's unit at work: the core, and the fault that ended the work. -/
abbrev Work := Core × Option FaultInfo

/-- Work goes on unless a fault ended it. -/
def Work.andThen (w : Work) (f : Core → Work) : Work := match w with | (c, none) => f c | (c, some i) => (c, some i)

/-- The four areas (R160). -/
inductive AreaSel where
  | val | info | l1 | row
  deriving DecidableEq, Repr

/-- An area of the compressor. -/
def Comp.area (z : Comp) : AreaSel → Area
  | .val => z.val | .info => z.info | .l1 => z.l1 | .row => z.row

/-- An area replaced. -/
def Comp.setArea (z : Comp) (k : AreaSel) (a : Area) : Comp :=
  match k with
  | .val => { z with val := a } | .info => { z with info := a } | .l1 => { z with l1 := a } | .row => { z with row := a }

/-- The compressor's part of a core changed. -/
def Core.updComp (c : Core) (f : Comp → Comp) : Core := { c with comp := f c.comp }

/-- An area is empty when BASE = LIMIT (R160). -/
def Area.isEmpty (a : Area) : Bool := decide (a.base = a.limit)

/-- Bytes sent to an area: they are staged, and each full row is written at the pointer; a row that would end beyond LIMIT
raises FLT_CZ_OVERFLOW before it is written (R162). -/
def Core.czPush (c : Core) (k : AreaSel) : List Byte → Work
  | [] => (c, none)
  | b :: bs =>
    let ar := c.comp.area k
    let st := ar.staged ++ [b]
    if st.length < 64 then (c.updComp fun z => z.setArea k { ar with staged := st }).czPush k bs
    else if ar.limit < ar.ptr + 64 then (c, some (.ofUnit 2 fltCzOverflow ar.ptr))
    else
      let c1 := (c.writeSpad ar.ptr st).2.progress
      (c1.updComp fun z => z.setArea k { ar with staged := [], ptr := ar.ptr + 64 }).czPush k bs

/-- The staged partial row of an area written with a mask of its valid bytes; the pointer goes to the next row (R162). -/
def Core.czFlushArea (c : Core) (k : AreaSel) : Work :=
  let ar := c.comp.area k
  if ar.staged = [] then (c, none)
  else if ar.limit < ar.ptr + 64 then (c, some (.ofUnit 2 fltCzOverflow ar.ptr))
  else
    match c.writeRow ar.ptr (Row.ofBytes ar.staged) (lowMask ar.staged.length) with
    | (some w, c1) => (c1, some (.ofUnit 2 fltSpadUncorrectable (w * 8)))
    | (none, c1) => (c1.progress.updComp fun z => z.setArea k { ar with staged := [], ptr := ar.ptr + 64 }, none)

/-- A 64-bit word as bytes. -/
def wordBytes (v : Nat) : List Byte := leBytes 8 v

/-- The 64-bit word of up to 64 bits, bit 0 first. -/
def packBits (l : List Bool) : Nat := l.foldr (fun b a => b2n b + 2 * a) 0

/-- The groups of 64 of a list, `k` of them, short ones filled with zeros by `packBits`. -/
def groupsOf (l : List Bool) : Nat → List Nat
  | 0 => []
  | k + 1 => packBits (l.take 64) :: groupsOf (l.drop 64) k

/-- A histogram bin incremented; it saturates and sets its flag (R166, R14). -/
def Core.czBin (c : Core) (z : Nat) : Core :=
  let m := min (z / 256) 15
  let v := satAdd 32 (Sparse.get 0 c.comp.hist m) 1
  let c1 := c.updComp fun y => { y with hist := Sparse.set 0 y.hist m v }
  if v = 2 ^ 32 - 1 then c1.wr CR.HIST_SAT (setBit (c1.rd CR.HIST_SAT) m true) else c1

/-- `k` elements with `nz` non-zeros added to the current 4,096-element stretch (R166). -/
def Core.czStretch (c : Core) (k nz : Nat) : Core :=
  let e := c.comp.stretchElems + k
  let z := c.comp.stretchNz + nz
  if e < 4096 then c.updComp fun y => { y with stretchElems := e, stretchNz := z }
  else (c.czBin z).updComp fun y => { y with stretchElems := 0, stretchNz := 0 }

/-- One record of a block row sent to ROW, if that area is not empty (R154, R161). -/
def Core.czRecord (c : Core) (cont : Bool) (count : Nat) : Work :=
  if c.comp.row.isEmpty then (c, none)
  else c.czPush .row (wordBytes (count + b2n cont * 2 ^ 16 + c.comp.rowNum * 2 ^ 32))

/-- One non-zero counted in the block row, with its continuation record at 65,535 (R154). -/
def Core.czCountNz (c : Core) : Work :=
  let k := c.comp.rowCount + 1
  if k = 65535 then (c.czRecord true 65535).andThen fun c1 => (c1.updComp fun y => { y with rowCount := 0 }, none)
  else (c.updComp fun y => { y with rowCount := k }, none)

/-- The end record of the block row; the next block row follows (R154). -/
def Core.czEndRow (c : Core) : Work :=
  (c.czRecord false c.comp.rowCount).andThen fun c1 =>
    (c1.updComp fun y => { y with rowCount := 0, rowBlk := 0, rowNum := y.rowNum + 1 }, none)

/-- The L1 bit of a block; eight make a byte (R153). -/
def Core.czL1 (c : Core) (b : Bool) : Work :=
  if c.comp.l1.isEmpty then (c, none)
  else
    let l := c.comp.l1Bits ++ [b]
    if l.length < 8 then (c.updComp fun y => { y with l1Bits := l }, none)
    else (c.updComp fun y => { y with l1Bits := [] }).czPush .l1 [BitVec.ofNat 8 (packBits l)]

/-- A block closes: its META words, its L1 bit, and its block row if it was the row's last (R153, R154, R164). -/
def Core.czCloseBlock (c : Core) : Work :=
  let gs := groupsOf c.comp.blockBits 64
  let l2 := packBits (gs.map fun g => decide (g ≠ 0))
  let words := (if l2 ≠ 0 || c.comp.metaFull then [l2] else []) ++ gs.filter fun g => g ≠ 0
  ((c.czPush .info (words.flatMap wordBytes)).andThen fun c1 => c1.czL1 (decide (l2 ≠ 0))).andThen fun c2 =>
    let c3 := c2.updComp fun y => { y with blockBits := [], rowBlk := y.rowBlk + 1 }
    if c3.comp.rowBlk = (if c3.comp.rowBlocks = 0 then 4096 else c3.comp.rowBlocks) then c3.czEndRow else (c3, none)

/-- One element in BITMAP mode, of `w` bytes (R164). -/
def Core.czElem (c : Core) (w code : Nat) (nz : Bool) : Work :=
  ((if nz then (c.czPush .val (leBytes w code)).andThen Core.czCountNz else (c, none)).andThen fun c1 =>
    let c2 := (c1.czStretch 1 (b2n nz)).updComp fun y =>
      { y with blockBits := y.blockBits ++ [nz], elems := satAdd 32 y.elems 1 }
    if c2.comp.blockBits.length = 4096 then c2.czCloseBlock else (c2, none))

/-- The elements of a readout in BITMAP mode. Answers also the expanded elements of those that were taken before a fault (R165). -/
def Core.czElems (c : Core) (w : Nat) : List (Nat × Bool) → Work × List Nat
  | [] => ((c, none), [])
  | (v, nz) :: l =>
    match c.czElem w v nz with
    | (c1, some i) => ((c1, some i), [])
    | (c1, none) => let r := c1.czElems w l; (r.1, (if nz then v else 0) :: r.2)

/-! ### The 2:4 forms (R163) -/

/-- An element of a readout: its bits, whether it is non-zero, its magnitude for ranking. -/
structure OutElem where
  code : Nat
  nz : Bool
  mag : Nat
  deriving DecidableEq, Repr

/-- A zero element. -/
def OutElem.zero : OutElem := ⟨0, false, 0⟩

/-- Inserts index `i` by magnitude descending, then index ascending. -/
def rankInsert (m : Nat → Nat) (i : Nat) : List Nat → List Nat
  | [] => [i]
  | j :: l => if m j < m i then i :: j :: l else j :: rankInsert m i l

/-- Indices ranked by magnitude descending, then index ascending. -/
def ranked (m : Nat → Nat) (l : List Nat) : List Nat := l.foldl (fun a i => rankInsert m i a) []

/-- The rows that S24 keeps in one column of a quad: the two non-zeros of largest magnitude. -/
def keepS24 (e : Nat → OutElem) : List Nat := (ranked (fun i => (e i).mag) ((List.range 4).filter fun i => (e i).nz)).take 2

/-- The procedure tp24 of R163 on one 4 × 4 block: the kept indices 4 × row + column. -/
def tp24 (order : List Nat) : List Nat :=
  (order.foldl (fun (st : List Nat × (Nat → Nat) × (Nat → Nat)) i =>
    let r := i / 4
    let k := i % 4
    if st.2.1 r < 2 ∧ st.2.2 k < 2 then
      (st.1 ++ [i], (fun x => if x = r then st.2.1 r + 1 else st.2.1 x), fun x => if x = k then st.2.2 k + 1 else st.2.2 x)
    else st) ([], (fun _ => 0), fun _ => 0)).1

/-- The rows that TP24 keeps in column `p` of a quad. -/
def keepTp24 (e : Nat → Nat → OutElem) (p : Nat) : List Nat :=
  let m := p / 4 * 4
  let v (i : Nat) : OutElem := e (i / 4) (m + i % 4)
  let kept := tp24 (ranked (fun i => (v i).mag) ((List.range 16).filter fun i => (v i).nz))
  (List.range 4).filter fun r => kept.contains (4 * r + (p - m))

/-- The two slot indices of a column: its kept rows completed by the lowest unused rows, ascending. -/
def slotRows (kept : List Nat) : List Nat :=
  let fill := ((List.range 4).filter fun i => !kept.contains i).take (2 - kept.length)
  (List.range 4).filter fun i => kept.contains i || fill.contains i

/-- One quad written: slot vectors 0 and 1 to VAL, the metadata word to META; the prunes are counted. Answers also the
expanded elements of its four rows. -/
def Core.czQuad (c : Core) (w : Nat) (tp : Bool) (e : Nat → Nat → OutElem) : Work × List Nat :=
  let kept (p : Nat) : List Nat := if tp then keepTp24 e p else keepS24 fun i => e i p
  let cols := (List.range 16).map kept
  let nzAll := (List.range 16).foldl (fun a p => a + ((List.range 4).filter fun i => (e i p).nz).length) 0
  let nzKept := cols.foldl (fun a k => a + k.length) 0
  let slot (j p : Nat) : Nat :=
    let i := nth 0 (slotRows (nth [] cols p)) j
    if (nth [] cols p).contains i then (e i p).code else 0
  let vec (j : Nat) : List Byte := (List.range 16).flatMap fun p => leBytes w (slot j p)
  let info := (List.range 16).foldl (fun a p =>
    let r := slotRows (nth [] cols p)
    a + (nth 0 r 0 + 4 * nth 0 r 1) * 16 ^ p) 0
  let c1 := (c.countSat CR.PRUNE_COUNT CR.PRUNE_SAT (nzAll - nzKept)).czStretch 64 nzKept
  let c2 := c1.updComp fun y => { y with elems := satAdd 32 y.elems 64 }
  (((c2.czPush .val (vec 0 ++ vec 1)).andThen fun c3 => c3.czPush .info (wordBytes info)),
    (List.range 4).flatMap fun i => (List.range 16).map fun p => if (nth [] cols p).contains i then (e i p).code else 0)

/-- The quads of a readout in turn. A quad that a fault ends is not written. -/
def Core.czQuads (c : Core) (w : Nat) (tp : Bool) (e : Nat → Nat → OutElem) : List Nat → Work × List Nat
  | [] => ((c, none), [])
  | q :: qs =>
    match c.czQuad w tp fun i p => e (4 * q + i) p with
    | ((c1, some i), _) => ((c1, some i), [])
    | ((c1, none), l) => let r := c1.czQuads w tp e qs; (r.1, l ++ r.2)

/-- R161: the areas that a mode needs are not empty. -/
def Comp.areasOk (z : Comp) : Bool :=
  match z.mode with
  | 0 => false
  | 3 => !z.val.isEmpty && !z.info.isEmpty && (z.metaFull || !z.l1.isEmpty)
  | _ => !z.val.isEmpty && !z.info.isEmpty

/-- The BASE of the area for which `Comp.areasOk` fails (R171): the first empty area that the mode needs, in the order VAL, META,
L1, and VAL where MODE is OFF. -/
def Comp.emptyArea (z : Comp) : Nat :=
  if z.mode = 0 ∨ z.val.isEmpty then z.val.base
  else if z.info.isEmpty then z.info.base
  else z.l1.base

/-- A readout passed to the compressor: 16 rows of 16 elements of `w` bytes (R161 to R164). Answers also the expanded
elements of what was written, in output-row order (R165, R263). -/
def Core.czReadout (c : Core) (w : Nat) (e : Nat → Nat → OutElem) : Work × List Nat :=
  if !c.comp.areasOk then ((c, some (.ofUnit 2 fltCzConfig c.comp.emptyArea)), [])
  else if c.comp.mode = 3 then
    let l := (List.range 16).flatMap fun i => (List.range 16).map fun j => e i j
    c.czElems w (l.map fun x => (x.code, x.nz))
  else c.czQuads w (decide (c.comp.mode = 2)) e [0, 1, 2, 3]

/-! ### Flush, histogram and configuration -/

/-- A flush (R162): the open block and block row close, the staged rows are written, the numbering restarts. DESIGN CHOICE (log 84): with
nothing staged and no open block, an open block row still writes its end record. -/
def Core.czFlush (c : Core) : Work :=
  let close : Work := if c.comp.mode = 3 ∧ c.comp.blockBits ≠ [] then c.czCloseBlock else (c, none)
  ((((((close.andThen fun c1 => if c1.comp.rowBlk ≠ 0 then c1.czEndRow else (c1, none)).andThen fun c2 =>
    if c2.comp.l1Bits = [] then (c2, none)
    else (c2.updComp fun y => { y with l1Bits := [] }).czPush .l1 [BitVec.ofNat 8 (packBits c2.comp.l1Bits)]).andThen
    fun c3 => c3.czFlushArea .val).andThen fun c4 => c4.czFlushArea .info).andThen fun c5 => c5.czFlushArea .l1).andThen
    fun c6 => c6.czFlushArea .row).andThen fun c7 =>
      let c8 := if c7.comp.stretchElems = 0 then c7 else c7.czBin c7.comp.stretchNz
      (c8.updComp fun y => { y with elems := 0, rowNum := 0, rowBlk := 0, rowCount := 0, stretchElems := 0, stretchNz := 0 },
        none)

/-- An area entry: BASE and LIMIT as read (R160). -/
def entryOk (base limit : Nat) : Bool :=
  decide (base % 64 = 0) && decide (limit % 64 = 0) && decide (base ≤ limit) && decide (limit ≤ spadSize)

/-- The area of an entry, its pointer at BASE. -/
def Area.ofEntry (base limit : Nat) : Area := ⟨base, limit, base, []⟩

/-- The four entries loaded from the 64 bytes of a descriptor or of the context (R160). `none` where one fails. -/
def Comp.loadAreas (z : Comp) (d : List Byte) : Option Comp :=
  let w (i : Nat) : Nat := leNat ((d.drop (4 * i)).take 4)
  if entryOk (w 0) (w 1) && entryOk (w 2) (w 3) && entryOk (w 4) (w 5) && entryOk (w 6) (w 7) then
    some { z with val := .ofEntry (w 0) (w 1), info := .ofEntry (w 2) (w 3), l1 := .ofEntry (w 4) (w 5),
                  row := .ofEntry (w 6) (w 7) }
  else none

/-- The BASE of the first entry of a descriptor that fails R160, which is what R171 records. -/
def badEntryBase (d : List Byte) : Nat :=
  let w (i : Nat) : Nat := leNat ((d.drop (4 * i)).take 4)
  match [0, 2, 4, 6].find? fun i => !entryOk (w i) (w (i + 1)) with
  | some i => w i
  | none => 0

/-- cz.cfg starts: a flush if it changes the form or loads areas, then the new configuration (R159, R160, R162). DESIGN CHOICE (log 84):
the flush comes before the area descriptor is read, and stands if that fails; a non-zero reserved byte of the descriptor is
FLT_CZ_CONFIG, while the reserved words of a context are not looked at. -/
def Core.czConfigure (c : Core) (word : Word) : Work :=
  let v := word.toNat
  let mode := bits v 1 0
  let full := bitOf v 2
  let rows := bits v 29 18
  let apply (c1 : Core) : Core := c1.updComp fun y => { y with mode := mode, metaFull := full, rowBlocks := rows }
  if bitOf v 3 then
    (c.czFlush).andThen fun c1 =>
      let a := bits v 17 6 * 64
      if spadSize ≤ a then (c1, some (.ofUnit 2 fltLocalAddr a))
      else
        match c1.readSpad a 64 with
        | (.error u, c2) => (c2, some (.ofUnit 2 fltSpadUncorrectable (u * 8)))
        | (.ok d, c2) =>
          if (d.drop 32).any (· != 0) then (c2, some (.ofUnit 2 fltCzConfig a))
          else
            match c2.comp.loadAreas d with
            | none => (c2, some (.ofUnit 2 fltCzConfig (badEntryBase d)))
            | some z => (apply { c2 with comp := z }, none)
  else if mode = c.comp.mode ∧ full = c.comp.metaFull ∧ rows = c.comp.rowBlocks then (c, none)
  else c.czFlush.andThen fun c1 => (apply c1, none)

/-- cz.hist starts: the bins as one row at the address, then cleared (R166). -/
def Core.czHistogram (c : Core) (a : Nat) : Work :=
  if a % 64 ≠ 0 then (c, some (.ofUnit 2 fltMisaligned a))
  else if spadSize ≤ a then (c, some (.ofUnit 2 fltLocalAddr a))
  else
    let row := (List.range 16).flatMap fun m => leBytes 4 (Sparse.get 0 c.comp.hist m)
    (((c.writeSpad a row).2.progress).updComp fun y => { y with hist := [] }, none)

/-- The word of cz.stat and of the register at 0x0404 (log 10). -/
def Core.czStatus (c : Core) : Nat :=
  let z := c.comp
  b2n z.areasOk + 2 * b2n (decide (z.val.staged ≠ [] ∨ z.info.staged ≠ [] ∨ z.l1.staged ≠ [] ∨ z.l1Bits ≠ [] ∨ z.row.staged ≠ [])) +
    4 * b2n (decide (z.blockBits ≠ [])) + 8 * c.rd CR.CZ_STAGED_LOST

end Sys2Proof.Machine
end

