-- ==== Sys2Proof/Machine/Flags.lean ====
section
/-!
DEFINITION. The results that are flags, and the bit counts and double-width products of the integer instructions (R69).
The core has no flag register: a compare writes 1 or 0 to a g register, or 0xFFFF or 0 to a predicate.
-/
namespace Sys2Proof.Machine

/-- 1 or 0 in a g register. -/
def flagWord (b : Bool) : Word := if b then 1 else 0
/-- 0xFFFF or 0x0000 in a predicate. -/
def flagPred (b : Bool) : BitVec 16 := if b then 0xFFFF else 0

/-- High 32 bits of the signed 64-bit product. -/
def mulHigh (x y : Word) : Word := ((x.signExtend 64) * (y.signExtend 64)).extractLsb' 32 32
/-- High 32 bits of the unsigned 64-bit product. -/
def mulHighU (x y : Word) : Word := ((x.zeroExtend 64) * (y.zeroExtend 64)).extractLsb' 32 32

/-- Leading zeros, 32 for zero. -/
def countLeadingZeros (x : Word) : Word :=
  BitVec.ofNat 32 (if x = 0 then 32 else 31 - Nat.log2 x.toNat)

/-- Set bits. -/
def countOnes (x : Word) : Word :=
  BitVec.ofNat 32 ((List.range 32).foldl (fun k i => k + b2n (x.getLsbD i)) 0)

end Sys2Proof.Machine
end

