-- ==== Sys2Proof/Machine/Dma.lean ====
section
/-!
DEFINITION. The DMA engine of a core (11): descriptors, their rows and completion, the fill and copy unit (04), and the
replies of context loads (02).
-/
namespace Sys2Proof.Machine

/-! ### Descriptors (R299, R300) -/

/-- The checks of a descriptor when it starts, in their order: the fault code, the address it is recorded with, and whether
that is a device address (R300, R96). -/
def DmaDesc.check (d : DmaDesc) : Option (Nat × Nat × Bool) :=
  let o := d.oa
  let copy := decide (d.typ = 4)
  if d.typ = 0 ∨ 5 ≤ d.typ ∨ bits d.w0 31 8 ≠ 0 ∨ d.w3 ≠ 0 ∨ (!d.far ∧ d.hstride ≠ 0) ∨ (copy ∧ bits d.w2 63 18 ≠ 0) ∨
      o.mode ≠ 0 ∨ (!d.far ∧ o.stride ≠ 1) then some (fltDmaDesc, 0, false)
  else
    match o.check with
    | some e => some (e, o.base, false)
    | none =>
      if d.far ∧ (d.w2 % 64 ≠ 0 ∨ d.hstride % 64 ≠ 0) then some (fltMisaligned, d.w2 % 2 ^ 48, true)
      else if copy ∧ d.w2 % 64 ≠ 0 then some (fltMisaligned, d.w2, false)
      else if d.far ∧ 2 ^ 48 ≤ d.w2 then some (fltAddrUnmapped, d.w2 % 2 ^ 48, true)
      else if copy ∧ 2560 < d.w2 / 64 + o.count then some (fltLocalAddr, d.w2, false)
      else none

/-- The DMA engine changed. -/
def Core.updDma (c : Core) (f : Dma → Dma) : Core := { c with dma := f c.dma }
/-- Descriptor `i` of the queue changed. -/
def Core.updDesc (c : Core) (i : Nat) (f : DmaDesc → DmaDesc) : Core :=
  c.updDma fun d => { d with queue := d.queue.mapIdx fun j x => if j = i then f x else x }

/-- A fault of the DMA engine: the engine stops, and the fault is recorded with FAULT_UNIT 3 (R300). -/
def State.dmaFault (s : State) (n code addr : Nat) (dev : Bool) : State :=
  (s.updCore n fun c => c.updDma fun d => { d with stopped := true }).unitFault n ⟨3, 0, code, 0, addr, dev, 0⟩

/-- Descriptors complete in posting order; each may signal a thread (R303). `k` bounds their number. -/
def Core.dmaComplete (c : Core) : Nat → Core
  | 0 => c
  | k + 1 =>
    match c.dma.queue with
    | [] => c
    | d :: l =>
      if d.started && decide (d.done = d.count) then
        let c1 := c.updDma fun x => { x with queue := l, doneTag := (x.doneTag + 1) % 2 ^ 16 }
        (if d.w0.testBit 4 then c1.signal (bits d.w0 7 5) else c1).dmaComplete k
      else c

/-! ### dma.post, dma.wait, dma.test (R299, R303) -/

/-- dma.post: the descriptor at scratchpad address g[a] is queued and g[d] takes its tag; spins while 16 are uncompleted. -/
def execDmaPost (n : Nat) (t : BitVec 3) (d a : BitVec 5) (pg : BitVec 3) (s : State) : Out :=
  let w := wordG 0x2E d.toNat a.toNat 0 pg.toNat 0x01
  .next (issueG n t pg w (fun s1 =>
    let c := s1.core n
    let addr := (s1.gOf n t a).toNat
    if addr % 32 ≠ 0 then s1.threadFault n t.toNat fltMisaligned addr false w
    else if spadSize ≤ addr then s1.threadFault n t.toNat fltLocalAddr addr false w
    else if 16 ≤ c.dma.queue.length then s1.spin n t.toNat .spin
    else
      match c.readSpad addr 32 with
      | (.error e, c1) => (s1.setCore n c1).threadFault n t.toNat fltSpadUncorrectable (e * 8) false w
      | (.ok bs, c1) =>
        let q (k : Nat) : Nat := leNat ((bs.drop (8 * k)).take 8)
        let tag := c.dma.nextTag
        (s1.setCore n (c1.updDma fun x => { x with
          nextTag := (tag + 1) % 2 ^ 16,
          queue := x.queue ++ [{ w0 := q 0, oaw := q 1, w2 := q 2, w3 := q 3, poster := t.toNat, started := false, issued := 0,
                                 outstanding := [], done := 0, pageRow := 0 }] })).retire n t.toNat
          fun th => th.wg d (BitVec.ofNat 32 tag)) s)

/-- A tag has been posted. -/
def Dma.posted (d : Dma) (tag : Nat) : Bool := decide ((d.nextTag + 2 ^ 16 - 1 + 2 ^ 16 - tag % 2 ^ 16) % 2 ^ 16 < 2 ^ 15)
/-- A posted tag has completed. -/
def Dma.passed (d : Dma) (tag : Nat) : Bool := decide ((d.doneTag + 2 ^ 16 - 1 + 2 ^ 16 - tag % 2 ^ 16) % 2 ^ 16 < 2 ^ 15)

/-- dma.wait: waits until the descriptor with tag g[a] has completed. -/
def execDmaWait (n : Nat) (t : BitVec 3) (a : BitVec 5) (pg : BitVec 3) (s : State) : Out :=
  let w := wordG 0x2E 0 a.toNat 0 pg.toNat 0x02
  .next (issueG n t pg w (fun s1 =>
    let d := (s1.core n).dma
    let tag := (s1.gOf n t a).toNat
    if !d.posted tag then s1.threadFault n t.toNat fltDmaTag 0 false w
    else if d.passed tag then s1.retire n t.toNat id
    else s1.spin n t.toNat (.dma (tag % 2 ^ 16))) s)

/-- dma.test: g[d] ← 1 if tag g[a] has completed, else 0. -/
def execDmaTest (n : Nat) (t : BitVec 3) (d a : BitVec 5) (pg : BitVec 3) (s : State) : Out :=
  let w := wordG 0x2E d.toNat a.toNat 0 pg.toNat 0x03
  .next (issueG n t pg w (fun s1 =>
    let e := (s1.core n).dma
    let tag := (s1.gOf n t a).toNat
    if !e.posted tag then s1.threadFault n t.toNat fltDmaTag 0 false w
    else s1.retire n t.toNat fun th => th.wg d (flagWord (e.passed tag))) s)

/-! ### Rows (R301, R302) -/

/-- DMA_DESCRIPTOR_START: the next queued descriptor starts once the one before it has issued its last row, and is
checked (R300, R301). -/
def execDmaDescriptorStart (n : Nat) (s : State) : Out :=
  let q := (s.core n).dma.queue
  .next <| match q.findIdx? fun d => !d.started with
  | none => s
  | some i =>
    match q[i]? with
    | none => s
    | some d =>
      if (s.core n).dma.stopped || !(q.take i).all DmaDesc.allIssued then s
      else
        match d.check with
        | some (code, addr, dev) => s.dmaFault n code addr dev
        | none => s.updCore n fun c => c.updDesc i fun d => { d with started := true }

/-- The tag of row `k` of the descriptor at place `i`: its posting order modulo 16, and the row. -/
def Core.rowTag (c : Core) (i k : Nat) : Nat := (c.dma.doneTag + i) % 16 * 4096 + k

/-- The next row of the running descriptor is issued, where it is the turn of descriptor rows (R301). -/
def State.rowIssue (s : State) (n : Nat) : State :=
  let c := s.core n
  match c.dma.current with
  | none => s
  | some (i, d) =>
    if !c.canRequest || decide (c.turnNow n (decide (c.memWait ≠ [])) ≠ some 2) then s
    else
      let k := d.issued
      let fresh := decide (k = 0) || decide (d.rowVa k / 2 ^ 16 ≠ d.rowVa (k - 1) / 2 ^ 16)
      let sent (c : Core) : Core := (c.updDesc i fun d =>
        { d with issued := k + 1, outstanding := d.outstanding ++ [k], pageRow := if fresh then k else d.pageRow }).updDma
        fun x => { x with turn := 2 }
      let req (write : Bool) (row : Row) : MReq :=
        ⟨write, d.rowVa k, n, 0, 1, c.rowTag i k, c.genNow, row, if write then fullMask else 0, 0, 0⟩
      if d.typ = 1 then (s.updCore n sent).request n (req false 0)
      else
        match c.readSpad (d.rowAddr k) 64 with
        | (.error e, c1) => (s.setCore n c1).dmaFault n fltSpadUncorrectable (e * 8) false
        | (.ok bs, c1) => (s.setCore n (sent c1)).request n (req true (Row.ofBytes bs))

/-- DMA_ROW_ISSUE: the next row of the running descriptor is issued, past any page fence, when the share allows and it is
its turn; what waited for its own turn follows (R204, R301, R302). -/
def execDmaRowIssue (n : Nat) (s : State) : Out := .next (((s.shareRun n 32).rowIssue n).shareRun n 32)

/-- The descriptor and row that a reply's tag names, if that row is outstanding. -/
def Core.rowOf (c : Core) (tag : Nat) : Option (Nat × DmaDesc) :=
  match (List.range c.dma.queue.length).find? fun i => (c.dma.doneTag + i) % 16 = tag / 4096 with
  | none => none
  | some i =>
    match c.dma.queue[i]? with
    | some d => if d.outstanding.contains (tag % 4096) then some (i, d) else none
    | none => none

/-- A reply for no outstanding row is dropped and counted (R305). -/
def Core.stale (c : Core) : Core := c.countSat CR.DMA_STALE CR.STALE_SAT 1

/-- Row `k` of descriptor `i` has completed (R302, R303). -/
def Core.rowDone (c : Core) (i k : Nat) : Core :=
  (((c.updDesc i fun d => { d with outstanding := d.outstanding.filter (· ≠ k), done := d.done + 1 }).count CR.DMA_ROWS
    1).progress).dmaComplete 16

/-- DMA_LOAD_REPLY: a LOAD row's data lands in the scratchpad with a full mask, or its refusal stops the engine (R301,
R283); a reply for no outstanding row is dropped. -/
def execDmaLoadReply (n port : Nat) (s : State) : Out :=
  let c := s.core n
  .next <| match c.replyAt port fun q => decide (q.unit = 1) && !q.write with
  | none => s
  | some (q, r) =>
    let c1 := c.tookHead s.now port 2
    match (if q.gen = c.genNow then c.rowOf q.tag else none) with
    | none => s.setCore n c1.stale
    | some (i, d) =>
      let k := q.tag % 4096
      match r with
      | .data row => s.setCore n ((c1.writeRow (d.rowAddr k) row fullMask).2.rowDone i k)
      | r => (s.setCore n (c1.updDesc i fun d => { d with outstanding := d.outstanding.filter (· ≠ k) })).dmaFault n r.fault
          q.va true

/-- DMA_STORE_ACK: a STORE row's acknowledgement completes it, or its refusal stops the engine (R301, R284). -/
def execDmaStoreAck (n port : Nat) (s : State) : Out :=
  let c := s.core n
  .next <| match c.replyAt port fun q => decide (q.unit = 1) && q.write with
  | none => s
  | some (q, r) =>
    let c1 := c.tookHead s.now port 2
    match (if q.gen = c.genNow then c.rowOf q.tag else none) with
    | none => s.setCore n c1.stale
    | some (i, _) =>
      let k := q.tag % 4096
      match r with
      | .ack => s.setCore n (c1.rowDone i k)
      | r => (s.setCore n (c1.updDesc i fun d => { d with outstanding := d.outstanding.filter (· ≠ k) })).dmaFault n r.fault
          q.va true

/-! ### The fill and copy unit (R96) -/

/-- The rows of a FILL or COPY written one after another, up to the word at which a read failed, if one does. -/
def Core.fillCopy (c : Core) (d : DmaDesc) : List Nat → Option Nat × Core
  | [] => (none, c)
  | k :: ks =>
    let dst := (d.oa.base / 64 + k) * 64
    let put (c : Core) (row : Row) : Core := ((c.writeRow dst row fullMask).2.count CR.DMA_ROWS 1).progress
    if d.typ = 3 then
      let p := BitVec.ofNat 64 d.w2
      (put c (p ++ p ++ p ++ p ++ p ++ p ++ p ++ p)).fillCopy d ks
    else
      match c.readSpad (d.w2 + 64 * k) 64 with
      | (.error e, c1) => (some e, c1)
      | (.ok bs, c1) => (put c1 (Row.ofBytes bs)).fillCopy d ks

/-- FILL_COPY_DONE: the fill and copy unit finishes the rows of its descriptor, or stops at a row that it cannot read, with the rows before
it written (R96, R100, R303). -/
def execFillCopyDone (n : Nat) (s : State) : Out :=
  let c := s.core n
  .next <| match c.dma.queue.findIdx? fun d => d.started && !d.far && !d.allIssued with
  | none => s
  | some i =>
    match c.dma.queue[i]? with
    | none => s
    | some d =>
      if c.dma.stopped then s
      else
        let m := d.count
        let ks := (List.range m).map fun k => if d.typ = 4 ∧ d.w0.testBit 3 then m - 1 - k else k
        match c.fillCopy d ks with
        | (some e, c1) => (s.setCore n c1).dmaFault n fltSpadUncorrectable (e * 8) false
        | (none, c1) => s.setCore n ((c1.updDesc i fun d => { d with issued := m, done := m }).dmaComplete 16)

/-! ### Context loads (R40, R41, R305) -/

/-- Context slot `k` of a core. -/
def Core.slot (c : Core) (k : Nat) : Slot := Sparse.get .reset c.slots k
/-- Context slot `k` changed. -/
def Core.updSlot (c : Core) (k : Nat) (f : Slot → Slot) : Core := { c with slots := Sparse.put c.slots k (f (c.slot k)) }

/-- A failed context load faults the tick of its section, once that tick has reached the core (R41). -/
def State.ctxFault (s : State) (n : Nat) : State :=
  let c := s.core n
  match c.next with
  | none => s
  | some x =>
    let z := c.slot x.slot
    if z.failed ≠ 0 ∧ c.tickSeen = some x.tick then
      (s.updCore n fun c => c.updSlot x.slot fun z => { z with failed := 0, failedVa := 0 }).unitFault n
        ⟨3, 0, z.failed, 0, z.failedVa, true, 0⟩
    else s

/-- CONTEXT_LOAD_REPLY: a row of a context image lands in its slot, which is READY with the last one; a refusal leaves the
slot EMPTY (R40, R41). A reply for no outstanding row is dropped (R305). -/
def execContextLoadReply (n port : Nat) (s : State) : Out :=
  let c := s.core n
  .next <| match c.replyAt port fun q => decide (q.unit = 2) with
  | none => s
  | some (q, r) =>
    let c1 := c.tookHead s.now port 2
    match (if q.gen = c.genNow then c.dma.ctx else none) with
    | none => s.setCore n c1.stale
    | some x =>
      if !x.outstanding.contains q.tag || decide (q.va ≠ (x.base + 64 * q.tag) % 2 ^ 48) then s.setCore n c1.stale
      else
        match r with
        | .data row =>
          let x1 := { x with outstanding := x.outstanding.filter (· ≠ q.tag), landed := x.landed + 1 }
          let full := decide (x1.landed = 32)
          s.setCore n (((c1.updSlot x.slot fun z =>
            { z with image := Sparse.blit 0 z.image (64 * q.tag) row.toBytes, state := if full then .ready else z.state }).updDma
            fun d => { d with ctx := if full then none else some x1 }).progress)
        | r =>
          (s.setCore n ((c1.updSlot x.slot fun z => { z with state := .empty, failed := r.fault, failedVa := q.va }).updDma
            fun d => { d with ctx := none })).ctxFault n

end Sys2Proof.Machine
end

