-- ==== Sys2Proof/Machine/Hallmark.lean ====
section
/-!
DEFINITION. The core hallmark (R263 to R266): the contribution of one folded value, and a fold by the engine or a thread.
-/
namespace Sys2Proof.Machine

/-- hfin of R265. -/
def hfin (z : DWord) : DWord :=
  let z := z ^^^ (z >>> 32)
  let z := z * 0xC7A13E5D92F06B2B#64
  let z := z ^^^ (z >>> 29)
  let z := z * 0x8B3FD4612E97C5A1#64
  z ^^^ (z >>> 32)

/-- hm_elem of R265: source 0 is the engine, 1 + t thread Tt. -/
def hmElem (index src seq : Nat) (v : DWord) : DWord :=
  let k : DWord := BitVec.ofNat 64 (src * 2 ^ 51 + index * 2 ^ 32 + seq)
  hfin (hfin (k ^^^ 0x4F1BD82C93E67A55#64) ^^^ v)

/-- CORE_HM as one 64-bit value. -/
def Core.hm (c : Core) : DWord := BitVec.ofNat 64 (c.rd CR.CORE_HM_LO + 2 ^ 32 * c.rd CR.CORE_HM_HI)

/-- CORE_HM written. -/
def Core.setHm (c : Core) (v : DWord) : Core :=
  c.wrs [(CR.CORE_HM_LO, v.toNat), (CR.CORE_HM_HI, v.toNat / 2 ^ 32)]

/-- The fold index of a source: ENG_SEQ, or THR_SEQ of a thread (R264). -/
def seqField (src : Nat) : Fld := if src = 0 then CR.ENG_SEQ else CR.THR_SEQ.at (4 * (src - 1))

/-- One value folded by a source of core `n` (R264, R265). -/
def Core.fold (c : Core) (n src : Nat) (v : DWord) : Core :=
  let f := seqField src
  let q := c.rd f
  { (c.setHm (c.hm + hmElem n src q v)).wr f (q + 1) with folds := satAdd 32 c.folds 1 }

/-- CORE_HM, every fold index and the count of values folded at zero (R266). -/
def Core.clearHm (c : Core) : Core :=
  { (List.range 9).foldl (fun c src => c.wr (seqField src) 0) (c.wrs [(CR.CORE_HM_LO, 0), (CR.CORE_HM_HI, 0)]) with folds := 0 }

/-- The latch at done; the count of values folded is an event counter, which stops at its largest value (R14, R266). -/
def Core.latchHm (c : Core) (tick : Nat) : Core :=
  (c.wrs [(CR.HM_LAST_LO, c.rd CR.CORE_HM_LO), (CR.HM_LAST_HI, c.rd CR.CORE_HM_HI), (CR.HM_LAST_TICK, tick),
          (CR.HM_LAST_FOLDS, c.folds)]).clearHm

end Sys2Proof.Machine
end

