-- ==== Sys2Proof/Machine/Plan.lean ====
section
/-!
DEFINITION. Tick plans (02): their format, the sections of a core in them, and the check of R45.
-/
namespace Sys2Proof.Machine

/-! ### Words of the module's register arrays -/

/-- `k` consecutive 32-bit registers as bytes. -/
def State.rdBytes (s : State) (f : Fld) (k : Nat) : List Byte := (List.range k).flatMap fun i => leBytes 4 (s.rd (f.at (4 * i)))
/-- Bytes into consecutive 32-bit registers. -/
def State.wrBytes (s : State) (f : Fld) (bs : List Byte) : State :=
  (List.range (bs.length / 4)).foldl (fun s i => s.wr (f.at (4 * i)) (leNat ((bs.drop (4 * i)).take 4))) s

/-! ### Entries (R43, R44) -/

/-- A plan entry from its 32 bytes. -/
def PlanEntry.ofBytes (b : List Byte) : PlanEntry :=
  let n (a len : Nat) : Nat := leNat ((b.drop a).take len)
  let w := n 2 2
  ⟨n 0 2, bits w 1 0, bits w 3 2, w.testBit 4, bits w 11 8, n 4 2, n 6 2, n 8 2, n 10 2, n 0x10 8⟩

/-- The cores of an entry's rectangle, in the order of its context array. -/
def PlanEntry.cores (e : PlanEntry) : List Nat :=
  (List.range (e.y1 + 1 - e.y0)).flatMap fun j => (List.range (e.x1 + 1 - e.x0)).map fun i => coreAt (e.x0 + i) (e.y0 + j)
/-- The entry covers a core. -/
def PlanEntry.covers (e : PlanEntry) (n : Nat) : Bool :=
  decide (e.x0 ≤ coreX n) && decide (coreX n ≤ e.x1) && decide (e.y0 ≤ coreY n) && decide (coreY n ≤ e.y1)
/-- The address of a core's context image. -/
def PlanEntry.ctxOf (e : PlanEntry) (n : Nat) : Nat :=
  e.ctx + ((coreY n - e.y0) * (e.x1 + 1 - e.x0) + (coreX n - e.x0)) * 0x800
/-- The sections of a core in a tick, in entry order. -/
def sectionsOf (es : List PlanEntry) (n : Nat) : List PlanEntry := es.filter fun e => e.covers n
/-- Every core an entry covers, once per entry. -/
def planCores (es : List PlanEntry) : List Nat := es.flatMap PlanEntry.cores
/-- The plan covers some core of a region. -/
def PlanEntry.touches (e : PlanEntry) (r : Nat) : Bool :=
  let x := r % 8 * 72
  let y := r / 8 * 72
  decide (e.x0 ≤ x + 71) && decide (x ≤ e.x1) && decide (e.y0 ≤ y + 71) && decide (y ≤ e.y1)

/-- A core's section `k` of tick `tick`, or its first one of the next tick; none where it has none (R44, R443). -/
def sectionFrom (es : List PlanEntry) (n tick k : Nat) : Option NextSec :=
  let l := sectionsOf es n
  match l[k]? with
  | some e => some ⟨tick, k, e.slot, (e.epoch + tick) % 4⟩
  | none =>
    match l[0]? with
    | some e => some ⟨tick + 1, 0, e.slot, (e.epoch + (tick + 1)) % 4⟩
    | none => none

/-! ### The check (R45) -/

/-- LOAD_RESULT codes (R61). -/
def loadBadFormat : Nat := 3
def loadAbsent : Nat := 4
def loadTooLong : Nat := 5
def loadSlotClash : Nat := 6
def loadEpochClash : Nat := 7
def loadBadAddress : Nat := 8
def loadEclipsed : Nat := 9
def loadCutRoute : Nat := 10
def loadUncorrectable : Nat := 11

/-- The lowest of a list. -/
def lowest : List Nat → Option Nat
  | [] => none
  | n :: l => some (l.foldl min n)

/-- The plan's shape is wrong: a rectangle outside the grid, or the entries of one section not consecutive, overlapping, or
unlike in EPOCH or FINAL_CLASP. -/
def shapeBad : List PlanEntry → Bool
  | [] => false
  | e :: l =>
    let same := l.filter fun x => decide (x.id = e.id)
    let next := l.takeWhile fun x => decide (x.id = e.id)
    decide (e.x1 < e.x0) || decide (e.y1 < e.y0) || decide (576 ≤ e.x1) || decide (504 ≤ e.y1) ||
      decide (same.length ≠ next.length) ||
      same.any (fun x => decide (x.epoch ≠ e.epoch) || decide (x.final ≠ e.final) ||
        (decide (x.x0 ≤ e.x1) && decide (e.x0 ≤ x.x1) && decide (x.y0 ≤ e.y1) && decide (e.y0 ≤ x.y1))) ||
      shapeBad l

/-- Entry `j` of a core's cyclic sequence of sections: its entry, and its epoch in tick 0. -/
def cyclic (l : List PlanEntry) (j : Nat) : Option (PlanEntry × Nat) :=
  (l[j % l.length]?).map fun e => (e, (e.epoch + j / l.length) % 4)

/-- Two consecutive sections use one slot with different CTX_BASE. -/
def slotClash (l : List PlanEntry) : Bool :=
  (List.range l.length).any fun j =>
    match cyclic l j, cyclic l (j + 1) with
    | some a, some b => decide (a.1.slot = b.1.slot) && decide (a.1.ctx ≠ b.1.ctx)
    | _, _ => false

/-- Three consecutive sections do not have three distinct epochs. -/
def epochClash (l : List PlanEntry) : Bool :=
  (List.range l.length).any fun j =>
    match cyclic l j, cyclic l (j + 1), cyclic l (j + 2) with
    | some a, some b, some c => decide (a.2 = b.2) || decide (b.2 = c.2) || decide (a.2 = c.2)
    | _, _, _ => false

/-- The paths of a core that has work are cut: its valid routes, its clasp edges, and the ways to and from the hubs' edge
ports (R27). -/
def pathsCut (ds : List Phys) (n : Nat) (img : Sparse Byte) : Bool :=
  let y := coreY n
  let route (q : Nat) : Bool :=
    let r := Route.ofImage img q
    !r.bad ds &&
      match r.kind with
      | 1 => vertCut ds (coreX r.dest) y (coreY r.dest)
      | 2 => (maskPos r.xBase r.colMask).any fun cx => (maskPos r.yBase r.rowMask).any fun cy => vertCut ds cx y cy
      | _ => false
  let edge (d : Nat) : Bool :=
    decide (d % 2 = 0) && (match gridNbr n d with | some m => absentIn ds m | none => false)
  let clasp (k : Nat) : Bool :=
    let v := imgNat img (0x580 + 8 * k) 8
    let p := bits v 10 8
    v.testBit 16 && ((decide (1 ≤ p) && decide (p ≤ 4) && edge (p - 1)) ||
      (List.range 4).any fun d => v.testBit (12 + d) && edge d)
  (List.range 32).any route || (List.range 16).any clasp || (List.range 4).any fun h => hubCut ds h n

/-- What the MP's read of a context image finds. -/
inductive Img where
  | ok (bs : List Byte)
  | unmapped
  | bad
  deriving DecidableEq, Repr

/-- The MP translates a virtual address with the tables in force. -/
def State.mpTrans (s : State) (va : Nat) : Trans × State :=
  if 2 ^ 48 ≤ va ∨ hbmSize ≤ s.ptRoot then (.unmapped, s)
  else match s.walkFrom va false false 4 1 s.ptRoot 0 none with | (w, s1) => (w.res, s1)

/-- A range of one 64 KiB page read by the MP. -/
def State.mpPart (s : State) (va len : Nat) : Img × State :=
  if len = 0 then (.ok [], s)
  else
    match s.mpTrans va with
    | (.ok pa _, s1) => match s1.mpRead pa len with | (some bs, s2) => (.ok bs, s2) | (none, s2) => (.bad, s2)
    | (.uncorrectable, s1) => (.bad, s1)
    | (_, s1) => (.unmapped, s1)

/-- A context image read by the MP. -/
def State.mpImage (s : State) (va : Nat) : Img × State :=
  let a := min 2048 (2 ^ 16 - va % 2 ^ 16)
  match s.mpPart va a with
  | (.ok x, s1) => (match s1.mpPart (va + a) (2048 - a) with | (.ok y, s2) => (.ok (x ++ y), s2) | r => r)
  | r => r

/-- The context images of a plan, in entry order and in the order of each array. -/
def State.mpImages (s : State) (es : List PlanEntry) : List (Nat × Img) × State :=
  es.foldl (fun r e => e.cores.foldl (fun r n =>
    if e.ctx % 64 ≠ 0 ∨ 2 ^ 48 ≤ e.ctx then (r.1 ++ [(n, .unmapped)], r.2)
    else match r.2.mpImage (e.ctxOf n) with | (i, s1) => (r.1 ++ [(n, i)], s1)) r) ([], s)

/-- The bytes of an image, those of one that could not be read being none. -/
def Img.bytes : Img → List Byte
  | .ok bs => bs
  | _ => []

/-- An image as a map. -/
def imgOf (bs : List Byte) : Sparse Byte := Sparse.blit 0 [] 0 bs

/-- PLAN_BASE as last written. -/
def State.planBase (s : State) : Nat := s.rd MR.PLAN_BASE_LO + 2 ^ 32 * s.rd MR.PLAN_BASE_HI

/-- What a plan check answers: the plan, or the refusal code and the core concerned. -/
inductive Checked where
  | ok (p : Plan)
  | refused (code core : Nat)
  deriving DecidableEq, Repr

/-- The checks on the entries that follow the format's, in their order (R45). -/
def checkEntries (ds : List Phys) (es : List PlanEntry) (imgs : List (Nat × Img)) : Option (Nat × Nat) :=
  let cs := planCores es
  let low (p : Nat → Bool) (code : Nat) (next : Option (Nat × Nat)) : Option (Nat × Nat) :=
    match lowest (cs.filter p) with | some n => some (code, n) | none => next
  low (absentIn ds) loadAbsent <|
  low (fun n => decide (64 < (sectionsOf es n).length)) loadTooLong <|
  low (fun n => slotClash (sectionsOf es n)) loadSlotClash <|
  low (fun n => epochClash (sectionsOf es n)) loadEpochClash <|
  if imgs.any (fun e => decide (e.2 = .unmapped)) then some (loadBadAddress, 0)
  else
    match lowest ((imgs.filter fun e => pathsCut ds e.1 (imgOf e.2.bytes)).map (·.1)) with
    | some n => some (loadCutRoute, n)
    | none => none

/-- The check of the plan at `base` under the remap `ds` (R45). An uncorrectable block is also logged with LEVEL 3. -/
def State.checkPlan (s : State) (ds : List Phys) (base : Nat) : Checked × State :=
  let bad (s : State) : Checked × State := (.refused loadUncorrectable 0, s.logFault fltMemUncorrectable 3 0)
  if base % 32 ≠ 0 ∨ hbmSize < base + 32 then (.refused loadBadAddress 0, s)
  else
    match s.mpRead base 32 with
    | (none, s1) => bad s1
    | (some h, s1) =>
      let n (a len : Nat) : Nat := leNat ((h.drop a).take len)
      let count := n 6 2
      if hbmSize < base + 32 + 32 * count then (.refused loadBadAddress 0, s1)
      else
        match s1.mpRead base (32 + 32 * count) with
        | (none, s2) => bad s2
        | (some t, s2) =>
          let es := (List.range count).map fun i => PlanEntry.ofBytes ((t.drop (32 + 32 * i)).take 32)
          let head := decide (n 0 4 = 0x4E414C50) && decide (n 4 2 = 1) && decide (0 < count) && decide (count ≤ 4096)
          match s2.mpImages (if head then es.filter fun e => decide (e.x1 < 576) && decide (e.y1 < 504) else []) with
          | (imgs, s3) =>
            if imgs.any fun e => decide (e.2 = .bad) then bad s3
            else if !head || shapeBad es then (.refused loadBadFormat 0, s3)
            else
              match checkEntries ds es imgs with
              | some (code, core) => (.refused code core, s3)
              | none =>
                (.ok ⟨base, es, shake256 (s3.rdBytes MR.PROG_HASH 8 ++ t ++ imgs.flatMap fun e => e.2.bytes) 32⟩, s3)

end Sys2Proof.Machine
end

