-- ==== Sys2Proof/Machine/Sections.lean ====
section
/-!
DEFINITION. Sections at a core and the part of a tick that a region plays (02, 10): context loads, the start and the close of
a section, the epoch timer, TICK, done notices and aborts at regions and cores.
-/
namespace Sys2Proof.Machine

/-- RUN_STATE codes (R61). -/
def rsHalted : Nat := 0
def rsLoading : Nat := 1
def rsRunning : Nat := 2
def rsPreempting : Nat := 3
def rsAborting : Nat := 4

/-- RUN_STATE. -/
def State.runState (s : State) : Nat := s.rd MR.RUN_STATE
/-- The plan's entries. -/
def State.planEntries (s : State) : List PlanEntry := match s.md.tu.plan with | some p => p.entries | none => []
/-- A core or a region in reset (R394). -/
def State.inReset (s : State) (domain index : Nat) : Bool := s.md.boot.held.contains (domain, index)
/-- A core that answers nothing: lost, gated, in reset, or of an eclipsed region (R372, R394, R401). -/
def State.silent (s : State) (n : Nat) : Bool :=
  (s.core n).lost || (s.core n).gated || s.eclipsed (regionOf n) || s.inReset 0 n || s.inReset 1 (regionOf n)

/-! ### Context loads (R40) -/

/-- The context load under way is dropped: its slot is EMPTY (R51, R305). -/
def Core.dropCtx (c : Core) : Core :=
  match c.dma.ctx with
  | none => c
  | some x => (c.updSlot x.slot fun z => { z with state := .empty }).updDma fun d => { d with ctx := none }

/-- A load of slot `k` from `va` begins. -/
def Core.beginCtx (c : Core) (k va : Nat) : Core :=
  (c.dropCtx.updSlot k fun _ => { state := .loading, base := va, image := [], failed := 0, failedVa := 0 }).updDma fun d =>
    { d with ctx := some ⟨k, va, 0, [], 0, false⟩ }

/-- The state of a domain, coded as in DOM_STATE (R359). -/
def State.dom (s : State) (d : Nat) : Nat := Sparse.get 0 s.md.pw.doms d

/-- The core decides the context load of its next section: none where the slot holds the image from the same address and
RELOAD is 0; deferred while the slot is ACTIVE (R40), or while the CORE domain, which holds the context storage, is not ON
(R356). -/
def State.decideLoad (s : State) (n : Nat) : State :=
  let c := s.core n
  match c.next with
  | none => s
  | some x =>
    match (sectionsOf s.planEntries n)[x.entry]? with
    | none => s
    | some e =>
      let va := e.ctxOf n
      let z := c.slot e.slot
      if z.state ≠ .empty ∧ z.base = va ∧ !e.reload then s
      else if z.state = .active ∨ s.dom (4 * regionOf n) ≠ 2 then s
      else (s.updCore n fun c => c.beginCtx e.slot va).shareRun n 32

/-- The core's next section fixed, and its load decided (R443). -/
def State.setNext (s : State) (n : Nat) (x : Option NextSec) : State :=
  (s.updCore n fun c => { c with next := x }).decideLoad n

/-! ### Done (R48, R266) -/

/-- Core `n` is done with a tick: its hallmark is latched, and CORE_DONE waits to enter the mesh (R48). -/
def Core.setDone (c : Core) (n tick : Nat) : Core :=
  if c.doneFor = some tick then c
  else
    let c1 := c.latchHm tick
    { c1 with doneFor := some tick,
              ctrlOut := c1.ctrlOut ++
                [⟨1, regionOf n, n, 0, .coreDone tick (c1.rd CR.HM_LAST_LO + 2 ^ 32 * c1.rd CR.HM_LAST_HI) (c1.rd CR.HM_LAST_FOLDS)⟩] }

/-- The core has no section of a tick left. -/
def Core.tickOver (c : Core) (tick : Nat) : Bool := match c.next with | some x => decide (tick < x.tick) | none => true

/-! ### The start of a section (R38) -/

/-- The threads of a context image (R64, R65). -/
def Core.threadSetup (c : Core) (img : Sparse Byte) : Core :=
  (List.range 8).foldl (fun c t =>
    let v := imgNat img (0x600 + 8 * t) 8
    c.updThread t fun _ =>
      if v.testBit 31 then
        { Thread.reset with status := .ready, pc := BitVec.ofNat 32 (bits v 17 0 / 4 * 4),
                            g := Sparse.set 0 [] 1 (BitVec.ofNat 32 (bits v 63 32)) }
      else .reset) c

/-- The engine and the compressor at a section start (R119, R120, R160, R167); `false` where an area entry fails. -/
def Core.unitSetup (c : Core) (img : Sparse Byte) : Core × Bool :=
  let cfg := imgNat img 0x644 4
  let cz := imgNat img 0x650 4
  let lost := (c.comp.val.staged ++ c.comp.info.staged ++ c.comp.l1.staged ++ c.comp.row.staged ≠ []) ∨
    c.comp.blockBits ≠ [] ∨ c.comp.l1Bits ≠ []
  let z := { Comp.reset with mode := bits cz 1 0, metaFull := bitOf cz 2, rowBlocks := bits cz 29 18 }
  let loaded := z.loadAreas (Sparse.slice 0 img 0x658 32)
  let keep := { z with val := { c.comp.val with staged := [] }, info := { c.comp.info with staged := [] },
                       l1 := { c.comp.l1 with staged := [] }, row := { c.comp.row with staged := [] } }
  let c1 := { c with
    eng := { Engine.reset with owner := bits (imgNat img 0x640 4) 2 0, rmode := bitOf cfg 0, ovfIeee := bitOf cfg 1 },
    comp := loaded.getD keep }
  ((if lost then c1.wr CR.CZ_STAGED_LOST 1 else c1).wr CR.VCVT_MODE (imgNat img 0x648 2), loaded.isSome)

/-- The faults that the checks of a start raise: queues (R190), bezels (R104), clasps (R219), compressor areas (R160). -/
def State.startFaults (s : State) (n final : Nat) (img : Sparse Byte) (areasOk : Bool) : State :=
  let raise (b : Bool) (i : FaultInfo) (s : State) : State := if b then s.unitFault n i else s
  let s1 := ((List.range 32).filter fun q => queueWordBad (imgNat img (0x400 + 8 * q) 8)).foldl
    (fun s _ => s.unitFault n (.ofUnit 4 fltQueueSetup 0)) s
  let s2 := ((List.range 8).filter fun b => (imgNat img (0x504 + 16 * b) 4).testBit 16 &&
      !bzSetupOk (imgNat img (0x500 + 16 * b) 4) (bits (imgNat img (0x504 + 16 * b) 4) 11 0)).foldl
    (fun s b => s.unitFault n (.ofUnit 4 fltBezelSetup (imgNat img (0x500 + 16 * b) 4))) s1
  raise (!areasOk) (.ofUnit 2 fltCzConfig (badEntryBase (Sparse.slice 0 img 0x658 32)))
    (raise (claspsBad s.md.remap n final img) (.ofUnit 4 fltClaspSetup 0) s2)

/-- A pending commit cut of the core is made, with PROG_SEED copied into ROUND_SEED (R57, R148). -/
def Core.cut (c : Core) (seed : Nat) : Core :=
  let c1 := c.wrs [(CR.ROUND_SEED_LO, seed), (CR.ROUND_SEED_HI, seed / 2 ^ 32)]
  if c.cutDue then { c1 with regs := c1.regs.commit, cutDue := false } else c
/-- PROG_SEED in force. -/
def State.progSeed (s : State) : Nat := s.md.regs.inForce MR.PROG_SEED_LO + 2 ^ 32 * s.md.regs.inForce MR.PROG_SEED_HI

/-- Whether the core may start its next section now (R38): every domain of its region is ON (R356, R371). -/
def State.canStart (s : State) (n : Nat) (x : NextSec) (e : PlanEntry) : Bool :=
  let c := s.core n
  let g := s.region (regionOf n)
  let z := c.slot x.slot
  decide (s.runState = rsRunning) && decide (c.sec = .idle) && decide (c.tickSeen = some x.tick) &&
    decide (z.state = .ready) && decide (z.base = e.ctxOf n) && !s.silent n && !g.abortIn &&
    decide (g.abortSerial ≤ c.abortTaken) && (List.range 4).all fun k => decide (s.dom (4 * regionOf n + k) = 2)

/-- The core as its section starts, before its bezels open and early tokens are released (R38). -/
def Core.startAt (c : Core) (now seed : Nat) (x : NextSec) (e : PlanEntry) : Core × Bool :=
  let img := (c.slot x.slot).image
  let c1 := ((c.cut seed).updSlot x.slot fun z => { z with state := .active }).wrs
    [(CR.ACTIVE_SLOT, x.slot), (CR.ACTIVE_EPOCH, x.epoch), (CR.ACTIVE_VALID, 1), (CR.SECTION_ID, e.id), (CR.WDOG_COUNT, 0)]
  let c2 := { c1 with sec := .running, secTick := x.tick, finalClasp := e.final, finalDone := false, faulted := false, secSince := now,
                      epochTimer := false, routes := [] }
  (((c2.queueSetup img).claspSetup img).threadSetup img).updDma (fun d =>
    { d with queue := [], nextTag := 0, doneTag := 0, stopped := false, turn := 0 }) |>.unitSetup img

/-- SECTION_START: an IDLE core whose next context is READY, and whose tick has begun, starts its next section; a clasp node that the early
arrivals have filled goes on at once (R38, R221). -/
def execSectionStart (n : Nat) (s : State) : Out :=
  let c := s.core n
  .next <| match c.next with
  | none => s
  | some x =>
    match (sectionsOf s.planEntries n)[x.entry]? with
    | none => s
    | some e =>
      if !s.canStart n x e then s
      else
        let img := (c.slot x.slot).image
        let r := c.startAt s.now s.progSeed x e
        let c1 := r.1.wr CR.ROUTE_BAD (routesBad s.md.remap img)
        let s1 := ((s.setCore n c1).bzSetup n img).releaseEarly n
        let s2 := ((List.range 16).filter fun k => decide ((r.1.clasp k).children ≠ 0)).foldl (fun s k => s.claspStep n k)
          (s1.startFaults n e.final img r.2)
        s2.setNext n (sectionFrom s.planEntries n x.tick (x.entry + 1))

/-! ### The close of a section (R37, R55) -/

/-- A thread that no longer runs in its section: OFF or ENDED. -/
def Thread.finished (t : Thread) : Bool := match t.status with | .off => true | .ended => true | _ => false

/-- The conditions of R37. -/
def Core.switchMet (c : Core) : Bool :=
  let k := c.clasp c.finalClasp
  decide (c.sec = .closing) && decide (k.thrArr = 0) && decide (k.childArr = 0) &&
    (List.range 8).all (fun t => (c.thread t).finished) && decide (c.epochHeld = 0)

/-- The section closes under R37. One that has raised a fault ends as faulted, and does not close (R36, R81; DEDUCED, log 76). -/
def Core.canClose (c : Core) : Bool := c.switchMet && !c.faulted

/-- The section leaves the core: its slot is READY again, its epoch invalid. -/
def Core.leave (c : Core) (nxt : SecState) : Core :=
  let k := c.rd CR.ACTIVE_SLOT
  let c1 := c.updSlot k fun z => if z.state = .active then { z with state := .ready } else z
  { c1.wr CR.ACTIVE_VALID 0 with sec := nxt, epochTimer := false }

/-- The slot that the section left is its next section's: a load deferred under R40 is decided now. -/
def State.deferred (s : State) (n : Nat) : State :=
  let c := s.core n
  match c.next with
  | some x => if x.slot = c.rd CR.ACTIVE_SLOT then s.decideLoad n else s
  | none => s

/-- Some reduction slot is in EXP, DATA or CHECK state (R247). -/
def State.reducing (s : State) : Bool := s.md.slots.any fun e => e.2.running && !e.2.aborted

/-- Some core is RUNNING or CLOSING. -/
def State.anyRunning (s : State) : Bool := s.cores.any fun e => e.2.inSection

/-- The tick unit changed. -/
def State.updTu (s : State) (f : TickUnit → TickUnit) : State := s.updMd fun m => { m with tu := f m.tu }

/-- The context loads under way are parked or go on (R305). -/
def State.parkLoads (s : State) (b : Bool) : State :=
  { s with cores := s.cores.map fun (e : Nat × Core) =>
      (e.1, e.2.updDma fun d => { d with ctx := d.ctx.map fun x => { x with parked := b } }) }

/-- During PREEMPTING, with no core in a section, the context loads under way are parked; with no reduction round running either, the
module halts: the held TICKs are discarded, and the pre-empted tick can resume (R47, R61, R247, R305). -/
def State.preemptHalt (s : State) : State :=
  if s.runState ≠ rsPreempting ∨ s.anyRunning then s
  else if s.reducing then s.parkLoads true
  else
    let t := s.md.tu
    let tick := match t.active.getLast? with
      | some a => a.tick
      | none => match t.held with | m :: _ => m.tick | [] => t.expected
    let s1 := t.held.foldl (fun s _ => s.countSat MR.DUP_TICK_COUNT MR.DUP_TICK_SAT) s
    let s2 := (s1.wrs [(MR.RUN_STATE, rsHalted), (MR.RESUME_VALID, 1), (MR.OUTCOME, 3)]).updTu fun t =>
      { t with held := [], resume := tick, expected := tick + 1, stopped := false }
    s2.parkLoads true

/-- SECTION_CLOSE: a CLOSING core whose close conditions hold becomes IDLE; with its last section of the tick closed it is
done (R37, R48). -/
def execSectionClose (n : Nat) (s : State) : Out :=
  let c := s.core n
  .next <|
    if !c.canClose then s
    else
      let c1 := c.leave .idle
      ((s.setCore n (if c1.tickOver c.secTick then c1.setDone n c.secTick else c1)).deferred n).preemptHalt

/-- EPOCH_TIMEOUT: the epoch timer expires before the section can close; the remaining threads stop, the tokens of the epoch
are discarded and counted, and FLT_EPOCH_RESIDUE is recorded (R55). -/
def execEpochTimeout (n : Nat) (s : State) : Out :=
  let c := s.core n
  .next <|
    if c.sec ≠ .closing ∨ !c.epochTimer ∨ c.switchMet then s
    else
      let live (t : Nat) : Bool := match (c.thread t).status with | .ready => true | .waiting => true | _ => false
      let ts := (List.range 8).filter live
      let c1 := ts.foldl (fun c t => c.updThread t fun th => { th with status := .stopped, wait := .none }) c
      let c2 := (c1.dropEpoch s.now).countSat CR.RESIDUE_TOKENS CR.RESIDUE_SAT c.epochHeld
      let c3 := if ts = [] then c2 else c2.wr CR.RESIDUE_THREADS 1
      (s.setCore n { c3 with epochTimer := false }).unitFault n (.ofUnit 4 fltEpochResidue 0)

/-! ### TICK at regions and cores (R48, R57) -/

/-- The cores of a region that send no done notice: ABSENT, lost or gated (R401). -/
def State.silentCores (s : State) (r : Nat) : Nat :=
  regionAbsent s.md.remap r + (s.cores.filter fun e => decide (regionOf e.1 = r) && (e.2.lost || e.2.gated)).length

/-- REGION_DONE for `tick` of region `r` waits to enter the mesh (R48, R269). -/
def Region.finish (g : Region) (r tick got sum : Nat) : Region :=
  let g1 := g.wrs [(RR.REGION_DONE, 1), (RR.REGION_HM_LAST_LO, sum), (RR.REGION_HM_LAST_HI, sum / 2 ^ 32),
    (RR.REGION_HM_TICK, tick), (RR.CORES_REPORTED, got)]
  { g1 with dones := g1.dones.filter fun d => decide (d.tick ≠ tick),
            ctrlOut := g1.ctrlOut ++ [⟨2, 0, regionSrc r, g1.ctrlGen, .regionDone tick sum⟩],
            ticks := g1.ticks.filter fun m => decide (m.tick ≠ tick) }

/-- Region `r` looks whether the oldest tick it counts is complete: its 5,184 cores are done or send no notice. -/
def Region.look (g : Region) (r : Nat) : Region :=
  match g.dones with
  | d :: _ => if 5184 ≤ d.silent + d.got then g.finish r d.tick d.got d.sum else g
  | [] => g

/-- Region `r` accepts a TICK (R48, R57); an eclipsed region answers REGION_DONE at once (R372). A TICK of a resumed tick
changes no count (R62). -/
def Region.takeTick (g : Region) (r : Nat) (m : TickMsg) (silent : Nat) (eclipsed : Bool) : Region :=
  let again := decide (g.tickNow = some m.tick)
  let g1 := if m.commit then { g with regs := g.regs.commit } else g
  let g2 := g1.wr RR.REGION_TICK m.tick
  let g3 := { g2 with tickNow := some m.tick, tickCount := g2.tickCount + 1,
                      ticks := g2.ticks ++ [{ m with serial := g2.tickCount + 1 }] }
  if again then g3
  else
    let g4 := { g3.wrs [(RR.REGION_DONE, 0), (RR.CORES_REPORTED, 0)] with dones := g3.dones ++ [RegDone.mk m.tick silent 0 0] }
    if eclipsed then g4.finish r m.tick 0 0 else g4.look r

/-- REGION_TICK: region controller `r` receives TICK from H0, makes its commit cut and multicasts it (R48, R57). A
region whose eclipse that cut ends counts its cores. -/
def execRegionTick (r : Nat) (s : State) : Out :=
  .next <| match (if s.inReset 1 r then [] else (s.region r).tickIn) with
  | [] => s
  | m :: l =>
    let silent := s.silentCores r
    let ecl := s.eclipsed r &&
      (s.md.regs.inForce MR.ECLIPSE_LO + 2 ^ 32 * s.md.regs.inForce MR.ECLIPSE_HI).testBit r
    s.updRegion r fun g => { g with tickIn := l }.takeTick r m silent ecl

/-- CORE_TICK: the core receives TICK. It recomputes its next section where a new plan commits, and is done if it has no
section in the tick (R38, R48, R57, R443). -/
def execCoreTick (n : Nat) (s : State) : Out :=
  let c := s.core n
  .next <| match (s.region (regionOf n)).ticks.find? fun m => decide (c.tickTaken < m.serial) with
  | none => s
  | some m =>
    if s.silent n then s
    else
      let s1 := s.setCore n { c with tickSeen := some m.tick, tickTaken := m.serial, cutDue := m.commit,
                                     sec := if c.sec = .aborted then .idle else c.sec }
      let s2 := if m.newPlan then s1.setNext n (sectionFrom s.planEntries n m.tick 0) else s1
      (s2.updCore n fun c =>
        if c.inSection then c
        else if c.tickOver m.tick then (c.cut s.progSeed).setDone n m.tick
        else c).ctxFault n

/-- CORE_DONE: a done notice of core `n` reaches its region controller, which sends REGION_DONE with the last (R48, R269). What waits at
the core enters the mesh first, or takes its detour (R27). -/
def execCoreDone (n : Nat) (s0 : State) : Out :=
  let s := s0.enter n
  let c := s.core n
  .next <| match c.doneOut with
  | [] => s
  | (tick, hm, _) :: l =>
    (s.setCore n { c with doneOut := l }).updRegion (regionOf n) fun g =>
      let count (d : RegDone) : RegDone :=
        if d.tick = tick then { d with got := d.got + 1, sum := (d.sum + hm) % 2 ^ 64 } else d
      let g1 := { g with dones := g.dones.map count }
      let got := match g1.dones.find? fun d => decide (d.tick = tick) with | some d => d.got | none => g.rd RR.CORES_REPORTED
      (if g1.tickNow = some tick then g1.wr RR.CORES_REPORTED got else g1).look (regionOf n)

/-! ### Aborts at regions and cores (R51, R443) -/

/-- REGION_SECTION_ABORT: SECTION_ABORT from H0 reaches region controller `r` (R51). The control messages of H0 to a region
arrive in order. -/
def execRegionSectionAbort (r : Nat) (s : State) : Out :=
  let g := s.region r
  .next <|
    if g.abortIn && decide (g.tickIn = []) && !s.inReset 1 r then
      s.updRegion r fun g => { g.wr RR.ABORTING 1 with abortIn := false, abortSerial := g.abortSerial + 1 }
    else s

/-- What an abort does to the section of a core (R51): threads stop, engine, compressor and DMA work is cancelled, and
replies to what is outstanding will carry an old generation (R297). -/
def Core.abortUnits (c : Core) : Core :=
  let stop (t : Thread) : Thread :=
    let on := match t.status with | .ready => true | .waiting => true | _ => false
    { t with status := if on then .stopped else t.status, wait := .none, farLoad := none, farStores := 0, farHeld := 0, tags := [] }
  let c1 := (List.range 8).foldl (fun c t => c.updThread t stop) c
  let c2 := (c1.dropCtx).updDma fun d => { d with queue := [], stopped := false }
  { c2 with gen := (c2.gen + 1) % 16, memWait := [], eng := { c2.eng with queue := [] },
            bzOut := c2.bzOut.map fun (e : Nat × List BzWrite) => (e.1, e.2.take 8) }

/-- The section of core `n`, RUNNING or CLOSING, becomes ABORTED (R51). -/
def State.abortSection (s : State) (n : Nat) : State :=
  let s1 := s.updCore n fun c => (c.abortUnits.queueAbort.claspAbort).leave .aborted
  (s1.bzAbort n).updRegion (regionOf n) fun g => { g with regs := g.regs.countSat RR.ABORT_COUNT RR.ABORT_SAT 1 }

/-- An abort at a core with no section: its clasp nodes give up what they hold, the hold table is emptied and the signal counters clear
(R228). -/
def Core.abortIdle (c : Core) : Core :=
  (List.range 8).foldl (fun c t => c.updThread t fun th => { th with sig := 0 }) { c.claspAbort with hold := [] }

/-- An abort reaches a core: a running section is aborted, no further section of the tick starts, and the core is done with
the tick (R48, R51, R443). -/
def State.abortCore (s : State) (n : Nat) : State :=
  let g := s.region (regionOf n)
  let s1 := s.updCore n fun c => { c with abortTaken := g.abortSerial }
  match g.tickNow with
  | none => s1
  | some tick =>
    let s2 := if (s1.core n).inSection then s1.abortSection n else s1.updCore n Core.abortIdle
    let x := (s2.core n).next.bind fun _ => sectionFrom s.planEntries n tick (sectionsOf s.planEntries n).length
    (s2.setNext n x).updCore n fun c => if c.tickSeen = some tick then c.setDone n tick else c

/-- CORE_SECTION_ABORT: the abort that its region controller applies reaches core `n` (R51). -/
def execCoreSectionAbort (n : Nat) (s : State) : Out :=
  let c := s.core n
  .next <| if c.abortTaken < (s.region (regionOf n)).abortSerial then s.abortCore n else s

end Sys2Proof.Machine
end

