-- ==== Sys2Proof/Machine/Ticks.lean ====
section
/-!
DEFINITION. The tick unit of H0 (02, 10, 12): commit cuts, TICKs and their sources, local completion with the tick hallmark,
reports, aborts, and the RUN_CMD commands with the plan check.
-/
namespace Sys2Proof.Machine

/-! ### The commit cut of H0 (R57 to R59, R292, R370) -/

/-- The value in force of a TICK field set apart from the last written one. -/
def Regs.setForce (r : Regs) (f : Fld) (v : Nat) : Regs := { r with force := Sparse.set f.rst r.force f.key v }
/-- A TICK field comes into force by itself. -/
def Regs.commitOne (r : Regs) (f : Fld) : Regs := r.setForce f (r.rd f)
/-- The eclipse mask as last written, and in force. -/
def State.eclPending (s : State) : Nat := s.rd MR.ECLIPSE_LO + 2 ^ 32 * s.rd MR.ECLIPSE_HI
/-- See `State.eclPending`. -/
def State.eclForce (s : State) : Nat := s.md.regs.inForce MR.ECLIPSE_LO + 2 ^ 32 * s.md.regs.inForce MR.ECLIPSE_HI
/-- A plan covers some core of a region whose bit of a mask is set. -/
def coversMask (es : List PlanEntry) (mask : Nat) : Bool :=
  (List.range 56).any fun r => mask.testBit r && es.any fun e => e.touches r

/-- The pending PLAN_BASE is discarded: the field shows the base in force again (R59). -/
def State.dropPlanBase (s : State) : State :=
  s.wrs [(MR.PLAN_BASE_LO, s.md.regs.inForce MR.PLAN_BASE_LO), (MR.PLAN_BASE_HI, s.md.regs.inForce MR.PLAN_BASE_HI)]

/-- A plan refused while the module runs on (R59). -/
def State.planRefused (s : State) (code core : Nat) : State :=
  (s.dropPlanBase.wrs [(MR.LOAD_RESULT, code), (MR.LOAD_CORE, core)]).logFault logPlanInvalid 3 0

/-- The pending mask would be discarded under a plan (R370). -/
def State.maskFails (s : State) (es : List PlanEntry) : Bool := decide (s.eclPending ≠ s.eclForce) && coversMask es s.eclPending

/-- The mask in force after a cut under a plan. -/
def State.maskAfter (s : State) (es : List PlanEntry) : Nat := if s.maskFails es then s.eclForce else s.eclPending

/-- The plan in force after the cut: the checked one, unless it covers a region that stays eclipsed although that plan would come into
force (R370; DEDUCED, log 79). -/
def State.planAfter (s : State) : List PlanEntry :=
  match s.md.tu.ready with
  | some p => if coversMask p.entries (s.maskAfter p.entries) then s.planEntries else p.entries
  | none => s.planEntries

/-- The pending eclipse mask checked against the plan that will be in force (R370). -/
def State.eclipseCut (s : State) : State :=
  if s.maskFails s.planAfter then
    s.wrs [(MR.ECLIPSE_LO, s.eclForce), (MR.ECLIPSE_HI, s.eclForce / 2 ^ 32), (MR.ECL_REFUSED, 1)]
  else s

/-- A checked plan comes into force, unless it covers a region eclipsed after the cut (R59, R370, R423). Answers whether a
new plan is in force. -/
def State.planCut (s : State) : State × Bool :=
  match s.md.tu.ready with
  | none => (s, false)
  | some p =>
    let s1 := s.updTu fun t => { t with ready := none }
    if coversMask p.entries s.eclPending then (s1.planRefused loadEclipsed 0, false)
    else ((s1.updTu fun t => { t with plan := some p }).wrBytes MR.PROG_HASH p.hash, true)

/-- Every value but PLAN_BASE's comes into force; PLAN_BASE's is that of the plan in force. -/
def State.regsCut (s : State) (newPlan : Bool) : State :=
  let lo := s.md.regs.inForce MR.PLAN_BASE_LO
  let hi := s.md.regs.inForce MR.PLAN_BASE_HI
  let base := match s.md.tu.plan with | some p => p.base | none => 0
  let cut (r : Regs) : Regs :=
    (r.commit.setForce MR.PLAN_BASE_LO (if newPlan then base % 2 ^ 32 else lo)).setForce MR.PLAN_BASE_HI
      (if newPlan then base / 2 ^ 32 else hi)
  let s1 := s.updMd fun m => { m with regs := cut m.regs }
  { s1 with hubs := s1.hubs.map fun (e : Nat × Hub) => (e.1, { e.2 with regs := e.2.regs.commit }) }

/-- The cut where H0 accepts a TICK: every pending value of the module and the hubs comes into force, with the checked plan;
a new PT_ROOT empties the caches (R57, R58, R292). Answers whether a new plan committed. -/
def State.h0Cut (s : State) : State × Bool :=
  if s.rd MR.COMMIT_HOLD = 1 then (s, false)
  else
    let root := s.ptRoot
    match s.eclipseCut.planCut with
    | (s1, new) =>
      let s2 := s1.regsCut new
      (if s2.ptRoot = root then s2
       else { s2 with hubs := s2.hubs.map fun (e : Nat × Hub) => (e.1, { e.2 with cache := [], walkCache := [] }) }, new)

/-! ### Aborts at H0 (R51, R52, R247) -/

/-- The causes whose abort also halts the module (R52): FLT_THERMAL_TRIP, FLT_THERMAL_SHUTDOWN, FLT_POWER_FAIL, FLT_REF_LOSS. -/
def AbortMsg.halts (a : AbortMsg) : Bool :=
  [logThermalTrip, logThermalShutdown, logPowerFail, logRefLoss].contains a.code

/-- A slot without what a round accumulates. -/
def RedSlot.clear (z : RedSlot) : RedSlot :=
  { z with running := false, eloc := [], exps := [], eblk := [], own := [], parts := [], sums := [], written := [], sent := [],
           unacked := 0, due := [], residDone := [], checks := [] }
/-- A slot becomes ABORTED: its accumulators are discarded (R247). -/
def RedSlot.kill (z : RedSlot) : RedSlot := { z.clear with aborted := true, apart := [] }
/-- A slot in EXP, DATA or CHECK state becomes ABORTED (R247). -/
def RedSlot.abort (z : RedSlot) : RedSlot := if z.running then z.kill else z

/-- The newest tick in progress changed. -/
def updLast (f : ActTick → ActTick) : List ActTick → List ActTick
  | [] => []
  | [a] => [f a]
  | a :: b :: l => a :: updLast f (b :: l)

/-- H0 receives a cause of an abort (R51, R52): it is logged and counts against the newest tick in progress; H0 sends
SECTION_ABORT to every region, and RUN_STATE reads ABORTING. With no tick in progress a halting cause only halts. -/
def State.beginAbort (s : State) (a : AbortMsg) : State :=
  let s1 := s.logFault a.code a.level a.index
  let live := decide (s.runState = rsRunning) || decide (s.runState = rsPreempting)
  if s.md.tu.active = [] then
    if a.halts && live then s1.wr MR.RUN_STATE rsHalted else s1
  else
    let s2 := s1.updTu fun t => { t with active := updLast (fun x => { x with causes := x.causes ++ [a] }) t.active }
    if s.runState = rsAborting then
      s2.updTu fun t => { t with abort := t.abort.map fun b => { b with halts := b.halts || a.halts } }
    else if live then
      let b : Abort := ⟨List.range 56, decide (s.runState = rsPreempting), a.halts, false⟩
      let s3 := ((s2.updTu fun t => { t with abort := some b }).updMd fun m =>
        { m with slots := m.slots.map fun (e : Nat × RedSlot) => (e.1, e.2.abort) }).wr MR.RUN_STATE rsAborting
      (List.range 56).foldl (fun s r => s.toRegion r .abort) s3
    else s2

/-! ### Distribution and acceptance (R46 to R49) -/

/-- A duplicate TICK is discarded and counted. -/
def State.dupTick (s : State) : State := s.countSat MR.DUP_TICK_COUNT MR.DUP_TICK_SAT

/-- TICK goes to the 56 region controllers (R48). -/
def State.distribute (s : State) (m : TickMsg) : State :=
  let s1 := s.wrs [(MR.TICK_NUM_LO, m.tick), (MR.TICK_NUM_HI, m.tick / 2 ^ 32)]
  let s2 := s1.updTu fun t =>
    if t.active.any fun a => decide (a.tick = m.tick) then t else { t with active := t.active ++ [⟨m.tick, [], [], []⟩] }
  (List.range 56).foldl (fun s r => s.toRegion r (.tick m)) s2

/-- An accepted tick's message, after the cut of H0. -/
def State.tickCut (s : State) (tick : Nat) : State × TickMsg :=
  match s.h0Cut with
  | (s1, new) => (s1, ⟨tick, decide (s.rd MR.COMMIT_HOLD = 0), new, 0⟩)

/-- A TICK held back; the expected number goes on. -/
def State.holdTick (s : State) (m : TickMsg) : State :=
  s.updTu fun t => { t with held := t.held ++ [m], expected := m.tick + 1 }

/-- A TICK accepted while RUNNING: distributed, or, while an earlier tick is not locally complete, an overrun (R49). -/
def State.acceptTick (s : State) (tick : Nat) : State :=
  match s.tickCut tick with
  | (s1, m) =>
    if s.md.tu.active = [] then (s1.updTu fun t => { t with expected := tick + 1 }).distribute m
    else ((s1.holdTick m).countSat MR.OVERRUN_COUNT MR.OVERRUN_SAT).beginAbort (.ofModule 0 logTickOverrun)

/-- FLT_TICK_SEQUENCE: the first number out of sequence is recorded, and the fabric manager told: the record is in the log and
FM_NOTICE sets (R46, R439; log 48). -/
def State.seqFault (s : State) (tick : Nat) : State :=
  ((if s.rd MR.SEQ_FAULT = 0 then
    s.wrs [(MR.SEQ_FAULT, 1), (MR.SEQ_GOT_LO, tick), (MR.SEQ_GOT_HI, tick / 2 ^ 32)] else s).logFault logTickSequence 3 0).fmNotice

/-- A TICK taken by its number and by RUN_STATE (R46, R47). -/
def State.takeTick (s : State) (tick : Nat) : State :=
  let t := s.md.tu
  let rs := s.runState
  if rs = rsLoading ∨ (rs = rsHalted ∧ !t.stopped) then s.dupTick
  else if tick < t.expected then s.dupTick
  else if t.expected < tick then s.seqFault tick
  else if rs = rsRunning then s.acceptTick tick
  else if rs = rsAborting then
    match s.tickCut tick with
    | (s1, m) =>
      if t.active ≠ [] ∧ t.held = [] then
        ((s1.holdTick m).countSat MR.OVERRUN_COUNT MR.OVERRUN_SAT).beginAbort (.ofModule 0 logTickOverrun)
      else s1.holdTick m
  else s.holdTick ⟨tick, true, false, 0⟩

/-! ### The group (R327 to R330) -/

/-- TICK_SOURCE is LOCAL. -/
def State.localSource (s : State) : Bool := decide (s.md.regs.inForce MR.TICK_SOURCE = 1)
/-- TICK_MODE is STRICT. -/
def State.strict (s : State) : Bool := decide (s.md.regs.inForce MR.TICK_MODE = 1)
/-- This module is its group's tick master. -/
def State.isMaster (s : State) : Bool := !s.localSource && decide (s.md.regs.inForce MR.GROUP_MASTER = 1)
/-- GROUP_SIZE. -/
def State.groupSize (s : State) : Nat := s.md.regs.inForce MR.GROUP_SIZE_M1 + 1
/-- GROUP_INDEX. -/
def State.groupIndex (s : State) : Nat := s.md.regs.inForce MR.GROUP_INDEX
/-- TICK_PERIOD, clamped (R49). -/
def State.tickPeriod (s : State) : Nat := clampTo 10000 1000000000 (s.md.regs.inForce MR.TICK_PERIOD)

/-- The nodes of the other members of the group. -/
def State.otherMembers (s : State) : List Nat :=
  (List.range (s.rd MR.NODE_COUNT)).filter fun n =>
    match s.node n with | some e => e.member && decide (e.index ≠ s.groupIndex) | none => false

/-- The master makes a tick: it sends TICK to every other member and accepts it itself (R327). -/
def State.masterTick (s : State) (tick : Nat) : State :=
  if s.runState = rsLoading ∨ (s.runState = rsHalted ∧ !s.md.tu.stopped) then s
  else
    let body := leBytes 8 tick ++ leBytes 4 (if s.strict then s.tickPeriod else 0) ++ leBytes 4 0
    (s.otherMembers.foldl (fun s n => s.send 0 n 0 ⟨3, 0, 0, body, none⟩) s).takeTick tick

/-- The LATE record and its count (R329, R330). -/
def State.noteLate (s : State) (self : Bool) (member tick elapsed : Nat) : State :=
  let s1 := s.countSat MR.REPORTS_LATE MR.LATE_SAT
  if s1.rd MR.LATE_VALID = 0 then
    s1.wrs [(MR.LATE_VALID, 1), (MR.LATE_SELF, b2n self), (MR.LATE_MEMBER, member), (MR.LATE_TICK, tick),
            (MR.LATE_ELAPSED_NS, elapsed)]
  else s1

/-- REPORT_WINDOW_NS, clamped. -/
def State.reportWindow (s : State) : Nat := clampTo 1000 20000 (s.md.regs.inForce MR.REPORT_WINDOW_NS)

/-- The master accepts the first report of a member and tick, and posts its group events (R329). -/
def State.acceptReport (s : State) (member tick elapsed outcome : Nat) : State :=
  if s.md.reports.contains (tick, member) then s
  else
    let node := (s.memberNode member).getD 0
    let s1 := s.updMd fun m => { m with reports := m.reports ++ [(tick, member)] }
    let s2 := if s.reportWindow < elapsed then
      (s1.noteLate false member tick elapsed).postEvent (groupEvent 1 member elapsed tick node outcome) else s1
    (if outcome ≠ 0 then s2.postEvent (groupEvent 3 member elapsed tick node outcome) else s2).ringRun

/-- Under STRETCH the master makes the next tick when every member's report of the last one is accepted (R327). -/
def State.masterLook (s : State) (tick : Nat) : State :=
  if s.isMaster && !s.strict && decide (s.md.tu.expected = tick + 1) &&
      (List.range s.groupSize).all (fun m => s.md.reports.contains (tick, m)) then s.masterTick (tick + 1) else s

/-- The tick report of `tick`: two copies to the master, or the master's own, accepted internally together with those of
members declared lost (R328, R408). -/
def State.sendReport (s : State) (tick outcome region : Nat) (chained : Bool) : State :=
  let s1 := s.updMd fun m => { m with reportDue := m.reportDue ++ [(tick, false)],
                                      reportAt := Sparse.put (m.reportAt.filter fun e => s.reportHeld e.1) tick s.now }
  let body (copy : Nat) : List Byte :=
    leBytes 8 tick ++ leBytes 1 outcome ++ leBytes 1 copy ++ leBytes 2 0 ++ leBytes 4 0 ++ s.rdBytes MR.TICK_HM 8 ++
      leBytes 1 region ++ leBytes 1 (b2n chained) ++ List.replicate 14 0
  let node := s.md.regs.inForce MR.MASTER_NODE
  if s.localSource then s
  else if s.isMaster then
    let s2 := s.acceptReport s.groupIndex tick 0 outcome
    s.md.lostMembers.foldl (fun s m => s.acceptReport m tick 0 1) s2
  else (s1.send 0 node 0 ⟨4, 0, 0, body 0, none⟩).send 0 node 1 ⟨4, 0, 0, body 1, none⟩

/-! ### Local completion (R48, R270 to R274) -/

/-- OUTCOME of a tick that is complete (R49, R51). -/
def ActTick.outcome (a : ActTick) (strict : Bool) : Nat :=
  if a.causes = [] then 0
  else if strict && a.causes.all fun c => decide (c.code = logTickOverrun) then 2
  else 1

/-- What the regions report at tick end (R54, R111, R193): log records, and what they counted. -/
def State.tickEnd (s : State) : State :=
  (List.range 56).foldl (fun s r =>
    let g := s.region r
    let note (b : Bool) (code : Nat) (s : State) : State := if b then s.logRec 6 code 0 1 r 0 else s
    let s1 := note g.lateSeen logEpochLate (note g.bzClosedSeen logBezelClosed (note g.chanClosedSeen logChanClosed s))
    if g.lateSeen || g.bzClosedSeen || g.chanClosedSeen || decide (g.sunk ≠ 0) then
      s1.updRegion r fun g =>
        { g with regs := if g.sunk = 0 then g.regs else g.regs.countSat RR.SUNK_TICK RR.SUNK_TICK_SAT g.sunk,
                 sunk := 0, lateSeen := false, bzClosedSeen := false, chanClosedSeen := false }
    else s1) s

/-- The tick hallmark of R270. -/
def tickHallmark (tick : Nat) (hs : Sparse Nat) : List Byte :=
  shake256 (leBytes 8 tick ++ (List.range 56).flatMap fun r => leBytes 8 (Sparse.get 0 hs r)) 32

/-- The hallmark log record of R273, its TICK last. -/
def State.hmLog (s : State) (a : ActTick) (outcome region : Nat) (chained : Bool) : State :=
  if s.md.regs.inForce MR.HM_LOG_EN = 0 then s
  else
    let order := min 20 (s.md.regs.inForce MR.HM_LOG_ORDER)
    let at_ := s.md.regs.inForce MR.HM_LOG_BASE_LO / 64 * 64 + 2 ^ 32 * s.md.regs.inForce MR.HM_LOG_BASE_HI +
      a.tick % 2 ^ order * 0x240
    let rest := leBytes 1 outcome ++ leBytes 1 (b2n chained) ++ leBytes 1 region ++ List.replicate 5 0 ++
      s.rdBytes MR.TICK_HM 8 ++ s.rdBytes MR.HM_HEAD 8 ++
      ((List.range 56).flatMap fun r => leBytes 8 (Sparse.get 0 a.hallmarks r)) ++ List.replicate 48 0
    ((s.mpWrite (at_ + 8) rest).2.mpWrite at_ (leBytes 8 a.tick)).2

/-- The registers of the hallmark and the outcome of a complete tick (R270, R271, R61). -/
def State.recordTick (s : State) (a : ActTick) (outcome region : Nat) : State :=
  let th := tickHallmark a.tick a.hallmarks
  let seen (f : Region → Bool) : Nat := b2n ((List.range 56).any fun r => f (s.region r))
  let s1 := (s.wrBytes MR.TICK_HM th).wrs
    [(MR.HM_TICK_LO, a.tick), (MR.HM_TICK_HI, a.tick / 2 ^ 32), (MR.LAST_CHAINED, b2n (outcome = 0)), (MR.OUTCOME, outcome),
     (MR.FAULT_REGION, region), (MR.EPOCH_RESIDUE_SEEN, b2n (a.causes.any fun c => decide (c.code = fltEpochResidue))),
     (MR.EPOCH_LATE_SEEN, seen Region.lateSeen), (MR.CHAN_CLOSED_SEEN, seen Region.chanClosedSeen)]
  if outcome = 0 then s1.wrBytes MR.HM_HEAD (shake256 (s.rdBytes MR.HM_HEAD 8 ++ th) 32) else s1

/-- STOP_TICK, while STOP_EN is 1. -/
def State.stopTick (s : State) : Option Nat :=
  if s.rd MR.STOP_EN = 1 then some (s.rd MR.STOP_TICK_LO + 2 ^ 32 * s.rd MR.STOP_TICK_HI) else none

/-- The module stops at STOP_TICK (R274); during an abort the stop follows it. A tick aborted by a cause that itself halts the module
leaves nothing to resume (R373, R438). -/
def State.stopAt (s : State) (tick : Nat) (halting : Bool) : State :=
  if halting then s.wr MR.STOP_HIT 1
  else
    let s1 := (s.wrs [(MR.STOP_HIT, 1), (MR.RESUME_VALID, 1)]).updTu fun t =>
      { t with stopped := true, resume := tick + 1, abort := t.abort.map fun b => { b with halts := true } }
    if s.runState = rsAborting then s1 else s1.wr MR.RUN_STATE rsHalted

/-- The oldest tick in progress is complete when H0 holds REGION_DONE of all 56 regions (R48), but not while the module is
halted in it (R271). A region found FAILED makes the module FAILED now (R399). -/
def State.complete1 (s : State) : Option State :=
  match s.md.tu.active with
  | [] => none
  | a :: l =>
    if a.done.length < 56 ∨ (s.runState = rsHalted ∧ s.rd MR.RESUME_VALID = 1) then none
    else
      let outcome := a.outcome s.strict
      let region := match a.causes with | c :: _ => c.region | [] => 63
      let s1 := (s.updTu fun t => { t with active := l }).recordTick a outcome region
      let s1 := if s.md.boot.dead then (s1.wr MR.MOD_STATE 3).sendStatus else s1
      let s2 := (s1.tickEnd.hmLog a outcome region (outcome = 0)).sendReport a.tick outcome region (outcome = 0)
      if s.stopTick = some a.tick then some ((s2.stopAt a.tick (a.causes.any AbortMsg.halts)).masterLook a.tick)
      else if s.localSource && !s.strict && decide (s.runState ≠ rsHalted) && decide (l = []) then some (s2.takeTick s2.md.tu.expected)
      else some (s2.masterLook a.tick)

/-- Ticks that are complete are completed, the oldest first. -/
def State.complete (s : State) : Nat → State
  | 0 => s
  | k + 1 => match s.complete1 with | some s1 => s1.complete k | none => s

/-- H0 takes every SECTION_ABORT that has come to it, the oldest first (R51). -/
def State.takeCauses (s : State) : State := s.md.tu.inbox.foldl State.beginAbort (s.updTu fun t => { t with inbox := [] })

/-- The ticks of which H0 holds every REGION_DONE are completed. A SECTION_ABORT came before the REGION_DONE that was sent after it,
so H0 takes the causes that have come to it first, and the tick completes as FAULTED (R51; DEDUCED, log 76). -/
def State.completeAll (s : State) : State :=
  let full : Bool := match s.md.tu.active with | a :: _ => decide (56 ≤ a.done.length) | [] => false
  (if full then s.takeCauses else s).complete (s.md.tu.active.length + 1)

/-- REGION_DONE: H0 receives the REGION_DONE of region `r`; with all 56 held the tick is locally complete (R48). What waits at the region's
router enters the mesh first, or takes its detour (R27). -/
def execRegionDone (r : Nat) (s0 : State) : Out :=
  let s := s0.enter (controllerCore r)
  .next <| match (s.region r).doneOut with
  | [] => s
  | (tick, hm) :: l =>
    let note (a : ActTick) : ActTick :=
      if a.tick = tick ∧ !a.done.contains r then { a with done := a.done ++ [r], hallmarks := Sparse.set 0 a.hallmarks r hm } else a
    ((s.updRegion r fun g => { g with doneOut := l }).updTu fun t => { t with active := t.active.map note }).completeAll

/-! ### Sources of TICK (R46, R49, R327) -/

/-- The oldest delivered message of a hub that is not behind another of its flow, taken out, if a test names it. -/
def State.takeMsg (s : State) (h i : Nat) (ok : RxMsg → Bool) : Option (RxMsg × State) :=
  let ms := (s.hub h).msgs
  match ms[i]? with
  | none => none
  | some m =>
    if ok m && !(ms.take i).any (fun x => decide (x.node = m.node) && decide (x.flow = m.flow)) then
      some (m, s.updHub h fun u => { u with msgs := u.msgs.eraseIdx i })
    else none

/-- RYUDON_TICK: message `i` delivered at hub `h` is a TICK. It counts as a duplicate on another port than TICK_PORT, and under
TICK_SOURCE = LOCAL on any (R46). -/
def execRyudonTick (h i : Nat) (s : State) : Out :=
  .next <| match s.takeMsg h i fun m => decide (m.typ = 3) with
  | none => s
  | some (m, s1) =>
    if s.localSource || decide (m.port ≠ s.tickPort) then s1.dupTick else s1.takeTick (leNat (m.body.take 8))

/-- LOCAL_TICK_TIMER: under LOCAL and STRICT, TICK_PERIOD has passed since the tick before (R49). -/
def execLocalTickTimer (s : State) : Out :=
  .next <|
    if s.localSource && s.strict && decide (s.runState ≠ rsHalted) && decide (s.runState ≠ rsLoading) then
      s.takeTick s.md.tu.expected
    else s

/-- GROUP_TICK_TIMER: the master under STRICT makes its next tick (R327). -/
def execGroupTickTimer (s : State) : Out :=
  .next <|
    if s.isMaster && s.strict && decide (s.runState ≠ rsHalted) then s.masterTick s.md.tu.expected else s

/-- TICK_WATCHDOG_EXPIRY: under STRETCH the tick in progress has lasted MOD_WDOG_MS (R50, R400). -/
def execTickWatchdogExpiry (s : State) : Out :=
  .next <|
    if s.md.tu.active ≠ [] ∧ !s.strict ∧ (s.runState = rsRunning ∨ s.runState = rsPreempting ∨ s.runState = rsAborting) then
      s.beginAbort (.ofModule 0 logTickWatchdog)
    else s

/-! ### The end of an abort (R52) -/

/-- The SECTION_ABORTs of regions whose path to H0 is cut come to it over their dedicated lines (R27). -/
def State.detours (s : State) : State :=
  (List.range 56).foldl (fun s r => if regionCut s.md.remap 0 r && decide ((s.region r).ctrlOut ≠ []) then s.enter (controllerCore r) else s) s

/-- SECTION_ABORT: H0 takes the oldest SECTION_ABORT that has come to it (R51). -/
def execSectionAbort (s0 : State) : Out :=
  let s := s0.detours
  .next <| match s.md.tu.inbox with
  | [] => s
  | a :: l => ((s.updTu fun t => { t with inbox := l }).beginAbort a)

/-- PREEMPT carried out (R61). -/
def State.preempt (s : State) : State := (s.wr MR.RUN_STATE rsPreempting).preemptHalt

/-- Every region has reported: the state returns to the one it left, or becomes HALTED, where a TICK held in the abort is discarded and
counted as a duplicate (log 78). Back in RUNNING, the held TICKs are distributed, except those that follow STOP_TICK before it is
complete, and a held PREEMPT is carried out (R47, R49, R52, R274). -/
def State.leaveAborting (s : State) (b : Abort) : State :=
  let t := s.md.tu
  let s1 := s.updTu fun t => { t with abort := none }
  if b.halts then
    let s2 := s1.wr MR.RUN_STATE rsHalted
    if t.stopped then s2 else (t.held.foldl (fun s _ => s.dupTick) s2).updTu fun t => { t with held := [] }
  else if b.preempting then (s1.wr MR.RUN_STATE rsPreempting).preemptHalt
  else
    let s2 := s1.wr MR.RUN_STATE rsRunning
    let s3 := match (if t.active.any fun a => decide (s.stopTick = some a.tick) then [] else t.held) with
      | [] => s2
      | m :: l =>
        let s3 := (s2.updTu fun t => { t with held := l }).distribute m
        if l = [] then s3
        else (s3.countSat MR.OVERRUN_COUNT MR.OVERRUN_SAT).beginAbort (.ofModule 0 logTickOverrun)
    if !b.heldPreempt then s3
    else if s3.runState = rsRunning then s3.preempt
    else s3.updTu fun t => { t with abort := t.abort.map fun b => { b with heldPreempt := true } }

/-- The abort has reached every core of a region that can answer, and none of its cores is in reset (R52, R401). -/
def State.abortReached (s : State) (r : Nat) : Bool :=
  s.cores.all (fun e => decide (regionOf e.1 ≠ r) || e.2.lost || e.2.gated ||
    decide ((s.region r).abortSerial ≤ e.2.abortTaken)) &&
    !(s.md.boot.held.any fun x => decide (x.1 = 0) && decide (regionOf x.2 = r))

/-- Region `r` has reported; with the last region the state leaves ABORTING (R52). -/
def State.abortReported (s : State) (r : Nat) : State :=
  match s.md.tu.abort with
  | none => s
  | some b =>
    let b1 := { b with unreported := b.unreported.filter (· ≠ r) }
    if b1.unreported = [] then s.leaveAborting b1 else s.updTu fun t => { t with abort := some b1 }

/-- ABORT_APPLIED_REPORT: region `r` reports the abort applied at each of its cores (R52). -/
def execAbortAppliedReport (r : Nat) (s : State) : Out :=
  let g := s.region r
  .next <|
    if g.rd RR.ABORTING = 1 && !g.abortIn && s.abortReached r && !s.inReset 1 r then
      (s.updRegion r fun g => g.wr RR.ABORTING 0).abortReported r
    else s

/-! ### RUN_CMD (R61) -/

/-- START while the plan in force covers a region whose bit is set in the pending mask (R370). -/
def State.eclConflict (s : State) : Bool := coversMask s.planEntries s.eclPending

/-- Every core, region and the tick unit at the start of a run that resumes nothing. Control messages of the run before that are still on
their way are dropped (log 80). -/
def State.freshRun (s : State) : State :=
  let core (e : Nat × Core) : Nat × Core :=
    let g := s.region (regionOf e.1)
    (e.1, { e.2 with next := none, tickSeen := none, tickTaken := g.tickCount, cutDue := false, doneFor := none,
                     doneOut := [], ctrlOut := [], abortTaken := g.abortSerial, sec := if e.2.sec = .aborted then .idle else e.2.sec })
  let region (e : Nat × Region) : Nat × Region :=
    (e.1, { e.2 with tickIn := [], ticks := [], tickNow := none, dones := [], doneOut := [], abortIn := false, ctrlGen := e.2.ctrlGen + 1,
                     ctrlOut := e.2.ctrlOut.filter fun m => match m.body with | .regionDone _ _ => false | _ => true })
  let s1 := { s with cores := s.cores.map core, regions := s.regions.map region }
  s1.updTu fun t =>
    { t with active := [], held := [], abort := none, stopped := false }

/-- The first section of every core that the plan covers becomes its next section (R443). -/
def State.firstSections (s : State) (tick : Nat) : State :=
  let es := s.planEntries
  (planCores es).foldl (fun s n =>
    if (s.core n).next.isSome then s else s.setNext n (sectionFrom es n tick 0)) s

/-- The TICK registers that come into force at START (R57). -/
def State.startRegs (s : State) : State :=
  let cut (r : Regs) : Regs :=
    (((r.commitOne MR.TICK_SOURCE).commitOne MR.TICK_MODE).commitOne MR.TICK_PORT).commitOne MR.TICK_PERIOD
  s.updMd fun m => { m with regs := cut m.regs }

/-- Parked context loads go on, and each core decides the load of its next section (R40, R305). -/
def State.unpark (s : State) : State :=
  s.cores.foldl (fun (s : State) (e : Nat × Core) =>
    match (s.core e.1).dma.ctx with
    | some _ => (s.updCore e.1 fun c => c.updDma fun d =>
        { d with ctx := d.ctx.map fun x => { x with parked := false } }).shareRun e.1 32
    | none => s.decideLoad e.1) s

/-- START resumes a tick (R47, R62, R274). A TICK held at the stop is the resumed one; one that was accepted after it meets a tick that
is not complete, as in R49. -/
def State.resumeRun (s : State) : State :=
  let tick := s.md.tu.resume
  let later := s.md.tu.held.filter fun m => decide (tick < m.tick)
  let s1 := (s.wrs [(MR.RESUME_VALID, 0), (MR.RUN_STATE, rsRunning)]).updTu fun t =>
    { t with stopped := false, expected := tick + 1 + later.length, held := later }
  match s1.unpark.tickCut tick with
  | (s2, m) =>
    let s3 := s2.distribute m
    if later = [] then s3.completeAll
    else (s3.countSat MR.OVERRUN_COUNT MR.OVERRUN_SAT).beginAbort (.ofModule 0 logTickOverrun)

/-- START runs from START_TICK (R46, R271). -/
def State.newRun (s : State) : State :=
  let tick := s.rd MR.START_TICK_LO + 2 ^ 32 * s.rd MR.START_TICK_HI
  let s1 := (((s.freshRun.parkLoads false).updMd fun m => { m with reports := [], missing := [] }).wrBytes MR.HM_HEAD
    (s.rdBytes MR.HM_CHAIN_INIT 8)).wr MR.RUN_STATE rsRunning
  let s2 := (s1.updTu fun t => { t with expected := tick }).firstSections tick
  if s2.strict then s2
  else if s2.localSource then s2.takeTick tick
  else if s2.isMaster then s2.masterTick tick
  else s2

/-- RUN_CMD = START. -/
def State.cmdStart (s : State) : State :=
  if s.runState ≠ rsHalted ∨ !s.md.tu.loaded ∨ !s.isReady then s.ignoreCmd
  else if s.eclConflict then (s.wr MR.ECL_CONFLICT 1).ignoreCmd
  else if s.rd MR.RESUME_VALID = 1 then s.startRegs.resumeRun
  else s.startRegs.newRun

/-- RUN_CMD = PREEMPT; held while ABORTING (R52). -/
def State.cmdPreempt (s : State) : State :=
  if !s.isReady then s.ignoreCmd
  else if s.runState = rsRunning then s.preempt
  else
    match (if s.runState = rsAborting then s.md.tu.abort else none) with
    | some b => if b.preempting then s.ignoreCmd else s.updTu fun t => { t with abort := some { b with heldPreempt := true } }
    | none => s.ignoreCmd

/-- RUN_CMD = LOAD: LOADING; RESUME_VALID clears, context loads are discarded and the hallmark state returns to zero (R62, R266,
R305). A plan check under way ends: the LOAD makes it. -/
def State.cmdLoad (s : State) : State :=
  if s.runState ≠ rsHalted ∨ !s.isReady then s.ignoreCmd
  else
    let s1 := s.wrs [(MR.RUN_STATE, rsLoading), (MR.LOAD_RESULT, 1), (MR.RESUME_VALID, 0)]
    let s2 := { s1 with cores := s1.cores.map fun (e : Nat × Core) => (e.1, e.2.dropCtx.clearHm) }
    s2.updMd fun m =>
      { m with lostMembers := [], tu := { m.tu with stopped := false, held := [], active := [], checking := none } }

/-- RUN_CMD written; while the reference is lost every command is ignored (R438). -/
def State.runCmd (s : State) (v : Nat) : State :=
  match (if s.md.pw.refLost ∧ v ≠ 0 then 4 else v) with
  | 0 => s
  | 4 => s.ignoreCmd
  | 1 => s.cmdStart
  | 2 => s.cmdPreempt
  | _ => s.cmdLoad

/-- LOAD: RUN_CMD = LOAD (R61). -/
def execLoad (s : State) : Out := .next (s.runCmd 3)
/-- START: RUN_CMD = START (R61). -/
def execStart (s : State) : Out := .next (s.runCmd 1)
/-- PREEMPT: RUN_CMD = PREEMPT (R61). -/
def execPreempt (s : State) : Out := .next (s.runCmd 2)

/-! ### The remap and the end of a LOAD (R25, R61) -/

/-- Where the state of a logical core goes when the remap changes: to the logical core that its physical core becomes. -/
def movedTo (old new : List Phys) (n : Nat) : Option Nat :=
  (physCol old n).bind fun c => logicalAt new ⟨regionOf n, coreY n % 72, c⟩

/-- The pending remap comes into force (R25). -/
def State.remapNow (s : State) : State :=
  let old := s.md.remap
  let new := s.pendingRemap
  let s1 := (s.updMd fun m => { m with remap := new }).wr MR.MOD_REMAP_GEN (s.rd MR.MOD_REMAP_GEN + 1)
  if old = new then s1
  else
    let deg := s.degraded
    let move (m : Sparse Core) (e : Nat × Core) : Sparse Core :=
      match movedTo old new e.1 with | some k => Sparse.put m k e.2 | none => m
    let s2 := { s1 with cores := s.cores.foldl move [] }
    if s2.degraded = deg then s2 else s2.sendStatus

/-- PROG_BASE. -/
def State.progBase (s : State) : Nat := s.rd MR.PROG_BASE_LO + 2 ^ 32 * s.rd MR.PROG_BASE_HI

/-- The image header at PROG_BASE followed by the areas that it names, as HBM holds them (R423, log 45). -/
def State.imageBytes (s : State) : List Byte :=
  let head := s.hbmPeek s.progBase Config.imageLen
  head ++ (Config.imageAreas head).flatMap fun a => s.hbmPeek a.1 a.2

/-- LOAD_COMPLETE: the MP has read the image header at PROG_BASE and checked the plan under the pending remap; a plan that passes is
loaded and the remap comes into force, PLAN_BASE with it, and PROG_HASH is that of the image (R25, R26, R45, R61, R423). LOAD_CORE of a
refusal that names no core is zero (log 75). -/
def execLoadComplete (s : State) : Out :=
  .next <|
    if s.runState ≠ rsLoading ∨ !s.isReady then s
    else
      match (if hbmSize ≤ s.progBase then s.agentFault none s.progBase else s).checkPlan s.pendingRemap s.planBase with
      | (.refused code core, s1) => s1.wrs [(MR.LOAD_RESULT, code), (MR.LOAD_CORE, core), (MR.RUN_STATE, rsHalted)]
      | (.ok p, s1) =>
        let s2 := (s1.wrBytes MR.PROG_HASH (shake256 s.imageBytes 32)).remapNow
        let s3 := { s2 with cores := s2.cores.map fun (e : Nat × Core) => (e.1, { e.2 with next := none }) }
        let base (r : Regs) : Regs := (r.setForce MR.PLAN_BASE_LO (p.base % 2 ^ 32)).setForce MR.PLAN_BASE_HI (p.base / 2 ^ 32)
        let s4 := s3.updMd fun m =>
          { m with regs := base m.regs, tu := { m.tu with plan := some p, loaded := true, checking := none, ready := none } }
        s4.wrs [(MR.LOAD_RESULT, 0), (MR.RUN_STATE, rsHalted)]

/-! ### Plan changes (R59) -/

/-- PLAN_BASE_WRITE: a write of PLAN_BASE_LO, or of PLAN_BASE_HI, starts the MP's check of the plan; an earlier plan that waits
for its cut is replaced (R12, R59). -/
def State.planBaseWrite (s : State) (hi : Bool) (v : Nat) : State :=
  let s1 := s.wr (if hi then MR.PLAN_BASE_HI else MR.PLAN_BASE_LO) v
  s1.updTu fun t => { t with checking := some s1.planBase, ready := none }

/-- See `State.planBaseWrite`. -/
def execPlanBaseWrite (hi : Bool) (v : BitVec 32) (s : State) : Out := .next (s.planBaseWrite hi v.toNat)

/-- PLAN_CHECK_DONE: the MP's check ends; the plan waits for its cut, or is discarded (R45, R59). -/
def execPlanCheckDone (s : State) : Out :=
  .next <| match s.md.tu.checking with
  | none => s
  | some base =>
    let s1 := s.updTu fun t => { t with checking := none }
    match s1.checkPlan s.md.remap base with
    | (.ok p, s2) => (s2.updTu fun t => { t with ready := some p }).wr MR.LOAD_RESULT 0
    | (.refused code core, s2) => s2.planRefused code core

end Sys2Proof.Machine
end

