-- ==== Sys2Proof/Machine/Reduction.lean ====
section
/-!
DEFINITION. Aligned-integer reduction (09): jobs and their descriptors, records, rounds, the sampled check, thinning, and
gathering.
-/
namespace Sys2Proof.Machine

/-! ### The arithmetic (R232 to R235) -/

/-- An exponent EMPTY (R232). -/
def expEmpty : Int := -32768
/-- The block exponent of a list of values. -/
def blockExp (xs : List FV) : Int :=
  xs.foldl (fun m x => match x with | .fin _ k _ => if k = 0 then m else max m x.log2 | _ => m) expEmpty
/-- W of a job. -/
def Job.width (j : Job) : Int := if j.w48 then 48 else 32
/-- A value of a contribution as a lane aligned to `e` (R233, R235). -/
def alignLane (w e : Int) (x : FV) : AirLane :=
  match x with
  | .nan => ⟨3, 0⟩
  | .inf neg => ⟨if neg then 2 else 1, 0⟩
  | .fin _ k _ =>
    if k = 0 ∨ e = expEmpty then ⟨0, 0⟩ else ⟨0, (x.truncTo (e - w + 2)).atExp (e - w + 2)⟩
/-- Lanes combined: the exact sum, the state, and whether two infinities made the NaN (R235). -/
def combineLanes (l : List AirLane) : AirLane × Bool :=
  let has (k : Nat) : Bool := l.any fun a => decide (a.st = k)
  let clash := has 1 && has 2
  (⟨if has 3 || clash then 3 else if has 1 then 1 else if has 2 then 2 else 0, l.foldl (fun n a => n + a.sum) 0⟩,
   clash && !has 3)
/-- The 64 lanes of several contributions combined, and the NaNs made. -/
def combineBlock (cs : List (List AirLane)) : List AirLane × Nat :=
  let r := (List.range 64).map fun i => combineLanes (cs.map fun c => nth ⟨0, 0⟩ c i)
  (r.map (·.1), (r.filter (·.2)).length)
/-- The value of a lane (R234, R235). -/
def AirLane.value (a : AirLane) (w e : Int) : FV :=
  match a.st with
  | 0 => FV.ofInt a.sum (e - w + 2)
  | 1 => .inf false
  | 2 => .inf true
  | _ => .nan
/-- A lane rounded once to its format. -/
def AirLane.round (a : AirLane) (f : Fmt) (w e : Int) : Nat × Events := roundTo f .rne false true (a.value w e)

/-! ### Jobs (R237, R238, R241) -/

/-- Bytes of a block of a contribution, and of a reduced block. -/
def Job.inBytes (j : Job) : Nat := if j.inBf then 128 else 256
/-- See `Job.inBytes`. -/
def Job.outBytes (j : Job) : Nat := if j.outBf then 128 else 256
/-- The processing hub of a block (R241). -/
def Job.procHub (j : Job) (b : Nat) : Nat := if j.inBf && !j.gather then b / 2 % 4 else b % 4
/-- The owner of a block: the member whose shard holds it (R237). -/
def Job.owner (j : Job) (b : Nat) : Nat := (j.starts.filter fun a => decide (a ≤ b)).length - 1
/-- The first block of a member's shard. -/
def Job.shardStart (j : Job) (m : Nat) : Nat := nth j.blocks j.starts m
/-- Blocks of this module's shard. -/
def Job.shardSize (j : Job) : Nat := j.shardStart (j.self + 1) - j.shardStart j.self
/-- The flow of the records of block or chunk `b` from a hub (R319). -/
def redFlow (h b : Nat) : Nat := 64 + 16 * h + b / 4 % 16
/-- Where the reduced block `b` goes in round `r` (R255). -/
def Job.outAt (j : Job) (r b : Nat) : Nat :=
  (j.out + (b - j.shardStart j.self) * j.outBytes + if j.pingpong then (r + 1) % 2 * j.pp else 0) % 2 ^ 48
/-- Where granule `b` lies in round `r` (R256). -/
def Job.granuleAt (j : Job) (r b : Nat) : Nat := (j.out + 256 * b + if j.pingpong then (r + 1) % 2 * j.pp else 0) % 2 ^ 48
/-- Where the residual of block `b` is read in round `r`; it is written where round `r` + 1 reads it (R254). -/
def Job.residAt (j : Job) (r b : Nat) : Nat := (j.resid + r % 2 * j.pp + 256 * b) % 2 ^ 48

/-- A descriptor's fields, its member table apart. -/
def Job.ofBytes (b : List Byte) : Job :=
  let n (a len : Nat) : Nat := leNat ((b.drop a).take len)
  let f := n 8 2
  { jobId := n 4 2, gather := decide (n 6 1 = 2), gen := n 7 1, w48 := f.testBit 0, inBf := f.testBit 1, outBf := f.testBit 2,
    thin := f.testBit 3, pingpong := f.testBit 4, thinK := bits f 15 8, nlocal := n 0xA 1, checkLog2 := n 0xB 1,
    members := n 0xC 2, self := n 0xE 2, blocks := n 0x10 4, total := n 0x14 4, firstRound := n 0x18 2, lease := n 0x1C 4,
    contrib := n 0x20 8, stride := n 0x28 8, out := n 0x30 8, resid := n 0x38 8, pp := n 0x40 8, checkCore := n 0x58 4,
    checkQ := n 0x5C 1, doneQ := n 0x5D 1, doneThread := n 0x5E 1, doneCore := n 0x60 4, starts := [], nodes := [] }

/-- BAD_FORMAT of a descriptor, its shard starts apart (R238). Values outside the ranges that R237 gives count as well. -/
def jobFormatBad (b : List Byte) : Bool :=
  let n (a len : Nat) : Nat := leNat ((b.drop a).take len)
  let j := Job.ofBytes b
  decide (n 0 4 ≠ 0x4A524941) || decide (n 6 1 ≠ 1 ∧ n 6 1 ≠ 2) || decide (bits (n 8 2) 7 5 ≠ 0) || decide (n 0x1A 2 ≠ 0) ||
    decide (n 0x5F 1 ≠ 0) || decide (n 0x64 28 ≠ 0) || decide (j.members ≤ j.self) || (j.thin && j.gather) ||
    (j.thin && (decide (j.thinK < 8) || decide (128 < j.thinK))) || decide (j.members = 0) || decide (1024 < j.members) ||
    decide (j.blocks = 0) || decide (2 ^ 24 < j.blocks) || (!j.gather && decide (j.nlocal = 0)) || decide (15 < j.checkLog2) ||
    decide (31 < j.checkQ) || decide (31 < j.doneQ) || decide (7 < j.doneThread) ||
    [0x20, 0x28, 0x30, 0x38, 0x40, 0x48, 0x50].any fun a => decide (2 ^ 48 ≤ n a 8)

/-- BAD_FORMAT of the member table: a start that is not 0 first or decreases, a reserved byte that is not zero (R238). -/
def tableBad (blocks : Nat) (starts : List Nat) (t : List Byte) : Bool :=
  decide (starts.head? ≠ some 0) || ((starts ++ [blocks]).zip (starts.drop 1 ++ [blocks])).any (fun p => decide (p.2 < p.1)) ||
    (List.range starts.length).any fun m => decide (leNat ((t.drop (16 * m + 8)).take 8) ≠ 0)

/-- The areas of a job that must lie in mapped HBM (R238). -/
def Job.areas (j : Job) (work : Nat) : List (Nat × Nat) :=
  let two (a len : Nat) : List (Nat × Nat) := [(a, len), (a + j.pp, len)]
  let both (a len : Nat) : List (Nat × Nat) := if j.pingpong then two a len else [(a, len)]
  (work, 2048 * j.blocks) ::
    (if j.gather then both j.out (256 * j.blocks)
     else (List.range j.nlocal).map (fun c => (j.contrib + c * j.stride, j.blocks * j.inBytes)) ++
       both j.out (j.shardSize * j.outBytes) ++ (if j.thin then two j.resid (256 * j.blocks) else []))

/-- A range of pages lies wholly in mapped HBM. -/
def State.mapped (s : State) (a len : Nat) : Bool × State :=
  if len = 0 then (true, s)
  else
    (List.range ((a + len - 1) / 2 ^ 16 + 1 - a / 2 ^ 16)).foldl (fun r i =>
      if !r.1 then r
      else match r.2.mpTrans ((a / 2 ^ 16 + i) * 2 ^ 16) with
        | (.ok _ _, s1) => (true, s1)
        | (_, s1) => (false, s1)) (true, s)

/-- LIMIT (R238). -/
def Job.overLimit (j : Job) : Bool :=
  decide (2 ^ (64 - j.width.toNat) < j.total) || decide (j.total < j.nlocal + b2n j.thin) ||
    (j.thin && j.starts.any fun a => decide (a % 16 ≠ 0))

/-- A fresh slot for a job. -/
def RedSlot.load (j : Job) : RedSlot :=
  { job := j, running := false, aborted := false, round := j.firstRound, eloc := [], exps := [], eblk := [], own := [],
    parts := [], sums := [], written := [], sent := [], unacked := 0, due := [], residDone := [], checks := [], nextCheck := 0,
    returned := 0, apart := [] }

/-- The check of a descriptor (R238): the job, or the refusal code. -/
def State.checkJob (s : State) (slot : Nat) : Except Nat Job × State :=
  let desc := (s.hub 0).rd HR.JOB_DESC_LO / 64 * 64 + 2 ^ 32 * (s.hub 0).rd HR.JOB_DESC_HI
  match s.vRead desc 128 false with
  | (.ok b, s1) =>
    if jobFormatBad b then (.error 3, s1)
    else
      let j0 := Job.ofBytes b
      match s1.vRead (leNat ((b.drop 0x50).take 8)) (16 * j0.members) false with
      | (.ok t, s2) =>
        let word (m a : Nat) : Nat := leNat ((t.drop (16 * m + a)).take 4)
        let j := { j0 with starts := (List.range j0.members).map fun m => word m 0,
                           nodes := (List.range j0.members).map fun m => word m 4 }
        let work := leNat ((b.drop 0x48).take 8)
        if tableBad j.blocks j.starts t then (.error 3, s2)
        else if [j.contrib, j.stride, j.out, j.resid, j.pp].any (fun a => decide (a % 1024 ≠ 0)) || decide (work % 2 ^ 16 ≠ 0) then
          (.error 4, s2)
        else
          match (j.areas work).foldl (fun r p => if r.1 then r.2.mapped p.1 p.2 else r) (true, s2) with
          | (false, s3) => (.error 4, s3)
          | (true, s3) =>
            if s.md.slots.any fun e => decide (e.1 ≠ slot) && decide (e.2.job.jobId = j.jobId) then (.error 5, s3)
            else if j.overLimit then (.error 6, s3)
            else (.ok j, s3)
      | (_, s2) => (.error 4, s2)
  | (_, s1) => (.error 4, s1)

/-- JOB_RESULT of a command. -/
def State.jobResult (s : State) (slot code : Nat) : State :=
  s.updHub 0 fun u => u.wrs [(HR.JOB_RESULT, code), (HR.RESULT_SLOT, slot)]
/-- A job slot. -/
def State.redSlot (s : State) (slot : Nat) : Option RedSlot := (s.md.slots.find? fun e => e.1 = slot).map (·.2)
/-- A job slot in use changed. -/
def State.updRed (s : State) (slot : Nat) (f : RedSlot → RedSlot) : State :=
  s.updMd fun m => { m with slots := m.slots.map fun (e : Nat × RedSlot) => if e.1 = slot then (e.1, f e.2) else e }
/-- A round runs in a slot. -/
def State.redRuns (s : State) (slot : Nat) : Bool := match s.redSlot slot with | some z => z.running | none => false

/-- The slot cannot take a JOB_CMD: a round runs in it, or the check of a descriptor is under way (R238). -/
def State.jobBusy (s : State) (slot : Nat) : Bool := s.redRuns slot || s.md.jobCheck.isSome

/-- A JOB_CMD refused with BUSY, which reaches its writer as R60 says (R238). -/
def State.jobRefuse (s : State) (who : Requester) (id slot : Nat) : State :=
  (s.jobResult slot 2).busyWrite who id (0x7F0000000000 + HR.CMD.off)

/-- JOB_CMD = LOAD for a slot: its check begins, or it is refused (R238). -/
def State.jobLoad (s : State) (who : Requester) (id slot : Nat) : State :=
  if s.jobBusy slot then s.jobRefuse who id slot
  else (s.updMd fun m => { m with jobCheck := some slot }).jobResult slot 1

/-- JOB_CMD = UNLOAD for a slot: an IDLE or ABORTED slot is emptied, and any other refuses with BUSY (R238). -/
def State.jobUnload (s : State) (who : Requester) (id slot : Nat) : State :=
  if s.jobBusy slot || (s.redSlot slot).isNone then s.jobRefuse who id slot
  else (s.updMd fun m => { m with slots := Sparse.erase m.slots slot }).jobResult slot 0

/-- JOB_LOAD: JOB_CMD = LOAD written at H0: whether by the host, its queue pair, and the slot; else the MP writes. -/
def execJobLoad (write : Bool × BitVec 16 × BitVec 10) (s : State) : Out :=
  match write with | (host, id, slot) => .next (s.jobLoad (hostOrMp host) id.toNat slot.toNat)
/-- JOB_UNLOAD: JOB_CMD = UNLOAD written at H0. -/
def execJobUnload (write : Bool × BitVec 16 × BitVec 10) (s : State) : Out :=
  match write with | (host, id, slot) => .next (s.jobUnload (hostOrMp host) id.toNat slot.toNat)

/-- JOB_CHECK_DONE: H0's check of a descriptor ends: its job is installed in the slot of all four hubs, or the slot stays as
it was (R238). -/
def execJobCheckDone (s : State) : Out :=
  .next <| match s.md.jobCheck with
  | none => s
  | some slot =>
    let s1 := s.updMd fun m => { m with jobCheck := none }
    if s1.redRuns slot then s1.jobResult slot 2
    else
      match s1.checkJob slot with
      | (.error code, s2) => s2.jobResult slot code
      | (.ok j, s2) => (s2.updMd fun m => { m with slots := Sparse.put m.slots slot (.load j) }).jobResult slot 0

/-! ### Faults and counters of the engines (R239, R245, R260) -/

/-- REC_DROPPED of hub `h`. -/
def State.recDropped (s : State) (h : Nat) : State := s.countHub h HR.REC_DROPPED HR.DROPPED_SAT
/-- An EMPTY slot that a fault has moved to ABORTED: it holds no job, and its JOB_ID is none that a descriptor can give (R260, log 83). -/
def RedSlot.jobless : RedSlot :=
  { RedSlot.load ⟨2 ^ 32, false, 0, false, false, false, false, false, 0, 0, 0, 0, 0, 0, 0, 0, 0, 0, 0, 0, 0, 0, 0, 0, 0, 0, 0, [], []⟩ with
    aborted := true }

/-- A fault of the engines: the slot, an EMPTY one too, is ABORTED, the record filled if it is free, and the tick aborts (R260). -/
def State.redFault (s : State) (h slot code member block : Nat) : State :=
  let z := s.redSlot slot
  let s0 := match z with
    | some _ => s.updRed slot RedSlot.kill
    | none => s.updMd fun m => { m with slots := Sparse.put m.slots slot .jobless }
  let s1 := s0.updHub h fun u =>
    if u.rd HR.RED_FAULT_VALID = 1 then u
    else u.wrs [(HR.RED_FAULT_VALID, 1), (HR.RED_FAULT_CODE, code), (HR.RED_FAULT_SLOT, slot),
      (HR.RED_FAULT_ROUND, match z with | some z => z.round | none => 0),
      (HR.RED_FAULT_JOB, match z with | some z => z.job.jobId | none => 0), (HR.RED_FAULT_BLOCK, block),
      (HR.RED_FAULT_MEMBER, member)]
  s1.sendAbort (.ofHub h (0x49 + code))
/-- RED_EVENTS of hub `h` (R234, R235). -/
def State.redEvents (s : State) (h : Nat) (e : Events) : State :=
  let one (f : Fld) (bit k : Nat) (u : Hub) : Hub :=
    if k = 0 then u
    else
      let u1 := { u with regs := u.regs.count f k }
      if u1.rd f = 255 then u1.wr HR.RED_EVENT_SAT (setBit (u1.rd HR.RED_EVENT_SAT) bit true) else u1
  s.updHub h fun u => one HR.RED_UNF 2 e.unf (one HR.RED_OVF 1 e.ovf (one HR.RED_NAN 0 e.nan u))

/-! ### The engines' memory accesses (R241, R260, R295) -/

/-- An uncorrectable block: the slot is ABORTED and the tick aborts with FLT_MEM_UNCORRECTABLE (R260). -/
def State.engBad (s : State) (slot h : Nat) : State :=
  (s.updRed slot RedSlot.kill).sendAbort (.ofHub h fltMemUncorrectable)

/-- An address of a slot translated: a fault holds the access, and one already held stays so (R293). The agent's number in REQ_ID is the
hub's (DESIGN CHOICE, log 78). -/
def State.engTrans (s : State) (slot va : Nat) (write : Bool) : Option Nat × State :=
  let h := hubOf va
  let page := va / 2 ^ 16
  if (s.hub h).held.contains (.engine page slot) then (none, s)
  else
    match s.translate h va write false with
    | (.ok pa _, s1) => (some pa, s1)
    | (.fault k level entry at_, s1) =>
      match s1.openFault page k level entry at_ 4 (0x7FFF0 + h) with
      | none => (none, s)
      | some s2 => (none, ((s2.updHub h fun u => { u with held := u.held ++ [.engine page slot] }).countHeld h).ringRun)
    | (.uncorrectable, s1) => (none, s1.engBad slot h)
    | (_, s1) => (none, (s1.addrFault va .hubAgent .notHbm h).updRed slot RedSlot.kill)

/-- Bytes of one granule read for a slot. -/
def State.engRead (s : State) (slot va len : Nat) : Option (List Byte) × State :=
  match s.engTrans slot va false with
  | (none, s1) => (none, s1)
  | (some pa, s1) =>
    match s1.mpRead pa len (some (hubOf va)) with
    | (some b, s2) => (some b, s2)
    | (none, s2) => (none, s2.engBad slot (hubOf va))

/-- Bytes of one granule written for a slot: whether they are. -/
def State.engWrite (s : State) (slot va : Nat) (b : List Byte) : Bool × State :=
  match s.engTrans slot va true with
  | (none, s1) => (false, s1)
  | (some pa, s1) =>
    match s1.mpWrite pa b (some (hubOf va)) with
    | (true, s2) => (true, s2)
    | (false, s2) => (false, s2.engBad slot (hubOf va))

/-- The contributions of a block, the residual last (R241). -/
def State.readContribs (s : State) (slot : Nat) (j : Job) (round b : Nat) : Option (List (List FV)) × State :=
  let at_ := (List.range j.nlocal).map (fun c => ((j.contrib + c * j.stride + b * j.inBytes) % 2 ^ 48, j.inBf)) ++
    (if j.thin then [(j.residAt round b, false)] else [])
  let values (bf : Bool) (bs : List Byte) : List FV := (List.range 64).map fun i =>
    if bf then Fmt.bf16.decode (leNat ((bs.drop (2 * i)).take 2)) else Fmt.fp32.decode (leNat ((bs.drop (4 * i)).take 4))
  at_.foldl (fun r a => match r.1 with
    | none => r
    | some acc => match r.2.engRead slot a.1 (if a.2 then 128 else 256) with
      | (some bs, s1) => (some (acc ++ [values a.2 bs]), s1)
      | (none, s1) => (none, s1)) (some [], s)

/-! ### Records (R244) -/

/-- A record's bytes. -/
def RedRec.bytes (r : RedRec) : List Byte :=
  leBytes 1 r.kind ++ leBytes 1 r.flags ++ leBytes 2 r.round ++ leBytes 2 r.member ++ leBytes 2 r.count ++ leBytes 4 r.first ++
    leBytes 4 0 ++ r.body ++ List.replicate ((8 - r.body.length % 8) % 8) 0

/-- The length of the units of a THIN body. -/
def thinUnits (size : Nat) : Nat → List Byte → List (List Byte)
  | 0, _ => []
  | n + 1, b =>
    let len := 8 + leNat (b.take 2) * size
    b.take len :: thinUnits size n (b.drop len)

/-- The bytes of each unit of a record body; none for a reserved kind. -/
def recUnits (kind flags count : Nat) (b : List Byte) : Option (List (List Byte)) :=
  let fixed (n : Nat) : Option (List (List Byte)) := some ((List.range count).map fun i => (b.drop (n * i)).take n)
  match kind with
  | 1 => fixed 2
  | 2 => fixed 2
  | 3 => fixed (if flags.testBit 0 then 528 else 400)
  | 4 => some (thinUnits (if flags.testBit 0 then 16 else 8) count b)
  | 5 => fixed 256
  | _ => none

/-- The first record of a message and what follows it; none where it is not whole or its kind is reserved. -/
def parseRec (b : List Byte) : Option (RedRec × List Byte) :=
  let n (a len : Nat) : Nat := leNat ((b.drop a).take len)
  match recUnits (n 0 1) (n 1 1) (n 6 2) (b.drop 16) with
  | none => none
  | some us =>
    let body := us.flatMap id
    let len := 16 + (body.length + 7) / 8 * 8
    let whole := match n 0 1 with | 4 => decide (us.all fun u => decide (8 ≤ u.length)) | _ => true
    let need := match n 0 1 with
      | 4 => us.foldl (fun a u => a + 8 + leNat (u.take 2) * (if (n 1 1).testBit 0 then 16 else 8)) 0
      | 5 => 256 * n 6 2
      | 3 => (if (n 1 1).testBit 0 then 528 else 400) * n 6 2
      | _ => 2 * n 6 2
    if b.length < 16 ∨ body.length ≠ need ∨ !whole ∨ b.length < len then none
    else some (⟨n 0 1, n 1 1, n 2 2, n 4 2, n 6 2, n 8 4, body⟩, b.drop len)

/-- A partial as the bytes of a DATA unit. -/
def dataBytes (w48 : Bool) (p : List AirLane) : List Byte :=
  leBytes 16 ((List.range 64).foldl (fun a i => a + (nth ⟨0, 0⟩ p i).st * 4 ^ i) 0) ++
    p.flatMap fun a => leBytes (if w48 then 8 else 6) (a.sum % 2 ^ 64).toNat

/-- A DATA unit as a partial. -/
def dataLanes (w48 : Bool) (u : List Byte) : List AirLane :=
  let st := leNat (u.take 16)
  let n := if w48 then 8 else 6
  (List.range 64).map fun i =>
    ⟨st / 4 ^ i % 4, (BitVec.ofNat (8 * n) (leNat ((u.drop (16 + n * i)).take n))).toInt⟩

/-- Entries of a THIN unit: lane, state, partial (R253). -/
def thinEntries (w48 : Bool) (u : List Byte) : List (Nat × AirLane) :=
  let size := if w48 then 16 else 8
  (List.range (leNat (u.take 2))).map fun k =>
    let e := (u.drop (8 + size * k)).take size
    let h := leNat (e.take 2)
    (bits h 9 0, ⟨bits h 11 10,
      if w48 then (BitVec.ofNat 64 (leNat (e.drop 8))).toInt else (BitVec.ofNat 48 (leNat (e.drop 2))).toInt⟩)

/-- Entries as the bytes of a THIN unit. -/
def thinBytes (w48 : Bool) (es : List (Nat × AirLane)) : List Byte :=
  leBytes 2 es.length ++ List.replicate 6 0 ++ es.flatMap fun e =>
    let v := (e.2.sum % 2 ^ 64).toNat
    leBytes 2 (e.1 + 1024 * e.2.st) ++ if w48 then List.replicate 6 0 ++ leBytes 8 v else leBytes 6 v

/-! ### Sending records (R242) -/

/-- A record of one unit sent from a hub to a member: its own stay inside the module (R242). -/
def State.redSend (s : State) (slot h member kind first : Nat) (body : List Byte) : State :=
  match s.redSlot slot with
  | none => s
  | some z =>
    let bytes := RedRec.bytes ⟨kind, b2n z.job.w48, z.round, z.job.self, 1, first, body⟩
    let flow := redFlow h first
    if member = z.job.self then
      s.updHub h fun u => { u with msgs := u.msgs ++ [⟨255, s.rd MR.NODE_ID, flow, 5, z.job.jobId, z.job.gen, bytes⟩] }
    else
      (s.updRed slot fun z => { z with unacked := z.unacked + 1 }).send h (nth 0 z.job.nodes member) flow
        ⟨5, z.job.jobId, z.job.gen, bytes, some slot⟩

/-! ### The end of a round (R246) -/

/-- What a round still lacks, its sampled checks apart. -/
def RedSlot.open_ (z : RedSlot) : Bool :=
  let j := z.job
  decide (z.unacked ≠ 0) ||
    (if j.gather then decide (z.sent.length < j.shardSize) || decide (z.written.length < j.blocks - j.shardSize)
     else decide (z.sent.length < j.blocks) || decide (z.written.length < j.shardSize) ||
       (j.thin && decide (z.residDone.length < j.blocks)))

/-- JOB_STATE of a slot. -/
def RedSlot.code (z : RedSlot) : Nat :=
  if z.aborted then 5
  else if !z.running then 1
  else if !z.job.gather && decide (z.eblk.length < z.job.blocks) then 2
  else if z.open_ then 3
  else 4

/-- A SIGNAL or TOKEN block from H0 to a core. Its EPOCH is a free value: the spec names none for a hub, and the epoch check does not look
at it (log 81). -/
def State.hubBlock (s : State) (signal : Bool) (dest q seq : Nat) (body : Row) : State :=
  match s.fresh 2 with
  | (ep, s1) => s1.hubSend 0 dest (.cd
      { signal := signal, epoch := ep.toNat, kind := 3, destQ := q, dest := dest, hub := 0, endpoint := 0, src := 0x7FFF0,
        srcQ := 0, seq := seq % 2 ^ 16, eblk := 0, xBase := 0, yBase := 0, colMask := 0, rowMask := 0 } body)

/-- A round that is complete: the slot returns to IDLE, DONE is signalled, and a PREEMPT that waited may end (R246, R247). -/
def State.redDone (s : State) (slot : Nat) : State :=
  match s.redSlot slot with
  | none => s
  | some z =>
    if !z.running || z.open_ || decide (z.checks ≠ []) then s
    else
      let s1 := s.updRed slot fun z => { z.clear with round := (z.round + 1) % 2 ^ 16 }
      (s1.hubBlock true z.job.doneCore z.job.doneQ 0 (BitVec.ofNat 512 (z.job.doneThread * 2 ^ 24))).preemptHalt

/-- A reduced block written at its output address (R234, R255). -/
def State.writeSum (s : State) (slot b : Nat) : State :=
  match s.redSlot slot with
  | none => s
  | some z =>
    let e := Sparse.get expEmpty z.eblk b
    let r := (Sparse.get [] z.sums b).map fun a => a.round (if z.job.outBf then .bf16 else .fp32) z.job.width e
    match s.engWrite slot (z.job.outAt z.round b) (r.flatMap fun v => leBytes (if z.job.outBf then 2 else 4) v.1) with
    | (true, s1) => (s1.updRed slot fun z => { z with written := z.written ++ [b] }).redEvents (z.job.procHub b)
        (Events.sum (r.map (·.2)))
    | (false, s1) => s1

/-- A residual or a gathered granule written (R254, R256). -/
def State.writeDue (s : State) (slot b : Nat) (bs : List Byte) : State :=
  match s.redSlot slot with
  | none => s
  | some z =>
    match s.engWrite slot (if z.job.gather then z.job.granuleAt z.round b else z.job.residAt (z.round + 1) b) bs with
    | (true, s1) => s1.updRed slot fun z =>
        let z := { z with due := Sparse.erase z.due b }
        if z.job.gather then { z with written := z.written ++ [b] } else { z with residDone := z.residDone ++ [b] }
    | (false, s1) => s1

/-- What is due is written, and a round that is complete ends. -/
def State.redProgress (s : State) (slot : Nat) : State :=
  match s.redSlot slot with
  | none => s
  | some z =>
    let s1 := (z.sums.filter fun e => !z.written.contains e.1).foldl (fun s e => s.writeSum slot e.1) s
    (z.due.foldl (fun s e => s.writeDue slot e.1 e.2) s1).redDone slot

/-! ### The sampled check (R249 to R251) -/

/-- Block `b` is sampled in round `r`. -/
def Job.sampled (j : Job) (b r : Nat) : Bool := decide (j.checkLog2 ≠ 0) && decide ((b + r) % 2 ^ j.checkLog2 = 0)
/-- Token `t` of a partial: the limbs of lanes 4t to 4t + 3. -/
def limbRow (p : List AirLane) (t : Nat) : Row :=
  Row.ofLanes fun i =>
    let v : Int := (nth ⟨0, 0⟩ p (4 * t + i / 4)).sum
    let limb := v / 2 ^ (16 * (i % 4))
    if i % 4 = 3 then BitVec.ofInt 32 limb else BitVec.ofInt 32 (limb % 2 ^ 16)
/-- The partials of a sampled block leave for the check queue. -/
def State.sendCheck (s : State) (slot b : Nat) (parts : Sparse (List AirLane)) : State :=
  match s.redSlot slot with
  | none => s
  | some z =>
    let k := z.nextCheck
    let s1 := s.updRed slot fun z => { z with nextCheck := k + 1, checks := Sparse.put z.checks b (k, []) }
    parts.foldl (fun s p => (List.range 16).foldl (fun s t =>
      s.hubBlock false z.job.checkCore z.job.checkQ (16 * k + t) (limbRow p.2 t)) s) s1
/-- Block lane `i` rebuilt from the returned tokens (R250). -/
def rebuilt (rows : Sparse Row) (i : Nat) : Int :=
  let t (l : Nat) : Int := ((Sparse.get 0 rows (i / 4)).lane (4 * (i % 4) + l)).toInt
  (BitVec.ofInt 64 (t 0 + t 1 * 2 ^ 16 + t 2 * 2 ^ 32 + t 3 * 2 ^ 48)).toInt

/-! ### Taking in records (R242, R245) -/

/-- The partials of an own block are all in: their sum, which is checked if sampled, and written (R242). -/
def State.trySum (s : State) (slot b : Nat) : State :=
  match s.redSlot slot with
  | none => s
  | some z =>
    let ps := Sparse.get [] z.parts b
    if ps.length < z.job.members then s
    else
      match combineBlock (ps.map (·.2)) with
      | (sum, nan) =>
        let s1 := (s.updRed slot fun z => { z with sums := Sparse.put z.sums b sum }).redEvents (z.job.procHub b) { nan := nan }
        if z.job.sampled b z.round then s1.sendCheck slot b ps else s1

/-- A partial of an own block received from a member; a repeated one, or one that overflows a sum, is a fault (R245). -/
def State.takePart (s : State) (h slot member b : Nat) (p : List AirLane) : State :=
  match s.redSlot slot with
  | none => s
  | some z =>
    let ps := Sparse.get [] z.parts b
    let beyond := (List.range 64).any fun i =>
      let v := (ps.map fun e => (nth ⟨0, 0⟩ e.2 i).sum).foldl (· + ·) (nth ⟨0, 0⟩ p i).sum
      decide (v < -(2 ^ 63)) || decide (2 ^ 63 ≤ v)
    if ps.any (fun e => e.1 = member) || beyond then s.redFault h slot 4 member b
    else (s.updRed slot fun z => { z with parts := Sparse.put z.parts b (Sparse.put ps member p) }).trySum slot b

/-- One unit of a record of the round in progress; what R245 rejects is FLT_REDUCE_RECORD. -/
def State.applyUnit (s : State) (h slot : Nat) (r : RedRec) (b : Nat) (u : List Byte) : State :=
  match s.redSlot slot with
  | none => s
  | some z =>
    let j := z.job
    let m := r.member
    if z.aborted then s
    else
      let bad := s.redFault h slot 4 m b
      let first := if r.kind = 4 then 16 * b else b
      let owner := j.owner first
      if j.blocks ≤ first ∨ j.members ≤ m ∨ r.flags ≠ b2n j.w48 ∨ (j.gather ≠ decide (r.kind = 5)) then bad
      else
        match r.kind with
        | 1 =>
          let es := Sparse.get [] z.exps b
          if owner ≠ j.self ∨ es.any (fun e => e.1 = m) then bad
          else
            let es1 := Sparse.put es m (BitVec.ofNat 16 (leNat u)).toInt
            let s1 := s.updRed slot fun z => { z with exps := Sparse.put z.exps b es1 }
            if es1.length < j.members then s1
            else
              let e := es1.foldl (fun a x => max a x.2) expEmpty
              (List.range j.members).foldl (fun s k => s.redSend slot (j.procHub b) k 2 b (leBytes 2 (e % 2 ^ 16).toNat)) s1
        | 2 =>
          if owner ≠ m ∨ z.eblk.any (fun e => e.1 = b) then bad
          else s.updRed slot fun z => { z with eblk := Sparse.put z.eblk b (BitVec.ofNat 16 (leNat u)).toInt }
        | 3 => if owner ≠ j.self ∨ (j.thin ∧ m ≠ j.self) then bad else s.takePart h slot m b (dataLanes j.w48 u)
        | 4 =>
          let es := thinEntries j.w48 u
          if owner ≠ j.self ∨ !j.thin ∨ es.any (fun e => decide (j.blocks ≤ first + e.1 / 64)) then bad
          else
            ((List.range 16).filter fun k => decide (first + k < j.blocks)).foldl (fun s k =>
              s.takePart h slot m (first + k) ((List.range 64).map fun i =>
                match es.find? fun e => e.1 = 64 * k + i with | some e => e.2 | none => ⟨0, 0⟩)) s
        | _ =>
          if owner ≠ m ∨ m = j.self ∨ z.written.contains b ∨ z.due.any (fun e => e.1 = b) then bad
          else s.updRed slot fun z => { z with due := Sparse.put z.due b u }

/-- A record of the round in progress taken in. -/
def State.applyRec (s : State) (h slot : Nat) (r : RedRec) : State :=
  let us := (recUnits r.kind r.flags r.count r.body).getD []
  (us.foldl (fun (a : Nat × State) u => (a.1 + 1, a.2.applyUnit h slot r (r.first + a.1) u)) (0, s)).2.redProgress slot

/-- A record that arrives at hub `h`: dropped for a job or generation that no slot has, or classified by its round (R239,
R243). -/
def State.redTake (s : State) (h : Nat) (m : RxMsg) (r : RedRec) : State :=
  match s.md.slots.find? fun (e : Nat × RedSlot) =>
      decide (e.2.job.jobId = m.jobId) && decide (e.2.job.gen = m.jobGen) && !e.2.aborted with
  | none => s.recDropped h
  | some (slot, z) =>
    let d := (r.round + 2 ^ 16 - z.round) % 2 ^ 16
    if d = 0 then s.applyRec h slot r
    else if d = 1 then s.updRed slot fun z => { z with apart := z.apart ++ [r] }
    else if d < 2 ^ 15 then s.redFault h slot 3 r.member r.first
    else s.recDropped h

/-- The first record of message `i` at hub `h`, if it is of a kind. A message whose first record cannot be read is dropped. -/
def State.redRecord (s : State) (kind h i : Nat) : State :=
  let ms := (s.hub h).msgs
  match ms[i]? with
  | none => s
  | some m =>
    if m.typ ≠ 5 ∨ (ms.take i).any (fun x => decide (x.node = m.node) && decide (x.flow = m.flow)) then s
    else
      let rest (b : List Byte) (s : State) : State := s.updHub h fun u =>
        { u with msgs := if b = [] then u.msgs.eraseIdx i else u.msgs.set i { m with body := b } }
      match parseRec m.body with
      | none => (rest [] s).recDropped h
      | some (r, b) => if r.kind ≠ kind then s else (rest b s).redTake h m r

/-- EXP_RECORD: hub `h` takes in an EXP record, the first of delivered message `i` (R242). -/
def execExpRecord (h i : Nat) (s : State) : Out := .next (s.redRecord 1 h i)
/-- EXPMAX_RECORD: an EXPMAX record is taken in (R242). -/
def execExpmaxRecord (h i : Nat) (s : State) : Out := .next (s.redRecord 2 h i)
/-- DATA_RECORD: a DATA record is taken in (R242). -/
def execDataRecord (h i : Nat) (s : State) : Out := .next (s.redRecord 3 h i)
/-- THIN_RECORD: a THIN record is taken in (R253). -/
def execThinRecord (h i : Nat) (s : State) : Out := .next (s.redRecord 4 h i)
/-- GATHER_RECORD: a GATHER record is taken in and written in place (R256). -/
def execGatherRecord (h i : Nat) (s : State) : Out := .next (s.redRecord 5 h i)

/-! ### Tokens at the engines (R240, R250) -/

/-- The first token or signal in an edge port's buffer, taken out. -/
def takeCd : List Payload → Option (CdHead × Row × List Payload)
  | [] => none
  | .cd x row :: l => some (x, row, l)
  | p :: l => (takeCd l).map fun r => (r.1, r.2.1, p :: r.2.2)

/-- A block for an endpoint that has no meaning for it is sunk (R344). -/
def State.endpointBad (s : State) (h : Nat) : State := s.hubCount h HR.ENDPOINT_BAD 1

/-- REDUCE_START: a START token at edge port `k` of hub `h` starts the next round of an IDLE slot; a slot in any other state is
FLT_REDUCE_START (R240). -/
def execReduceStart (h k : Nat) (s : State) : Out :=
  .next <| match takeCd (Sparse.get [] (s.hub h).edgeIn k) with
  | none => s
  | some (x, _, l) =>
    let slot := bits x.endpoint 9 0
    if x.endpoint.testBit 15 || decide (bits x.endpoint 14 13 = 1) then s
    else
      let s1 := s.edgeTook h k l
      if h ≠ 0 ∨ x.signal ∨ bits x.endpoint 14 10 ≠ 0 then s1.endpointBad h
      else
        match s1.redSlot slot with
        | none => s1.redFault 0 slot 5 0xFFFF 0
        | some z =>
          if z.running || z.aborted then s1.redFault 0 slot 5 0xFFFF 0
          else
            let s2 := s1.updRed slot fun z => { z with running := true, apart := [] }
            (z.apart.foldl (fun s r => s.applyRec 0 slot r) s2).redProgress slot

/-- CHECK_RETURN: a finished token of a sampled check returns to H0; with all 16 of a block the rebuilt lanes are compared with
its sums (R250, R251). The tokens return in the order in which their queue finishes them. -/
def execCheckReturn (h k : Nat) (s : State) : Out :=
  .next <| match takeCd (Sparse.get [] (s.hub h).edgeIn k) with
  | none => s
  | some (x, row, l) =>
    let slot := bits x.endpoint 9 0
    if x.endpoint.testBit 15 || decide (bits x.endpoint 14 13 ≠ 1) then s
    else
      let s1 := s.edgeTook h k l
      if h ≠ 0 ∨ x.signal ∨ bits x.endpoint 12 10 ≠ 0 then s1.endpointBad h
      else
        match s1.redSlot slot with
        | none => s1
        | some z =>
          let n := z.returned
          let s2 := s1.updRed slot fun z => { z with returned := n + 1 }
          match z.checks.find? fun (e : Nat × (Nat × Sparse Row)) => decide (e.2.1 = n / 16) with
          | none => s2
          | some (b, (q, rows)) =>
            let rows1 := Sparse.put rows (n % 16) row
            if rows1.length < 16 then s2.updRed slot fun z => { z with checks := Sparse.put z.checks b (q, rows1) }
            else
              let sum := Sparse.get [] z.sums b
              if (List.range 64).all fun i => decide ((nth ⟨0, 0⟩ sum i).st ≠ 0) ||
                  decide ((nth ⟨0, 0⟩ sum i).sum = rebuilt rows1 i) then
                ((s2.updRed slot fun z => { z with checks := Sparse.erase z.checks b }).hubCount 0 HR.CHECKS_DONE 1).redProgress slot
              else (s2.countHub 0 HR.MISMATCH_COUNT HR.MISMATCH_SAT).redFault 0 slot 1 0xFFFF b

/-! ### Thinning (R252 to R254) -/

/-- The rank of a lane of a chunk (R252): its class, 0 NaN, 1 infinite, 2 finite, and for a finite one its exact magnitude in
units of 2^(-W - 147), a common one of the chunk. -/
def rankOf (a : AirLane) (e : Int) : Nat × Nat :=
  match a.st with
  | 3 => (0, 0)
  | 0 => (2, a.sum.natAbs <<< (e + 149).toNat)
  | _ => (1, 0)
/-- Rank `a` goes before rank `b`. -/
def rankBefore (a b : Nat × Nat) : Bool := decide (a.1 < b.1) || (decide (a.1 = b.1) && decide (b.2 < a.2))
/-- A lane put into a ranked list behind its equals. -/
def insertRank (x : Nat × (Nat × Nat)) : List (Nat × (Nat × Nat)) → List (Nat × (Nat × Nat))
  | [] => [x]
  | y :: l => if rankBefore x.2 y.2 then x :: y :: l else y :: insertRank x l

/-- The lanes of a chunk that are sent, ascending: the first THIN_K in rank order among those that are not zero. -/
def thinChosen (k : Nat) (lanes : List (Nat × AirLane × Int)) : List Nat :=
  let some_ := lanes.filter fun x => decide (x.2.1.st ≠ 0) || decide (x.2.1.sum ≠ 0)
  let top := ((some_.foldl (fun l x => insertRank (x.1, rankOf x.2.1 x.2.2) l) []).take k).map (·.1)
  (some_.map (·.1)).filter fun i => top.contains i

/-- The residual of a block's lanes, those sent being 0 (R254). -/
def residBytes (w e : Int) (p : List AirLane) (sent : Nat → Bool) : List Byte × Events :=
  let r := p.mapIdx fun i a => if sent i then (0, {}) else a.round .fp32 w e
  (r.flatMap fun v => leBytes 4 v.1, Events.sum (r.map (·.2)))

/-- A chunk of which every block has its partial: its THIN record is sent, and its residuals are due (R252 to R254). -/
def State.thinChunk (s : State) (slot h c : Nat) : State :=
  match s.redSlot slot with
  | none => s
  | some z =>
    let j := z.job
    let bs := ((List.range 16).map (16 * c + ·)).filter fun b => decide (b < j.blocks)
    if !bs.all (fun b => z.own.any fun e => e.1 = b) then s
    else
      let lanes := bs.flatMap fun b => (Sparse.get [] z.own b).mapIdx fun i a =>
        (64 * (b - 16 * c) + i, a, Sparse.get expEmpty z.eblk b)
      let top := thinChosen j.thinK lanes
      let es := (lanes.filter fun x => top.contains x.1).map fun x => (x.1, x.2.1)
      let s1 := bs.foldl (fun s b =>
        match residBytes j.width (Sparse.get expEmpty z.eblk b) (Sparse.get [] z.own b) fun i => top.contains (64 * (b - 16 * c) + i) with
        | (bytes, ev) => (s.updRed slot fun z =>
            { z with due := Sparse.put z.due b bytes, own := Sparse.erase z.own b, sent := z.sent ++ [b] }).redEvents (j.procHub b) ev) s
      s1.redSend slot h (j.owner (16 * c)) 4 c (thinBytes j.w48 es)

/-! ### Reading contributions (R241, R242, R256) -/

/-- The local exponent of a block (R242): sent to its owner. -/
def State.expPass (s : State) (slot b : Nat) (z : RedSlot) : State :=
  match s.readContribs slot z.job z.round b with
  | (none, s1) => s1
  | (some cs, s1) =>
    let e := blockExp (cs.flatMap id)
    (s1.updRed slot fun z => { z with eloc := Sparse.put z.eloc b e }).redSend slot (z.job.procHub b) (z.job.owner b) 1 b
      (leBytes 2 (e % 2 ^ 16).toNat)

/-- The partial of a block: sent to its owner, or kept until its chunk is whole (R242, R252, R254). -/
def State.partPass (s : State) (slot b : Nat) (z : RedSlot) : State :=
  match s.readContribs slot z.job z.round b with
  | (none, s1) => s1
  | (some cs, s1) =>
    let j := z.job
    let h := j.procHub b
    match combineBlock (cs.map fun c => c.map (alignLane j.width (Sparse.get expEmpty z.eblk b))) with
    | (p, nan) =>
      let s2 := s1.redEvents h { nan := nan }
      if j.thin ∧ j.owner b ≠ j.self then
        (s2.updRed slot fun z => { z with own := Sparse.put z.own b p }).thinChunk slot h (b / 16)
      else
        let zero := if j.thin then [(b, List.replicate 256 (0 : Byte))] else []
        (s2.updRed slot fun z =>
          { z with sent := z.sent ++ [b], due := zero.foldl (fun d e => Sparse.put d e.1 e.2) z.due }).redSend slot h (j.owner b) 3 b
          (dataBytes j.w48 p)

/-- An own granule read and sent to every other member (R256). -/
def State.granulePass (s : State) (slot b : Nat) (z : RedSlot) : State :=
  match s.engRead slot (z.job.granuleAt z.round b) 256 with
  | (none, s1) => s1
  | (some bs, s1) =>
    ((List.range z.job.members).filter (· ≠ z.job.self)).foldl (fun s m => s.redSend slot (z.job.procHub b) m 5 b bs)
      (s1.updRed slot fun z => { z with sent := z.sent ++ [b] })

/-- REDUCE_CONTRIB_READ: block `b` of the round of a slot is read: for its exponent, then, once its block exponent is in, for its
partial; a granule of the own shard for GATHER (R242, R256). -/
def execReduceContribRead (slot b : Nat) (s : State) : Out :=
  .next <| match s.redSlot slot with
  | none => s
  | some z =>
    let has {α : Type} (m : Sparse α) : Bool := m.any fun e => e.1 = b
    if !z.running || decide (z.job.blocks ≤ b) || z.sent.contains b then s
    else if z.job.gather then (if z.job.owner b = z.job.self then (s.granulePass slot b z).redProgress slot else s)
    else if !has z.eloc then (s.expPass slot b z).redProgress slot
    else if has z.eblk && !has z.own then (s.partPass slot b z).redProgress slot
    else s.redProgress slot

/-! ### The lease (R248) -/

/-- The blocks or chunks of a slot's messages that are not acknowledged, as first blocks. -/
def State.redUnacked (s : State) (slot gen : Nat) : List Nat :=
  (List.range 4).flatMap fun h => (s.hub h).tx.flatMap fun f =>
    ((f.unacked.map (·.msg) ++ f.queue).filter fun m => decide (m.slot = some slot) && decide (m.jobGen = gen)).map fun m =>
      let n := leNat ((m.body.drop 8).take 4)
      if leNat (m.body.take 1) = 4 then 16 * n else n

/-- A block of a round is complete. -/
def RedSlot.blockDone (z : RedSlot) (un : List Nat) (b : Nat) : Bool :=
  let mine := decide (z.job.owner b = z.job.self)
  !un.contains b && (if z.job.gather then (if mine then z.sent.contains b else z.written.contains b)
    else z.sent.contains b && (!mine || (z.written.contains b && !z.checks.any fun e => e.1 = b)) &&
      (!z.job.thin || z.residDone.contains b))

/-- The lowest member from which a record that a block needs has not arrived; 0xFFFF if none. -/
def RedSlot.missing (z : RedSlot) (b : Nat) : Nat :=
  let j := z.job
  let first (l : List Nat) : Nat := ((List.range j.members).find? fun m => !l.contains m).getD 0xFFFF
  let own := j.owner b
  if j.gather then (if own = j.self ∨ z.due.any (fun e => e.1 = b) ∨ z.written.contains b then 0xFFFF else own)
  else if !z.eblk.any (fun e => e.1 = b) then
    (if own = j.self then (match first (Sparse.keys (Sparse.get [] z.exps b)) with | 0xFFFF => own | m => m) else own)
  else if own = j.self then first (Sparse.keys (Sparse.get [] z.parts b))
  else 0xFFFF

/-- REDUCE_LEASE_EXPIRY: a round that has not completed LEASE_US after its START is FLT_REDUCE_TIMEOUT (R248). -/
def execReduceLeaseExpiry (slot : Nat) (s : State) : Out :=
  .next <| match s.redSlot slot with
  | none => s
  | some z =>
    if !z.running then s
    else
      let b := ((List.range z.job.blocks).find? fun b => !z.blockDone (s.redUnacked slot z.job.gen) b).getD 0
      s.redFault 0 slot 2 (z.missing b) b

end Sys2Proof.Machine
end

