-- ==== Sys2Proof/Machine/Faults.lean ====
section
/-!
DEFINITION. The end of translation faults (11): demand-mapped pages, and the runtime's RETRY and DENY.
-/
namespace Sys2Proof.Machine

/-- What of a hub's held requests waits on a page. -/
def HeldReq.onPage (page : Nat) : HeldReq → Bool
  | .mreq p _ => decide (p = page)
  | .engine p _ => decide (p = page)

/-- A fault leaves the MP's table, with a record of it that is not posted yet. -/
def State.freeFault (s : State) (i : Nat) : State :=
  s.updMd fun m => { m with faults := Sparse.erase m.faults i,
                            ringWait := m.ringWait.filter fun p => decide (p ≠ .fault i) }

/-- FAULTS_PENDING follows the table. -/
def State.countFaults (s : State) : State := s.wr MR.FAULTS_PENDING s.md.faults.length

/-- A held request at hub `h` walks again (R294, R295). -/
def State.rewalk (s : State) (h : Nat) (x : HeldReq) : State :=
  match x with
  | .mreq _ q => ((s.hubCount h HR.WALKS 1).updHub h fun u => { u with walks := u.walks ++ [⟨q, false⟩] }).farWaits q Thread.unheld
  | .engine _ slot => s.redProgress slot

/-- A held request at hub `h` is refused: a core's is answered, a running reduction slot aborts with the tick (R295). -/
def State.denyHeld (s : State) (h : Nat) (x : HeldReq) : State :=
  match x with
  | .mreq _ q => (s.farWaits q Thread.unheld).answer h q .denied
  | .engine _ slot =>
    if s.redRuns slot then (s.updRed slot RedSlot.kill).sendAbort (.ofHub h fltPageDenied) else s

/-- The held requests of a page leave every hub, oldest first, each as `f` says; a hub's walks that began later stay behind
those that begin again. -/
def State.releasePage (s : State) (page : Nat) (f : State → Nat → HeldReq → State) : State :=
  (List.range 4).foldl (fun s h =>
    let u := s.hub h
    let mine := u.held.filter (HeldReq.onPage page)
    let s1 := (s.updHub h fun u => { u with held := u.held.filter fun x => !x.onPage page, walks := [] }).countHeld h
    (mine.foldl (fun s x => f s h x) s1).updHub h fun v => { v with walks := v.walks ++ u.walks }) s

/-- A page of HBM written with zeros; the blocks of a FAILED channel keep what they hold (R284, R287). -/
def State.zeroPage (s : State) (pa : Nat) : State :=
  let inside (b : Nat) : Bool := decide (b * 64 / 2 ^ 16 = pa / 2 ^ 16) && !s.channelFailed (64 * b)
  { s with hbm := s.hbm.filter fun e => !inside (e.1 / 64), hbmFail := s.hbmFail.filter fun e => !inside e.1,
           hbmCrc := s.hbmCrc.filter fun e => !inside e.1 }

/-- DEMAND_MAP_DONE: the MP has zeroed the pool page of fault `i`: it writes the L4 entry and releases the held requests, which
walk again (R294). -/
def execDemandMapDone (i : Nat) (s : State) : Out :=
  .next <| match s.md.faults.find? fun e => e.1 = i with
  | none => s
  | some (_, f) =>
    match f.demand with
    | none => s
    | some pa =>
      match (s.zeroPage pa).mpNat f.entryAt 8 with
      | (e, s1) =>
        let old := e.getD f.entry
        let new := bits old 63 56 * 2 ^ 56 + pa + bits old 3 2 * 4 + 3
        (((((s1.mpWrite f.entryAt (leBytes 8 new)).2).count MR.DEMAND_MAPS).freeFault i).releasePage f.page State.rewalk).countFaults

/-- RESOLVE_ACT written: RETRY 1 or DENY 2 for the fault that RESOLVE_ID names; an identifier of no fault that waits for the
runtime is ignored and counted (R295). -/
def State.resolve (s : State) (act : Nat) : State :=
  let id := s.rd MR.RESOLVE_ID
  match s.md.faults.find? fun e => decide (e.2.seq * 256 + e.1 = id) && e.2.demand.isNone with
  | none => s.count MR.STALE_RESOLVE
  | some (i, f) =>
    ((s.freeFault i).releasePage f.page (if act = 1 then State.rewalk else State.denyHeld)).countFaults

/-- RESOLVE_RETRY: RESOLVE_ACT = RETRY. -/
def execResolveRetry (s : State) : Out := .next (s.resolve 1)
/-- RESOLVE_DENY: RESOLVE_ACT = DENY. -/
def execResolveDeny (s : State) : Out := .next (s.resolve 2)

end Sys2Proof.Machine
end

