-- ==== Sys2Proof/Machine/Transport.lean ====
section
/-!
DEFINITION. Receiving over Ryudon (12): the checks of a packet, delivery, acknowledgements, re-sending, pacing, the links of
the ports, tick reports at the master, and MGMT.
-/
namespace Sys2Proof.Machine

/-! ### Packets (R315, R316, R321) -/

/-- A received packet's header. -/
structure Header where
  typ : Nat
  version : Nat
  retx : Bool
  ackNow : Bool
  flow : Nat
  seq : Nat
  src : Nat
  dst : Nat
  jobId : Nat
  jobGen : Nat
  gen : Nat
  len : Nat
  mask : Nat
  deriving DecidableEq, Repr

/-- A header read from the bytes of a packet. -/
def Header.ofBytes (b : List Byte) : Header :=
  let n (a len : Nat) : Nat := leNat ((b.drop a).take len)
  ⟨n 0 1 % 16, n 0 1 / 16, (n 1 1).testBit 0, (n 1 1).testBit 1, n 2 2, n 4 4, n 8 4, n 12 4, n 16 2, n 18 1, n 19 1, n 20 2,
   n 22 1⟩

/-- The blocks that a packet carries, good (with their bytes) or bad. -/
def Header.blocks (x : Header) (b : List Byte) : List (Nat × Option (List Byte)) :=
  (((List.range 8).filter fun k => x.mask.testBit k && decide (512 * k < x.len)).foldl
    (fun (r : List (Nat × Option (List Byte)) × List Byte) k =>
      let n := min 512 (x.len - 512 * k)
      let d := r.2.take n
      let c := (r.2.drop n).take 4
      (r.1 ++ [(k, if d.length = n ∧ c = leBytes 4 (crc32c d) then some d else none)], r.2.drop (n + 4))) ([], b.drop 32)).1

/-- All blocks of a held packet are present. -/
def RxPkt.full (x : RxPkt) : Bool := decide (x.blocks.length = blockCount x.len)
/-- The payload of a held packet. -/
def RxPkt.body (x : RxPkt) : List Byte := x.blocks.flatMap (·.2)

/-! ### Receiving flows (R321, R322, R324) -/

/-- The receiving flow of hub `h` from a node. -/
def State.rxFlow (s : State) (h node flow : Nat) : Option RxFlow :=
  (s.hub h).rx.find? fun f => decide (f.node = node) && decide (f.flow = flow)
/-- A receiving flow put back; a new one is bound. -/
def State.setRx (s : State) (h : Nat) (f : RxFlow) : State :=
  let same (x : RxFlow) : Bool := decide (x.node = f.node) && decide (x.flow = f.flow)
  let put (l : List RxFlow) : List RxFlow := if l.any same then l.map (fun x => if same x then f else x) else l ++ [f]
  s.updHub h fun u => Hub.countFlows { u with rx := put u.rx }
/-- A receiving flow at its first packet. -/
def RxFlow.fresh (node flow gen port : Nat) : RxFlow :=
  { node := node, flow := flow, gen := gen, expect := 0, held := [], since := 0, ce := 0, naked := [], port := port }

/-- The sequence number `i` after the expected one. -/
def RxFlow.seqAt (f : RxFlow) (i : Nat) : Nat := (f.expect + i) % 2 ^ 32
/-- What is held of a sequence number. -/
def RxFlow.pkt (f : RxFlow) (seq : Nat) : Option RxPkt := (f.held.find? fun e => e.1 = seq).map (·.2)
/-- A sequence number has all its blocks. -/
def RxFlow.whole (f : RxFlow) (seq : Nat) : Bool := match f.pkt seq with | some x => x.full | none => false
/-- ACK_SEQ: the last SEQ delivered in order; all ones before the first (R322). -/
def RxFlow.ackSeq (f : RxFlow) : Nat := (f.expect + 2 ^ 32 - 1) % 2 ^ 32

/-- The ACK body (R322). -/
def RxFlow.ackBody (f : RxFlow) : List Byte :=
  leBytes 4 f.ackSeq ++ leBytes 4 f.ce ++
    leBytes 8 ((List.range 64).foldl (fun a i => if f.whole (f.seqAt i) then a + 2 ^ i else a) 0) ++ leBytes 8 0

/-- An ACK or NAK of a receiving flow sent back on the port its last packet came in on. -/
def State.sendCtl (s : State) (h typ : Nat) (f : RxFlow) (body : List Byte) : State :=
  s.sendPacket h f.port f.node f.flow (ryudonBytes typ false false f.flow 0 (s.rd MR.NODE_ID) f.node 0 0
    ((s.hub h).rd HR.HUB_GEN) (2 ^ blockCount body.length - 1) body)

/-- The ACK that a flow owes is sent (R322). -/
def State.sendAck (s : State) (h : Nat) (f : RxFlow) : State :=
  (s.setRx h { f with since := 0, ce := 0 }).sendCtl h 1 f f.ackBody

/-- The packets to name in a NAK: those with blocks missing and a higher-numbered packet received or a block that failed its
CRC, not yet named in this ACK_DELAY (R322). -/
def RxFlow.nakList (f : RxFlow) : List (Nat × Nat) :=
  let high := (List.range 64).foldl (fun a i => if (f.pkt (f.seqAt i)).isSome then i else a) 0
  (((List.range 64).filter fun i =>
    let q := f.seqAt i
    !f.whole q && !f.naked.contains q &&
      (decide (i < high) || match f.pkt q with | some x => x.badCrc | none => false)).map fun i =>
    let q := f.seqAt i
    (q, match f.pkt q with
      | some x => ((List.range (blockCount x.len)).filter fun k => !x.blocks.any fun e => e.1 = k).foldl (fun a k => a + 2 ^ k) 0
      | none => 255)).take 32

/-- The NAK that a flow owes, if it owes one (R322). -/
def State.sendNak (s : State) (h : Nat) (f : RxFlow) : State :=
  let l := f.nakList
  if l = [] then s
  else (s.setRx h { f with naked := f.naked ++ l.map (·.1) }).sendCtl h 2 f
    (leBytes 4 f.ackSeq ++ leBytes 2 l.length ++ leBytes 2 0 ++
      l.flatMap fun e => leBytes 4 e.1 ++ leBytes 1 e.2 ++ List.replicate 3 0)

/-- Whole packets delivered to their consumers in SEQ order (R321). -/
def State.rxDeliver (s : State) (h : Nat) (f : RxFlow) : Nat → State × RxFlow
  | 0 => (s, f)
  | n + 1 =>
    match f.pkt f.expect with
    | none => (s, f)
    | some x =>
      if !x.full then (s, f)
      else
        let m : RxMsg := ⟨f.port, f.node, f.flow, x.typ, x.jobId, x.jobGen, x.body⟩
        let f1 := { f with held := Sparse.erase f.held f.expect, expect := f.seqAt 1, naked := f.naked.filter (· ≠ f.expect) }
        ((s.updHub h fun u => { u with msgs := u.msgs ++ [m] }).hubCount h HR.PKT_RX 1).rxDeliver h f1 n

/-- A data packet in its flow: a duplicate is acknowledged at once, one beyond the window dropped, the good blocks of any other
kept; then whole packets are delivered and the flow acknowledges (R321, R322). -/
def State.rxData (s : State) (h : Nat) (ce : Bool) (f : RxFlow) (x : Header) (b : List Byte) : State :=
  let d := (x.seq + 2 ^ 32 - f.expect) % 2 ^ 32
  if 64 ≤ d ∧ d < 2 ^ 31 then (s.setRx h f).hubCount h HR.RX_DROPPED 1
  else
    let f := { f with since := f.since + 1, ce := f.ce + b2n ce }
    if 2 ^ 31 ≤ d then s.sendAck h f
    else
      let bs := x.blocks b
      let bad := bs.filter fun e => e.2.isNone
      let old := (f.pkt x.seq).getD ⟨x.typ, x.jobId, x.jobGen, x.len, 0, [], false⟩
      let keep (m : Sparse (List Byte)) (e : Nat × Option (List Byte)) : Sparse (List Byte) :=
        match e.2 with | some d => Sparse.put m e.1 d | none => m
      let new := { old with blocks := bs.foldl keep old.blocks, mask := x.mask, badCrc := decide (bad ≠ []) }
      let s1 := s.hubCount h HR.BLOCK_CRC_ERR bad.length
      match s1.rxDeliver h { f with held := Sparse.put f.held x.seq new } 65 with
      | (s2, f1) =>
        let every := clampTo 1 31 ((s.hub h).regs.inForce HR.ACK_EVERY)
        let s3 := s2.setRx h f1
        let s4 := if every ≤ f1.since ∨ x.ackNow ∨ x.flow ≤ 1 then s3.sendAck h f1 else s3
        match s4.rxFlow h f1.node f1.flow with
        | some f2 => s4.sendNak h f2
        | none => s4

/-! ### Re-sending (R323) -/

/-- RETX_LIMIT in force. -/
def State.retxLimit (s : State) (h : Nat) : Nat := clampTo 4 255 ((s.hub h).regs.inForce HR.RETX_LIMIT)

/-- A flow goes to a port: its rate starts anew and every unacknowledged packet is sent again there. -/
def State.onPort (s : State) (h p : Nat) (f : TxFlow) : State :=
  let again : List TxPkt := f.unacked.map fun k => { k with resent := 0 }
  let f1 := { f with port := p, rate := s.macRate p, alpha := 1, unacked := again }
  f1.unacked.foldl (fun s k => s.transmit h f1 k true (2 ^ blockCount k.msg.body.length - 1)) (s.setTx h f1)

/-- A flow whose packet was re-sent RETX_LIMIT times moves to the next UP port that it has not tried, or its peer is
unreachable; flows 0 and 1 never move (R323). -/
def State.moveFlow (s : State) (h : Nat) (f : TxFlow) : State :=
  let tried := f.tried ++ [f.port]
  let ps := s.upPorts h f.node
  let order := ps.filter (fun p => decide (f.port < p)) ++ ps.filter (fun p => decide (p ≤ f.port))
  match (if f.flow ≤ 1 then none else order.find? fun p => !tried.contains p) with
  | some p => s.onPort h p { f with tried := tried }
  | none =>
    let again : List TxPkt := f.unacked.map fun k => { k with resent := 0 }
    (s.setTx h { f with tried := [], unacked := again }).peerUnreachable h f.node f.flow

/-- Blocks of an unacknowledged packet re-sent, or the flow moved if that packet has reached its limit. -/
def State.txResend (s : State) (h node flow seq mask : Nat) : State :=
  match s.txFlow h node flow with
  | none => s
  | some f =>
    match f.unacked.find? fun k => k.seq = seq with
    | none => s
    | some k =>
      if s.retxLimit h ≤ k.resent then s.moveFlow h f
      else
        let one (x : TxPkt) : TxPkt := if x.seq = seq then { x with resent := x.resent + 1 } else x
        let f1 := { f with unacked := f.unacked.map one }
        (s.setTx h f1).transmit h f1 k true (mask &&& (2 ^ blockCount k.msg.body.length - 1))

/-! ### Pacing (R325) -/

/-- RAISE_US in CCLK, at 1.05 GHz. -/
def Hub.raiseTime (u : Hub) : Nat := clampTo 2 255 (u.regs.inForce HR.RAISE_US) * 1050
/-- 2^G_SHIFT. -/
def Hub.gain (u : Hub) : Rat := ((2 ^ clampTo 1 10 (u.regs.inForce HR.G_SHIFT) : Nat) : Rat)
/-- Rate and alpha after a cut. -/
def Hub.cutRate (u : Hub) (rate alpha : Rat) : Rat × Rat :=
  let a := alpha + (1 - alpha) / u.gain
  let r := rate * (1 - a / 2)
  let low : Rat := (clampTo 1 100 (u.regs.inForce HR.RATE_MIN) : Nat)
  (if r < low then low else r, a)
/-- Rate and alpha after a raise, the rate bounded by the port's. -/
def Hub.raiseRate (u : Hub) (rate alpha : Rat) (port : Nat) : Rat × Rat :=
  let r := rate + (clampTo 1 100 (u.regs.inForce HR.RATE_AI) : Nat)
  (if (port : Rat) < r then (port : Rat) else r, alpha - alpha / u.gain)

/-- A flow's pacing on an ACK's CE_COUNT. -/
def TxFlow.onAck (f : TxFlow) (u : Hub) (now ce : Nat) : TxFlow :=
  if ce = 0 ∨ f.flow ≤ 1 then f
  else if 2 * (now - f.cut) < u.raiseTime then { f with mark := now }
  else match u.cutRate f.rate f.alpha with | (r, a) => { f with rate := r, alpha := a, cut := now, mark := now }

/-! ### Acknowledgements (R322, R323) -/

/-- A message of a reduction slot is acknowledged (R246). -/
def State.redAcked (s : State) (m : TxMsg) : State :=
  match m.slot with
  | none => s
  | some slot =>
    match s.redSlot slot with
    | none => s
    | some z =>
      if z.running && decide (z.job.gen = m.jobGen) && decide (z.job.jobId = m.jobId) then
        (s.updRed slot fun z => { z with unacked := z.unacked - 1 }).redProgress slot
      else s

/-- An ACK for a copy of a tick report is held (R330). -/
def State.reportAcked (s : State) (m : TxMsg) : State :=
  if m.typ ≠ 4 then s
  else
    let tick := leNat (m.body.take 8)
    s.updMd fun x => { x with reportDue := x.reportDue.map fun e => if e.1 = tick then (tick, true) else e }

/-- Packets that ACK_SEQ or a SACK bit covers are released. -/
def State.release (s : State) (h : Nat) (f : TxFlow) (ackSeq sack : Nat) : State :=
  let covered (k : TxPkt) : Bool :=
    let d := (k.seq + 2 ^ 32 - (ackSeq + 1) % 2 ^ 32) % 2 ^ 32
    decide (2 ^ 31 ≤ d) || (decide (d < 64) && sack.testBit d)
  let s1 := s.setTx h { f with unacked := f.unacked.filter fun k => !covered k }
  (f.unacked.filter covered).foldl (fun s k => (s.redAcked k.msg).reportAcked k.msg) s1

/-- The body of an ACK or NAK, whose blocks are good. -/
def Header.ctlBody (x : Header) (b : List Byte) : Option (List Byte) :=
  let bs := x.blocks b
  if bs.length = blockCount x.len ∧ bs.all (fun e => e.2.isSome) then some (bs.flatMap fun e => e.2.getD []) else none

/-- An ACK applied to its flow. -/
def State.rxAck (s : State) (h : Nat) (x : Header) (body : List Byte) : State :=
  match s.txFlow h x.src x.flow with
  | none => s
  | some f =>
    let n (a len : Nat) : Nat := leNat ((body.drop a).take len)
    let s1 := s.release h { f.onAck (s.hub h) s.now (n 4 4) with peerGen := some x.gen } (n 0 4) (n 8 8)
    (s1.pump h x.src x.flow 64).ringRun

/-- A NAK applied to its flow: the named blocks are re-sent at once. -/
def State.rxNak (s : State) (h : Nat) (x : Header) (body : List Byte) : State :=
  match s.txFlow h x.src x.flow with
  | none => s
  | some f =>
    let n (a len : Nat) : Nat := leNat ((body.drop a).take len)
    let s1 := s.release h { f with peerGen := some x.gen } (n 0 4) 0
    let s2 := (List.range (n 4 2)).foldl (fun s i => s.txResend h x.src x.flow (n (8 + 8 * i) 4) (n (12 + 8 * i) 1)) s1
    (s2.pump h x.src x.flow 64).ringRun

/-! ### A packet arrives (R321) -/

/-- What the first checks of a packet find (R321). -/
inductive Checked1 where
  | bad
  | drop
  | ok (x : Header)
  deriving DecidableEq, Repr

/-- The header checks. -/
def State.headerCheck (s : State) (b : List Byte) : Checked1 :=
  let x := Header.ofBytes b
  if b.length < 32 ∨ leNat ((b.drop 28).take 4) ≠ crc32c (b.take 28) then .bad
  else if x.version ≠ 1 ∨ 8 ≤ x.typ ∨ x.dst ≠ s.rd MR.NODE_ID ∨ (s.node x.src).isNone ∨ 4096 < x.len then .drop
  else .ok x

/-- The generation of a node's hub that hub `h` knows without a receiving context: as PEER_RESET told it, or as the flow's last ACK or
NAK carried it (R324, R407). -/
def State.knownGen (s : State) (h node flow : Nat) : Option Nat :=
  match (s.hub h).peerGen.find? fun e => e.1 = node with
  | some (_, g) => some g
  | none => (s.txFlow h node flow).bind (·.peerGen)

/-- The receiving context of a packet: a new one, the one there is, a reset one for the next hub generation; none for any other
generation (R324), and none for a data packet where no context is free (R321, log 41). -/
def State.rxContext (s : State) (h p : Nat) (x : Header) : Option RxFlow :=
  let next (g : Nat) : Bool := decide (x.gen = (g + 1) % 256)
  match s.rxFlow h x.src x.flow with
  | none =>
    if x.typ ≠ 1 ∧ x.typ ≠ 2 ∧ flowContexts ≤ (s.hub h).rx.length then none
    else
      match s.knownGen h x.src x.flow with
      | some g => if x.gen = g ∨ next g then some (.fresh x.src x.flow x.gen p) else none
      | none => some (.fresh x.src x.flow x.gen p)
  | some f =>
    if x.gen = f.gen then some { f with port := p }
    else if next f.gen then some (.fresh x.src x.flow x.gen p)
    else none

/-- An expected generation that PEER_RESET told follows the generation accepted. -/
def State.noteGen (s : State) (h : Nat) (x : Header) : State :=
  s.updHub h fun u => { u with peerGen := u.peerGen.map fun e => if e.1 = x.src then (e.1, x.gen) else e }

/-- A Ryudon packet on port `p`, with its CE mark; `typ` tells which types the command that carries it is for. -/
def State.ryudon (s : State) (p : Nat) (ce : Bool) (b : List Byte) (typ : Nat → Bool) : State :=
  let h := p / 9
  let count (f : Fld) : State := s.hubCount h f 1
  if s.portRd p PR.LINK_UP = 0 then s
  else
    match s.headerCheck b with
    | .bad => count HR.HDR_CRC_ERR
    | .drop => count HR.RX_DROPPED
    | .ok x =>
      if !typ x.typ then s
      else
        let s1 := if ce then count HR.CE_RX else s
        match s1.rxContext h p x with
        | none => s1.hubCount h HR.RX_DROPPED 1
        | some f =>
          let s1 := s1.noteGen h x
          if x.typ = 1 ∨ x.typ = 2 then
            let s2 := if (s1.rxFlow h x.src x.flow).isSome then s1.setRx h f else s1
            match x.ctlBody b with
            | none => s2.hubCount h HR.BLOCK_CRC_ERR 1
            | some body => if x.typ = 1 then s2.rxAck h x body else (s2.hubCount h HR.NAK_RX 1).rxNak h x body
          else s1.rxData h ce f x b

/-- RYUDON_DATA: a packet that is neither ACK nor NAK arrives (R321). -/
def execRyudonData (p : Nat) (ce : Bool) (b : List Byte) (s : State) : Out :=
  .next (s.ryudon p ce b fun t => decide (t ≠ 1) && decide (t ≠ 2))
/-- RYUDON_ACK: an ACK arrives (R322). -/
def execRyudonAck (p : Nat) (ce : Bool) (b : List Byte) (s : State) : Out := .next (s.ryudon p ce b fun t => decide (t = 1))
/-- RYUDON_NAK: a NAK arrives (R323). -/
def execRyudonNak (p : Nat) (ce : Bool) (b : List Byte) (s : State) : Out := .next (s.ryudon p ce b fun t => decide (t = 2))

/-! ### Timers of the flows (R321 to R325) -/

/-- RETRANSMIT_TIMEOUT: the re-send time of a packet has passed since it was last sent (R323). -/
def execRetransmitTimeout (h node flow seq : Nat) (s : State) : Out := .next (s.txResend h node flow seq 255).ringRun

/-- ACK_DELAY_EXPIRY: ACK_DELAY has passed on a receiving flow: an ACK that is due is sent, and packets may be named in a NAK
again (R322). -/
def execAckDelayExpiry (h node flow : Nat) (s : State) : Out :=
  .next <| match s.rxFlow h node flow with
  | none => s
  | some f => if f.since = 0 then s.setRx h { f with naked := [] } else s.sendAck h { f with naked := [] }

/-- FLOW_CONTEXT_IDLE: a context without traffic for 1 ms is freed; a sender that waits for one goes on (R321). -/
def execFlowContextIdle (h : Nat) (sending : Bool) (node flow : Nat) (s : State) : Out :=
  .next (State.txLook (s.updHub h fun u => Hub.countFlows <|
    if sending then { u with tx := u.tx.filter fun f =>
      !(decide (f.node = node) && decide (f.flow = flow) && decide (f.unacked = []) && decide (f.queue = [])) }
    else { u with rx := u.rx.filter fun f => !(decide (f.node = node) && decide (f.flow = flow) && decide (f.since = 0)) }) h)

/-! ### Frames for the port itself (R311) -/

/-- A frame of no accepted kind. -/
def State.discardFrame (s : State) (p : Nat) : State := s.hubCount (p / 9) HR.RX_DROPPED 1

/-- ARP_REQUEST: a port answers an ARP request for its own address (R311). -/
def execArpRequest (p : Nat) (mac : BitVec 48) (sender target : BitVec 32) (s : State) : Out :=
  .next <| if s.portRd p PR.LINK_UP = 0 then s
  else if target.toNat = s.portRd p PR.IPV4_ADDR then
    s.emit (.addressReply p (s.nextHop p) true mac.toNat (leBytes 4 sender.toNat))
  else s.discardFrame p

/-- NEIGHBOR_SOLICITATION: a port answers a neighbour solicitation for its own address (R311). -/
def execNeighborSolicitation (p : Nat) (mac : BitVec 48) (sender target : BitVec 128) (s : State) : Out :=
  .next <| if s.portRd p PR.LINK_UP = 0 then s
  else if leBytes 16 target.toNat = s.portAddr p false then
    s.emit (.addressReply p (s.nextHop p) false mac.toNat (leBytes 16 sender.toNat))
  else s.discardFrame p

/-! ### Links (R308, R319) -/

/-- A port begins its training (R309). -/
def State.train (s : State) (p : Nat) : State := ((s.portWr p PR.TRAIN_STATE 1).portWr p PR.LINK_UP 0).portWr p PR.LANES_LOCKED 0

/-- LINK_DOWN_COUNT of a port. -/
def State.downCount (s : State) (p : Nat) : State :=
  s.countHub (p / 9) (portFld p PR.LINK_DOWN_COUNT) (portFld p PR.DOWN_SAT)

/-- The flows of a port that leaves UP are bound again among the ports that are left; flows 0 and 1 stay (R319, R323). -/
def State.rebind (s : State) (p : Nat) : State :=
  let h := p / 9
  ((s.hub h).tx.filter fun f => decide (f.port = p) && decide (2 ≤ f.flow)).foldl (fun s f =>
    let ps := s.upPorts h f.node
    match ps[(f.flow + f.node) % ps.length]? with
    | some q => s.onPort h q f
    | none => s.peerUnreachable h f.node f.flow) s

/-- A port leaves UP: TRAIN_STATE becomes `state`, and its flows move. -/
def State.linkDown (s : State) (p state : Nat) : State :=
  let s1 := ((((s.portWr p PR.LINK_UP 0).portWr p PR.TRAIN_STATE state).portWr p PR.LANES_LOCKED 0).markTopo).downCount p
  ((s1.rebind p).refPort p false).ringRun

/-- LINK_DOWN: port `p` leaves UP; it trains again (R309, R319). -/
def execLinkDown (p : Nat) (s : State) : Out := .next (if s.portRd p PR.LINK_UP = 0 then s else s.linkDown p 1)

/-! ### Tick reports at the master (R328 to R330) -/

/-- TICK_REPORT: message `i` at hub `h` is a tick report: the master accepts the first of its member and tick (R329). -/
def execTickReport (h i : Nat) (s : State) : Out :=
  .next <| match s.takeMsg h i fun m => decide (m.typ = 4) with
  | none => s
  | some (m, s1) =>
    match (if s.isMaster then s.node m.node else none) with
    | none => s1
    | some e =>
      if !e.member then s1
      else
        let n (a len : Nat) : Nat := leNat ((m.body.drop a).take len)
        (s1.acceptReport e.index (n 0 8) (n 12 4) (n 8 1)).masterLook (n 0 8)

/-- MISSING_REPORT_EXPIRY: MISSING_LIMIT_US after the master accepted the first report of a tick, a member's is missing (R329). -/
def execMissingReportExpiry (member tick : Nat) (s : State) : Out :=
  .next <| if !s.isMaster || !(s.md.reports.any fun r => decide (r.1 = tick)) || s.md.reports.contains (tick, member) ||
      s.md.missing.contains (tick, member) || (s.memberNode member).isNone then s
    else
      (((s.updMd fun m => { m with missing := m.missing ++ [(tick, member)] }).countSat MR.REPORTS_LATE MR.LATE_SAT).postEvent
        (groupEvent 2 member 0 tick ((s.memberNode member).getD 0) 0)).ringRun

/-- REPORT_WINDOW_EXPIRY: REPORT_WINDOW_NS after local completion the oldest window ends: FLT_TICK_REPORT_LATE where the module holds no
ACK for either copy of that report (R330). -/
def execReportWindowExpiry (s : State) : Out :=
  .next <| match s.md.reportDue with
  | [] => s
  | (tick, acked) :: l =>
    let s1 := s.updMd fun m => { m with reportDue := l }
    if acked then s1 else (s1.noteLate true s.groupIndex tick 0xFFFFFFFF).logFault logTickReportLate 3 0

/-! ### MGMT (R331, R342) -/

/-- MGMT: message `i` at hub `h` is posted to the ring it names; where that is full, or an earlier post to it waits, it waits for
room, or is dropped (R331, log 65). -/
def execMgmt (h i : Nat) (s : State) : Out :=
  .next <| match s.takeMsg h i fun m => decide (m.typ = 6) with
  | none => s
  | some (m, s1) =>
    let ring := leNat (m.body.take 4) % 2 ^ 18
    let tag := leNat ((m.body.drop 4).take 4)
    let msg := m.body.drop 8
    let wait : State :=
      if (s1.hub h).mgmtWait.length < 64 then s1.updHub h fun u => { u with mgmtWait := u.mgmtWait ++ [.msg ring tag msg] }
      else s1.hubCount h HR.RING_DROPPED 1
    if m.body.length < 8 then s1.hubCount h HR.RING_DROPPED 1
    else if (s1.hub h).mgmtWait.any fun p => match p with | .msg r _ _ => decide (r = ring) | .fault _ => false then wait
    else match s1.ringPost ring tag msg with | (.full, _) => wait | (_, s2) => s2

/-- MGMT_RING_WAIT_EXPIRY: post `i` that waits at hub `h` was not placed within RING_WAIT_US (R331). -/
def execMgmtRingWaitExpiry (h i : Nat) (s : State) : Out :=
  .next (if i < (s.hub h).mgmtWait.length then
    (s.updHub h fun u => { u with mgmtWait := u.mgmtWait.eraseIdx i }).hubCount h HR.RING_DROPPED 1 else s)

end Sys2Proof.Machine
end

