-- ==== Sys2Proof/Machine/Domains.lean ====
section
/-!
DEFINITION. The switched power domains (13): their prerequisites, requests and ramps; and the connectors' cables (16).
-/
namespace Sys2Proof.Machine

/-! ### The domains (R356, R357) -/

/-- DOM_STATE of a domain that is OFF. -/
def domOff : Nat := 0
/-- See `domOff`. -/
def domRampOn : Nat := 1
/-- See `domOff`. -/
def domOn : Nat := 2
/-- See `domOff`. -/
def domRampOff : Nat := 3
/-- See `domOff`. -/
def domPending : Nat := 4
/-- See `domOff`. -/
def domFailed : Nat := 5

/-- A LINKj domain. -/
def domIsLink (d : Nat) : Bool := decide (224 ≤ d) && decide (d < 248) && decide (3 ≤ (d - 224) % 6)

/-- The domain that must be ON for a domain to come up. -/
def domNeeds (d : Nat) : Option Nat :=
  if d < 224 then
    match d % 4 with | 0 => some (d + 2) | 1 => some (d - 1) | 2 => some (d + 1) | _ => none
  else if d < 248 then if (d - 224) % 6 = 0 then none else some (224 + (d - 224) / 6 * 6)
  else some (225 + (d - 248) / 4 * 6)

/-- The missing prerequisites of a domain and the domain itself, in the order in which they come up. -/
def domChain : Nat → Nat → List Nat
  | 0, d => [d]
  | k + 1, d => match domNeeds d with | some p => domChain k p ++ [d] | none => [d]

/-- The stacks of a hub as domains. -/
def domStacks (h : Nat) : List Nat := (List.range 4).map (248 + 4 * h + ·)

/-- Every domain that needs a domain, in the order in which they go down. -/
def domUsers (d : Nat) : List Nat :=
  if d < 224 then
    match d % 4 with | 0 => [d + 1] | 1 => [] | 2 => [d - 1, d - 2] | _ => [d - 2, d - 3, d - 1]
  else if d < 248 then
    match (d - 224) % 6 with
    | 0 => domStacks ((d - 224) / 6) ++ [d + 1, d + 2, d + 3, d + 4, d + 5]
    | 1 => domStacks ((d - 224) / 6)
    | _ => []
  else []

/-- A domain's state changed. -/
def State.setDom (s : State) (d v : Nat) : State := s.updMd fun m => { m with pw := { m.pw with doms := Sparse.set 0 m.pw.doms d v } }

/-- The ports of a connector (R310). -/
def portsOf (c : Nat) : List Nat := [3 * c, 3 * c + 1, 3 * c + 2]
/-- The connector of a LINKj domain. -/
def connectorOf (d : Nat) : Nat := (d - 224) / 6 * 3 + ((d - 224) % 6 - 3)
/-- The LINKj domain of a connector. -/
def linkDomain (c : Nat) : Nat := 227 + 6 * (c / 3) + c % 3

/-- CABLE_PRESENT of a connector (R436). -/
def State.cable (s : State) (c : Nat) : Bool := (s.rd MR.CABLE_PRESENT_LO + 2 ^ 8 * s.rd MR.CABLE_PRESENT_HI).testBit c

/-- A port of a connector trains, or is OFF, as its cable, its domain and its LANE_RATE say (R308, R357, R436). -/
def State.trainPort (s : State) (p : Nat) : State :=
  if s.portRd p PR.LANE_RATE ≠ 0 ∧ s.cable (p / 3) ∧ s.dom (linkDomain (p / 3)) = domOn then s.train p else s

/-- A port goes OFF. -/
def State.portOff (s : State) (p : Nat) : State :=
  if s.portRd p PR.LINK_UP = 1 then s.linkDown p 0 else (s.portWr p PR.TRAIN_STATE 0).portWr p PR.LANES_LOCKED 0

/-- LANE_RATE of a port has changed: with its lanes off the port is OFF, and in a new mode it trains (R308, R309). -/
def State.laneRateSet (s : State) (p : Nat) : State :=
  if s.portRd p PR.LANE_RATE = 0 then s.portOff p
  else (if s.portRd p PR.LINK_UP = 1 then s.linkDown p 0 else s).trainPort p

/-! ### What a domain's ramps do to its contents (R102, R357) -/

/-- The cores of a region changed. -/
def State.regionCores (s : State) (r : Nat) (f : Core → Core) : State :=
  { s with cores := s.cores.map fun (e : Nat × Core) => if regionOf e.1 = r then (e.1, f e.2) else e }

/-- The registers of an address range at their reset values. -/
def Regs.dropRange (r : Regs) (a b : Nat) : Regs :=
  let out (e : Nat × Nat) : Bool := decide (e.1 / 32 < a) || decide (b ≤ e.1 / 32)
  ⟨r.cur.filter out, r.force.filter out⟩

/-- The scratchpad written with zeros (R102). -/
def Core.zeroSpad (c : Core) : Core := { c with spad := [], single := [], double := [], writebacks := [] }
/-- What the CORE domain holds of a core: threads, DMA engine, compressor and context storage, with their registers (log 19). -/
def Core.loseCore (c : Core) : Core :=
  { c with threads := [], slots := [], dma := .reset, comp := .reset, lastIssued := 0, memWait := [], fillerDuty := 0,
           regs := (((c.regs.dropRange 0 0x200).dropRange 0x310 0x330).dropRange 0x400 0x500).dropRange 0x900 0x1000 }
/-- What the ENGINE domain holds: the cell arrays, with their registers. -/
def Core.loseEngine (c : Core) : Core :=
  { c with eng := .reset, regs := (c.regs.dropRange 0x300 0x310).dropRange 0x330 0x400 }
/-- What the SRAM domain holds: the scratchpad, with its registers. -/
def Core.loseSram (c : Core) : Core := { c.zeroSpad with regs := c.regs.dropRange 0x200 0x220 }
/-- What the TRANSIT domain holds of a core: router, bezel tables, queues with their combining buffers, signals, clasps and
hallmark state. -/
def Core.loseTransit (c : Core) : Core :=
  { c with router := .reset, bezels := [], shadows := [], bzOut := [], lane := [], heldArr := [], queues := [], routes := [],
           hold := [], clasps := [], claspIn := [], ctrlOut := [], early := [],
           regs := (c.regs.dropRange 0x220 0x300).dropRange 0x500 0x900 }

/-- What a hub's LOGIC domain holds: edge ports, translation, transport, with their registers. HUB_GEN goes on (log 19). -/
def Hub.loseLogic (u : Hub) : Hub :=
  let regs := ((u.regs.dropRange 0x500000 0x600000).dropRange 0x840000 0x880000).wr HR.HUB_GEN (u.rd HR.HUB_GEN)
  Hub.countFlows { u with regs := regs, edgeIn := [], edgeOut := [], links := [], cache := [], walks := [], held := [], walkCache := [], tx := [],
                          rx := [], msgs := [], mgmtWait := [], txWait := [], peerGen := [] }
/-- What a hub's MEMCTL domain holds: its memory controllers, with their registers. -/
def Hub.loseMemctl (u : Hub) : Hub := { u with regs := u.regs.dropRange 0x100000 0x500000, ready := [], scrub := [], training := [] }

/-- A stack loses what it holds: its bytes read as those that nothing has written (log 19). -/
def State.loseStack (s : State) (t : Nat) : State :=
  let mine (a : Nat) : Bool := decide (hubOf a = t / 4) && decide (stackOf a = t % 4)
  ({ s with hbm := s.hbm.filter fun e => !mine e.1, hbmFail := s.hbmFail.filter fun e => !mine (64 * e.1),
            hbmCrc := s.hbmCrc.filter fun e => !mine (64 * e.1) }).updHub (t / 4) fun u => u.wr (ctl (t % 4) KR.TRAINED) 0

/-- The links with an end that has lost power begin anew at both ends. -/
def State.dropLinks (s : State) (p : LinkEnd → Bool) : State :=
  let up (e : LinkEnd) : Bool := !p e && (match s.peer e with | some x => !p x | none => true)
  let core (e : Nat × Core) : Nat × Core :=
    (e.1, { e.2 with router := { e.2.router with links := e.2.router.links.filter fun l => up (.core e.1 l.1) } })
  let hub (e : Nat × Hub) : Nat × Hub := (e.1, { e.2 with links := e.2.links.filter fun l => up (.hub e.1 l.1) })
  { s with cores := s.cores.map core, hubs := s.hubs.map hub }

/-- A domain is OFF: its contents are lost. A job lies in the engines of all four hubs (R238), so one hub's loss ends it
(log 19). -/
def State.offEffects (s : State) (d : Nat) : State :=
  if d < 224 then
    match d % 4 with
    | 0 => s.regionCores (d / 4) Core.loseCore
    | 1 => s.regionCores (d / 4) Core.loseEngine
    | 2 => s.regionCores (d / 4) Core.loseSram
    | _ => (s.regionCores (d / 4) Core.loseTransit).dropLinks fun e =>
        match e with | .core n _ => decide (regionOf n = d / 4) | .hub _ _ => false
  else if d < 248 then
    let h := (d - 224) / 6
    match (d - 224) % 6 with
    | 0 => (s.updHub h Hub.loseLogic).dropLinks fun e => match e with | .core _ _ => false | .hub x _ => decide (x = h)
    | 1 => s.updHub h Hub.loseMemctl
    | 2 => (s.updMd fun m => { m with slots := [], jobCheck := none }).updHub h fun u => { u with regs := u.regs.dropRange 0x880000 0x900000 }
    | _ => s
  else s.loseStack (d - 248)

/-- A domain is ON: an SRAM domain is initialised, cores decide the context loads that waited, the ports of a LINKj train, and a
stack's interface trains, which during bring-up stage 7 does (R102, R357, R387). -/
def State.onEffects (s : State) (d : Nat) : State :=
  if d < 224 then
    match d % 4 with
    | 0 => s.cores.foldl (fun s e => if regionOf e.1 = d / 4 then s.decideLoad e.1 else s) s
    | 2 => s.regionCores (d / 4) Core.zeroSpad
    | _ => s
  else if d < 248 then
    if domIsLink d then (portsOf (connectorOf d)).foldl (fun s p => s.trainPort p) s else s
  else if s.rd MR.MOD_STATE = 0 then s
  else s.updHub ((d - 248) / 4) fun u => u.wr (ctl ((d - 248) % 4) KR.TRAINED) 1

/-! ### Requests (R357, R359) -/

/-- The ramp down of a domain begins: the ports of a LINKj go down (R358). -/
def State.rampDown (s : State) (d : Nat) : State :=
  let s1 := s.setDom d domRampOff
  if domIsLink d then (portsOf (connectorOf d)).foldl (fun s p => s.portOff p) s1 else s1

/-- The domain that a domain needs is ON. -/
def State.domFed (s : State) (d : Nat) : Bool := match domNeeds d with | some p => decide (s.dom p = domOn) | none => true
/-- No domain that needs a domain is ON or on its way. -/
def State.domFree (s : State) (d : Nat) : Bool :=
  (domUsers d).all fun u => decide (s.dom u = domOff) || decide (s.dom u = domFailed)

/-- A request applied to a domain under the table of R359; `none` where it waits for another domain. -/
def State.domTry (s : State) (d : Nat) (on : Bool) : Option State :=
  let v := s.dom d
  if on then
    if v = domOff then (if s.domFed d then some (s.setDom d domRampOn) else none)
    else if v = domRampOff then some (s.setDom d domPending)
    else some s
  else if v = domOn then (if s.domFree d then some (s.rampDown d) else none)
  else if v = domRampOn ∨ v = domPending then some (s.rampDown d)
  else some s

/-- The requests that wait are tried, in order. -/
def State.domLook (s : State) : State :=
  let w := s.md.pw.domWait
  let keep (s : State) (x : Nat × Bool) : State := s.updMd fun m => { m with pw := { m.pw with domWait := m.pw.domWait ++ [x] } }
  w.foldl (fun s x => match s.domTry x.1 x.2 with | some s1 => s1 | none => keep s x)
    (s.updMd fun m => { m with pw := { m.pw with domWait := [] } })

/-- A request joins those that wait; it replaces one for the same domain (R359). -/
def State.domAdd (s : State) (d : Nat) (on : Bool) : State :=
  s.updMd fun m => { m with pw := { m.pw with domWait := m.pw.domWait.filter (fun x => decide (x.1 ≠ d)) ++ [(d, on)] } }

/-- After a thermal shutdown every domain stays off until a module reset (R374). -/
def State.heldOff (s : State) : Bool := decide (s.rd MR.THERMAL_SHUTDOWN = 1)

/-- An ON request brings up the prerequisites first, an OFF request takes down the dependants first (R357). -/
def State.domRequest (s : State) (d : Nat) (on : Bool) : State :=
  if on && s.heldOff then s
  else ((if on then domChain 4 d else domUsers d ++ [d]).foldl (fun s x => s.domAdd x on) s).domLook

/-! ### DOM_CMD (R358, R359) -/

/-- A DOM_CMD that is refused with BUSY: for another domain than a LINK's unless RUN_STATE is HALTED (R358). -/
def State.domBusy (s : State) (act d : Nat) : Bool :=
  (decide (act = 1) || decide (act = 2)) && decide (d < 264) && !domIsLink d && decide (s.runState ≠ rsHalted)

/-- DOM_CMD written. -/
def State.domCmd (s : State) (who : Requester) (id act d : Nat) : State :=
  if act ≠ 1 ∧ act ≠ 2 then s
  else
    let result (v : Nat) (s : State) : State := s.wrs [(MR.DOM_RESULT_NUM, d), (MR.DOM_RESULT, v)]
    if 264 ≤ d then result 2 s
    else if s.domBusy act d then (result 1 s).busyWrite who id 0x7FFF00000760
    else if ((domChain 4 d).any fun x => decide (s.dom x = domFailed)) || (decide (act = 1) && s.heldOff) then result 3 s
    else result 0 (s.domRequest d (decide (act = 1)))

/-- DOMAIN_ON: DOM_CMD ON (R359). -/
def execDomainOn (host : Bool) (id : BitVec 16) (d : BitVec 9) (s : State) : Out :=
  .next (s.domCmd (hostOrMp host) id.toNat 1 d.toNat)
/-- DOMAIN_OFF: DOM_CMD OFF (R359). -/
def execDomainOff (host : Bool) (id : BitVec 16) (d : BitVec 9) (s : State) : Out :=
  .next (s.domCmd (hostOrMp host) id.toNat 2 d.toNat)

/-! ### Ramps (R357, R359, R360) -/

/-- The ramp of a domain completes. -/
def State.rampDone (s : State) (d : Nat) : State :=
  let v := s.dom d
  if v = domRampOn then ((s.setDom d domOn).onEffects d).domLook
  else if v = domRampOff then ((s.setDom d domOff).offEffects d).domLook
  else if v = domPending then (((s.setDom d domOff).offEffects d).domAdd d true).domLook
  else s

/-- DOMAIN_RAMP_DONE: the ramp of domain `d` completes (R357). -/
def execDomainRampDone (d : Nat) (s : State) : Out := .next (s.rampDone d)

/-- The rail of a domain that ramps on is not in regulation: the domain is FAILED (R360). -/
def State.railFail (s : State) (d : Nat) : State :=
  if s.dom d ≠ domRampOn then s
  else
    let s1 := s.setDom d domFailed
    let s2 := if s1.rd MR.PD_VALID = 0 then s1.wrs [(MR.PD_VALID, 1), (MR.PD_NUM, d)] else s1
    if s.runState = rsRunning then s2.sendAbort (.ofModule d logPowerDomain) else s2.logFault logPowerDomain 3 d

/-- DOMAIN_REGULATION_TIMEOUT: the rail of domain `d` is not in regulation within twice its on ramp (R360). -/
def execDomainRegulationTimeout (d : Nat) (s : State) : Out := .next (s.railFail d)

/-! ### Cables (R436) -/

/-- CABLE_PRESENT_CHANGE: the pin of connector `c` changes: its ports train, or are OFF (R436). -/
def execCablePresentChange (c : Nat) (present : Bool) (s : State) : Out :=
  let bits := setBit (s.rd MR.CABLE_PRESENT_LO + 2 ^ 8 * s.rd MR.CABLE_PRESENT_HI) c present
  let s1 := s.wrs [(MR.CABLE_PRESENT_LO, bits), (MR.CABLE_PRESENT_HI, bits / 2 ^ 8)]
  .next ((portsOf c).foldl (fun s p =>
    if !present then s.portOff p
    else if s.portRd p PR.TRAIN_STATE = 0 then s.trainPort p
    else s) s1)

end Sys2Proof.Machine
end

