-- ==== Sys2Proof/Machine/Power.lean ====
section
/-!
DEFINITION. Current limits, the power cap and load filler (13).
-/
namespace Sys2Proof.Machine

/-! ### Rails (R361)

Rails 0 to 55 are VR_r, 56 + h VM_h, 60 + h VL_h, 64 + h VH_h. -/

/-- The sum of the last `k` samples. -/
def lastSum (k : Nat) (l : List Nat) : Nat := (l.take k).foldl (· + ·) 0
/-- The samples of a rail, newest first. -/
def State.rail (s : State) (i : Nat) : List (Nat × Nat) := Sparse.get [] s.md.pw.rails i
/-- A rail's average power over the last 5 µs in mW. -/
def State.railP5 (s : State) (i : Nat) : Rat := (lastSum 5 ((s.rail i).map (·.2)) : Nat) / 5
/-- A rail's average current over the last 5 µs in mA. -/
def State.railI5 (s : State) (i : Nat) : Rat := (lastSum 5 ((s.rail i).map (·.1)) : Nat) / 5
/-- The sum of the average powers of several rails. -/
def State.railsP5 (s : State) (l : List Nat) : Rat := l.foldl (fun a i => a + s.railP5 i) 0
/-- Whole watts of a power in mW. -/
def wattsOf (p : Rat) : Nat := (p / 1000).floor.toNat

/-- The limit in mA of a rail for its average over `k` µs. -/
def State.railLimit (s : State) (i k : Nat) : Nat :=
  if i < 56 then
    1000 * clampTo 100 1000 ((s.region i).regs.inForce (match k with | 1 => RR.RAIL_I1_A | 2 => RR.RAIL_I2_A | _ => RR.RAIL_I5_A))
  else Config.railLimit i k
/-- One of a rail's three averages is above its limit. -/
def State.breach (s : State) (i : Nat) : Bool :=
  [1, 2, 5].any fun k => decide (k * s.railLimit i k < lastSum k ((s.rail i).map (·.1)))

/-! ### Shares (R363) -/

/-- The compute budget B in mW; it is not below zero. -/
def State.budget (s : State) : Rat :=
  let b := (s.md.pw.capMilli : Rat) - s.railsP5 ((List.range 12).map (56 + ·)) -
    s.railsP5 ((List.range 56).filter fun r => s.eclipsed r)
  if b < 0 then 0 else b
/-- WEIGHT of a region. -/
def State.weight (s : State) (r : Nat) : Nat := max 1 ((s.region r).regs.inForce RR.WEIGHT)
/-- The share S_r in mW of a region that is not eclipsed. -/
def State.share (s : State) (budget : Rat) (r : Nat) : Rat :=
  let w := ((List.range 56).filter fun i => !s.eclipsed i).foldl (fun a i => a + s.weight i) 0
  if s.eclipsed r then 0 else budget * (s.weight r : Nat) / (max 1 w : Nat)

/-- CCLK_RESTORE_US, clamped. -/
def State.restoreUs (s : State) : Nat := clampTo 5 10000 (s.md.regs.inForce MR.CCLK_RESTORE_US)

/-! ### The region's response (R362) -/

/-- LIMIT_D steps slower, bounded by A. -/
def Region.limitStep (g : Region) : Region :=
  let g1 := g.wr RR.LIMIT_D (min g.autoFloor (stepTo (max (g.rd RR.LIMIT_D) (g.rd RR.CCLK_D)) 255))
  { g1 with pw := { g1.pw with limitAge := 0 } }

/-- FILLER_DUTY of region `r` as it now is, sent to every core of the region if it has changed (R366). -/
def Region.setDuty (g : Region) (r v : Nat) : Region :=
  if g.rd RR.FILLER_DUTY = v then g
  else
    { g.wr RR.FILLER_DUTY v with dutySent := g.dutySent + 1, duties := g.duties ++ [(g.dutySent + 1, ⟨3, r, regionSrc r, 0, .duty v⟩)] }

/-- A breach of the region's rail, or of its share, in this microsecond. -/
def Region.breached (g : Region) (r : Nat) (dwelt byShare : Bool) : Region :=
  let now := decide (g.pw.calm ≠ 0) || decide (g.rd RR.LIMIT_D = 0) || dwelt
  let g0 : Region := { g with regs := g.regs.countSat RR.BREACH_COUNT RR.BREACH_SAT 1 }
  let g1 := g0.setDuty r 0
  let g2 := if now then g1.limitStep else g1
  { g2 with pw := { g2.pw with calm := 0, byShare := byShare, cut := true } }

/-- A microsecond without a breach: LIMIT_D is restored one step if both predictions hold. -/
def Region.restore (g : Region) (dwelt : Bool) (after : Nat) (p5 i5 share : Rat) : Region :=
  let g1 : Region := { g with pw := { g.pw with calm := g.pw.calm + 1 } }
  let target := g.ccTarget
  let d := g.rd RR.CCLK_D
  let d' := stepTo d target
  let q : Rat := (d : Nat) / (d' : Nat)
  let top : Rat := (1000 * clampTo 100 1000 (g.regs.inForce RR.RAIL_I5_A) : Nat)
  if g.rd RR.LIMIT_D ≠ 0 ∧ after ≤ g1.pw.calm ∧ dwelt = true ∧ p5 * q ≤ share * 97 / 100 ∧ i5 * q ≤ top * 97 / 100 then
    let g2 := g1.wr RR.LIMIT_D (if d' = target then 0 else d')
    { g2 with pw := { g2.pw with limitAge := 0 } }
  else g1

/-- Region `r` at a sample of the rails. -/
def State.railRegion (s : State) (budget : Rat) (r : Nat) : State :=
  let share := s.share budget r
  let p5 := s.railP5 r
  let short := !s.eclipsed r && decide (share < p5)
  let hit := s.breach r
  let i5 := s.railI5 r
  let after := s.restoreUs
  let now := (s.rail r).head?.getD (0, 0)
  let run (g : Region) : Region :=
    let g0 : Region := { g with pw := { g.pw with limitAge := g.pw.limitAge + 1 } }
    let g1 := g0.wrs [(RR.RAIL_P_W, now.2 / 1000), (RR.RAIL_I_A, now.1 / 1000), (RR.SHARE_W, wattsOf share)]
    let dwelt := s.dwelt g1.pw.limitAge
    if hit || short then g1.breached r dwelt (!hit) else g1.restore dwelt after p5 i5 share
  s.updRegion r run

/-! ### Hub rails and the cap (R361, R363) -/

/-- Hub `h` at a sample: a breach of VM_h throttles its controllers, one of VL_h or VH_h asserts ALERT. -/
def State.railHub (s : State) (h : Nat) : State :=
  let vm := s.breach (56 + h)
  let vl := s.breach (60 + h)
  let vh := s.breach (64 + h)
  let note (b : Bool) (f flag : Fld) (s : State) : State := if b then s.countHub h f flag else s
  let hold := if vm then s.restoreUs else Sparse.get 0 s.md.pw.vmHold h - 1
  let s1 := note vh HR.VH_BREACH HR.VH_SAT (note vl HR.VL_BREACH HR.VL_SAT (note vm HR.VM_BREACH HR.VM_SAT s))
  let s2 := if vl || vh then s1.wr MR.RAIL_BREACH 1 else s1
  (s2.updMd fun m => { m with pw := { m.pw with vmHold := Sparse.set 0 m.pw.vmHold h hold } }).updHub h fun u =>
    u.wrs [(HR.P_VL_W, wattsOf (s.railP5 (60 + h))), (HR.P_VH_W, wattsOf (s.railP5 (64 + h))),
           (HR.P_VM_W, wattsOf (s.railP5 (56 + h)))]

/-- MEM_THROTTLED of every hub. -/
def State.memThrottled (s : State) : State :=
  (List.range 4).foldl (fun s h => s.updHub h fun u =>
    u.wr HR.MEM_THROTTLED (b2n (decide (s.rd MR.MEM_THROTTLE = 1) || decide (Sparse.get 0 s.md.pw.vmHold h ≠ 0)))) s

/-- Every region that is not eclipsed has CCLK at A. -/
def State.atFloor (s : State) : Bool :=
  (List.range 56).all fun r => s.eclipsed r || decide ((s.region r).autoFloor ≤ (s.region r).rd RR.CCLK_D)

/-- The cap on the input power: with every region at its floor memory is throttled, and CAP_UNMET if that is not enough (R363,
log 20). -/
def State.capLook (s : State) : State :=
  let pIn : Rat := (lastSum 5 s.md.pw.pin : Nat) / 5
  let cap : Rat := (s.md.pw.capMilli : Nat)
  let hot := decide (s.rd MR.MEM_THROTTLE = 1)
  let overUs := if cap < pIn ∧ (hot ∨ s.atFloor) then s.md.pw.overUs + 1 else 0
  let underUs := if pIn ≤ cap * 95 / 100 then s.md.pw.underUs + 1 else 0
  let put (o u : Nat) (s : State) : State := s.updMd fun m => { m with pw := { m.pw with overUs := o, underUs := u } }
  let s1 := s.wr MR.P_IN_W (wattsOf pIn)
  if hot then
    if s.restoreUs ≤ underUs then (put 0 0 s1).wr MR.MEM_THROTTLE 0
    else if 5 ≤ overUs then (put overUs underUs s1).wr MR.CAP_UNMET 1
    else put overUs underUs s1
  else if 5 ≤ overUs then (put 0 0 s1).wr MR.MEM_THROTTLE 1
  else put overUs 0 s1

/-- RAIL_SAMPLE: every 1 µs. `rails`: the 1 µs averages of the 68 rails, in mA and mW; `pin`: that of the input power, in mW
(R361 to R363). -/
def execRailSample (rails : List (Nat × Nat)) (pin : Nat) (s : State) : Out :=
  let add (m : Sparse (List (Nat × Nat))) (i : Nat) : Sparse (List (Nat × Nat)) :=
    Sparse.set [] m i ((nth (0, 0) rails i :: Sparse.get [] m i).take 5)
  let s1 := s.updMd fun m =>
    { m with pw := { m.pw with rails := (List.range 68).foldl add m.pw.rails, pin := (pin :: m.pw.pin).take 5 } }
  let b := s1.budget
  let s2 := (List.range 4).foldl (fun s h => s.railHub h) ((List.range 56).foldl (fun s r => s.railRegion b r) s1)
  let sum (i : Nat) : Nat := wattsOf (s1.railsP5 ((List.range 4).map (i + ·)))
  let bound := (List.range 56).any fun r => decide ((s2.region r).rd RR.LIMIT_D ≠ 0) && (s2.region r).pw.byShare
  let s3 := s2.wrs [(MR.P_MEM_W, sum 56), (MR.P_LINK_W, sum 60), (MR.P_HUB_W, sum 64),
    (MR.P_COMPUTE_W, wattsOf (s1.railsP5 (List.range 56))), (MR.COMPUTE_BUDGET_W, wattsOf b), (MR.CAP_BINDING, b2n bound)]
  .next s3.capLook.memThrottled

/-! ### The cap in force (R364) -/

/-- POWER_CAP_WRITE: a write of POWER_CAP_W: CAP_EFF moves toward the new value from where it stands (R364). -/
def execPowerCapWrite (v : BitVec 16) (s : State) : Out := .next (s.wr MR.POWER_CAP_W v.toNat)

/-- CAP_SLEW_UPDATE: every 1 µs CAP_EFF moves at CAP_SLEW_W watts per ms toward the written cap (R364). -/
def execCapSlewUpdate (s : State) : Out :=
  let want := 1000 * clampTo 5000 27000 (s.rd MR.POWER_CAP_W)
  let slew := clampTo 100 27000 (s.rd MR.CAP_SLEW_W)
  let cap := s.md.pw.capMilli
  let new := if cap < want then min want (cap + slew) else max want (cap - slew)
  .next ((s.updMd fun m => { m with pw := { m.pw with capMilli := new } }).wr MR.CAP_EFF_W (new / 1000))

/-! ### Filler (R365 to R367) -/

/-- The floor F in mW at an age of filler in µs, before the share bounds it. -/
def State.fillFloor (s : State) (pref : Rat) (age : Nat) : Rat :=
  let pct := min 100 (s.md.regs.inForce MR.FILLER_FLOOR_PCT)
  let slope := max 1 (s.md.regs.inForce MR.FILLER_SLOPE)
  pref * (pct * 10000 - slope * age : Nat) / 1000000

/-- Region `r` engages, adjusts or disengages filler. A breach sets the duty to 0 without ending the floor's timeline, so the filler goes
on until its duty has been raised and lowered again, or its floor has come down to 0 (R365, R366; DEDUCED, log 20). -/
def State.fillRegion (s : State) (r : Nat) : State :=
  let now := ((s.rail r).head?.getD (0, 0)).2
  let p1 : Rat := (now : Nat)
  let share := s.share s.budget r
  let span := clampTo 100 10000 (s.md.regs.inForce MR.FILLER_REF_US)
  let want := decide (s.md.regs.inForce MR.FILLER_EN = 1) && !s.eclipsed r
  let run (g : Region) : Region :=
    let mean : Rat := (lastSum span g.pw.window : Nat) / (max 1 (min span g.pw.window.length) : Nat)
    let on := decide (g.rd RR.FILLER_ON = 1)
    let pref : Rat := if on then g.pw.pref else mean
    let age := if on then g.pw.fillAge + 1 else 0
    let full := s.fillFloor pref age
    let floor := if share < full then share else full
    let duty := g.rd RR.FILLER_DUTY
    let g0 : Region := { g with pw := { g.pw with window := (now :: g.pw.window).take 10000, pref := pref, fillAge := age } }
    let g1 := g0.wr RR.PREF_W (wattsOf pref)
    if !want then (g1.setDuty r 0).wrs [(RR.FILLER_ON, 0), (RR.FLOOR_W, 0)]
    else if !on then
      if p1 < s.fillFloor pref 0 then
        Region.wrs { g1 with pw := { g1.pw with cut := false } } [(RR.FILLER_ON, 1), (RR.FLOOR_W, wattsOf floor)]
      else g1
    else
      let g2 : Region := { g1 with regs := g1.regs.count RR.FILLER_US 1 }
      if duty = 0 ∧ floor ≤ p1 ∧ (!g.pw.cut ∨ full = 0) then g2.wrs [(RR.FILLER_ON, 0), (RR.FLOOR_W, 0)]
      else
        let new := if p1 < floor then min 128 (duty + 16) else if floor + pref / 50 < p1 then duty - 16 else duty
        let g3 : Region := { g2 with pw := { g2.pw with cut := g2.pw.cut && decide (new = 0) } }
        (g3.setDuty r new).wr RR.FLOOR_W (wattsOf floor)
  s.updRegion r run

/-- FILLER_UPDATE: every 1 µs region controller `r` looks at its filler (R366). -/
def execFillerUpdate (r : Nat) (s : State) : Out := .next (s.fillRegion r)

/-- FILLER_DUTY: core `n` receives the next FILLER_DUTY message of its region controller (R366, log 80). Filler changes no state that a
program reads (R144, R367). -/
def execFillerDuty (n : Nat) (s : State) : Out :=
  .next <| match (s.region (regionOf n)).duties.find? fun m => decide ((s.core n).dutyTaken < m.1) with
  | none => s
  | some (k, m) =>
    match m.body with
    | .duty v => s.updCore n fun c => { c with fillerDuty := v, dutyTaken := k }
    | _ => s

end Sys2Proof.Machine
end

