-- ==== Sys2Proof/Machine/Thermal.lean ====
section
/-!
DEFINITION. Temperature, eclipse (13), the calibration values in force (15), and the update of the dividers with the ends of an
eclipse's ramps.
-/
namespace Sys2Proof.Machine

/-! ### Calibration (R426) -/

/-- The user offset in force of an item; zero where it has none. -/
def State.calUser (s : State) (cls index : Nat) : Int :=
  match s.md.sec.ucal.find? fun e => decide (e.1 = cls) && decide (e.2.1 = index) with
  | some e => e.2.2
  | none => 0

/-- The applied value of an item: factory plus user, clamped to its class's range. -/
def State.calApplied (s : State) (cls index : Nat) : Int :=
  let v := factoryCal cls index + s.calUser cls index
  match cls with
  | 1 => max 0 (min 255 v)
  | 2 => v
  | 3 => max (-32) (min 32 v)
  | _ => max 0 (min 63 v)

/-! ### Signed temperatures in 1/16 °C -/

/-- The value of a 16-bit signed register. -/
def tempOf (v : Nat) : Int := (BitVec.ofNat 16 v).toInt
/-- A temperature as a 16-bit register holds it. -/
def tempReg (t : Int) : Nat := (BitVec.ofInt 16 t).toNat
/-- Whole °C in 1/16 °C. -/
def degC (c : Nat) : Int := 16 * (c : Int)

/-- THROTTLE_C, clamped. -/
def State.throttleC (s : State) : Nat := clampTo 60 110 (s.md.regs.inForce MR.THROTTLE_C)
/-- HYST_C, clamped. -/
def State.hystC (s : State) : Nat := clampTo 1 20 (s.md.regs.inForce MR.HYST_C)
/-- TRIP_C, clamped. -/
def State.tripC (s : State) : Nat := max (s.throttleC + 5) (clampTo 70 120 (s.md.regs.inForce MR.TRIP_C))
/-- TRIP_CLEAR_C, clamped. -/
def State.tripClearC (s : State) : Nat := clampTo 50 110 (s.md.regs.inForce MR.TRIP_CLEAR_C)

/-! ### Trip and shutdown (R373, R374) -/

/-- Bit `r` of a mask held in two words set to `b`, the last written and the value in force. -/
def State.setMask (s : State) (lo hi : Fld) (r : Nat) (b : Bool) : State :=
  let f := if r < 32 then lo else hi
  s.wr f (setBit (s.rd f) (r % 32) b)

/-- A hard trip of region `r`: FLT_THERMAL_TRIP, and its bits in TRIPPED and in both eclipse masks (R373). -/
def State.trip (s : State) (r : Nat) : State :=
  let s1 := (s.setMask MR.TRIPPED_LO MR.TRIPPED_HI r true).updRegion r fun g => g.wr RR.TRIPPED 1
  let s2 := s1.setMask MR.ECLIPSE_LO MR.ECLIPSE_HI r true
  let now := s.eclForce
  let mask := setBit now r true
  let force (x : Regs) : Regs := (x.setForce MR.ECLIPSE_LO (mask % 2 ^ 32)).setForce MR.ECLIPSE_HI (mask / 2 ^ 32)
  (s2.updMd fun m => { m with regs := force m.regs }).sendAbort (.ofRegion r logThermalTrip)

/-- Every domain switched off (R374, R434). -/
def State.allOff (s : State) : State :=
  ((List.range 56).map (4 * · + 3) ++ (List.range 4).map (224 + 6 * ·)).foldl (fun s d => s.domRequest d false) s

/-- Over-temperature at hub `h`: FLT_THERMAL_SHUTDOWN (R374). -/
def State.shutdown (s : State) (h : Nat) : State :=
  if s.rd MR.THERMAL_SHUTDOWN = 1 then s
  else
    let s1 := (s.wrs [(MR.THERMAL_SHUTDOWN, 1), (MR.THERMAL_SHUTDOWN_2, 1), (MR.MOD_STATE, 4)]).sendAbort
      (.ofModule h logThermalShutdown)
    s1.allOff.sendStatus

/-! ### Samples (R368) -/

/-- A sensor's register, its corrected reading now, and whether it stood at `top` or more at the last two samples. -/
def State.corrected (s : State) (index : Nat) (raw : BitVec 16) : Int := raw.toInt + s.calApplied 2 index

/-- Region `r` samples its nine sensors. -/
def State.sampleRegion (s : State) (r : Nat) (ts : List (BitVec 16)) : State :=
  let new := (List.range 9).map fun k => s.corrected (9 * r + k) (nth 0 ts k)
  let g := s.region r
  let top := degC s.tripC
  let hot := (List.range 9).any fun k =>
    decide (top ≤ tempOf (g.rd (RR.SENSOR_T.at (4 * k)))) && decide (top ≤ nth 0 new k)
  let high := new.tail.foldl max (new.headD 0)
  let g1 := (g.wrs ((List.range 9).map fun k => (RR.SENSOR_T.at (4 * k), tempReg (nth 0 new k)))).wrs
    [(RR.REGION_TEMP, tempReg high), (RR.PEAK_TEMP, tempReg (max high (tempOf (g.rd RR.PEAK_TEMP))))]
  let s1 := s.updRegion r fun _ => g1
  if hot && decide (g.rd RR.TRIPPED = 0) then s1.trip r else s1

/-- Hub `h` samples its two sensors and its four stacks, which report whole °C. -/
def State.sampleHub (s : State) (h : Nat) (ts : List (BitVec 16)) : State :=
  let u := s.hub h
  let t (k : Nat) : Int := s.corrected (504 + 2 * h + k) (nth 0 ts k)
  let stack (i : Nat) : Nat := min 255 (nth 0 ts (2 + i)).toNat
  let hot := (decide (degC 110 ≤ tempOf (u.rd HR.HUB_T0)) && decide (degC 110 ≤ t 0)) ||
    (decide (degC 110 ≤ tempOf (u.rd HR.HUB_T1)) && decide (degC 110 ≤ t 1)) ||
    (List.range 4).any fun i => decide (105 ≤ u.rd (ctl i KR.STACK_TEMP)) && decide (105 ≤ stack i)
  let s1 := s.updHub h fun u =>
    (u.wrs [(HR.HUB_T0, tempReg (t 0)), (HR.HUB_T1, tempReg (t 1))]).wrs
      ((List.range 4).map fun i => (ctl i KR.STACK_TEMP, stack i))
  if hot then s1.shutdown h else s1

/-- SENSOR_SAMPLE: every 10 µs the sensors of unit `u` are sampled: a region's nine, or for 56 + h the two of hub `h` and the
readings of its four stacks (R368). -/
def execSensorSample (u : Nat) (ts : List (BitVec 16)) (s : State) : Out :=
  .next (if u < 56 then s.sampleRegion u ts else s.sampleHub (u - 56) ts)

/-- THERMAL_STEP: every 100 µs region `r` steps THERMAL_D by its temperature (R369). -/
def execThermalStep (r : Nat) (s : State) : Out :=
  let g := s.region r
  let temp := tempOf (g.rd RR.REGION_TEMP)
  let d := g.rd RR.THERMAL_D
  let put (v : Nat) (g : Region) : Region := g.wrs [(RR.THERMAL_D, v), (RR.THROTTLING, b2n (decide (v ≠ 0)))]
  .next <|
    if degC s.throttleC ≤ temp then
      let new := min g.autoFloor (stepTo (max d (g.rd RR.CCLK_D)) 255)
      s.updRegion r fun g =>
        let g1 := put new g
        if d < new then { g1 with regs := g1.regs.countSat RR.THROTTLE_STEPS RR.THROT_SAT 1 } else g1
    else if temp < degC s.throttleC - degC s.hystC ∧ d ≠ 0 then
      let new := stepTo d g.ccTarget
      s.updRegion r (put (if d ≤ g.ccTarget ∨ new ≤ g.ccTarget then 0 else new))
    else s

/-! ### Eclipse (R370, R371) -/

/-- ECLIPSE_LO or ECLIPSE_HI written: pending, unless it clears the bit of a TRIPPED region that is still hot; otherwise such a
clear ends TRIPPED (R373). -/
def State.eclipseWrite (s : State) (hi : Bool) (v : Nat) : State :=
  let base := if hi then 32 else 0
  let tripped := (List.range 32).filter fun i =>
    decide ((s.region (base + i)).rd RR.TRIPPED = 1) && !v.testBit i && decide (base + i < 56)
  if tripped.any fun i => decide (degC s.tripClearC ≤ tempOf ((s.region (base + i)).rd RR.REGION_TEMP)) then
    s.wr MR.TRIP_CLEAR_REFUSED 1
  else
    tripped.foldl (fun s i =>
      (s.setMask MR.TRIPPED_LO MR.TRIPPED_HI (base + i) false).updRegion (base + i) fun g => g.wr RR.TRIPPED 0)
      (s.wr (if hi then MR.ECLIPSE_HI else MR.ECLIPSE_LO) v)

/-- ECLIPSE_WRITE: a write of ECLIPSE_LO, or of ECLIPSE_HI (R370, R373). -/
def execEclipseWrite (hi : Bool) (v : BitVec 32) (s : State) : Out := .next (s.eclipseWrite hi v.toNat)

/-- The cores of a region have no section, and it has counted every done notice that they sent. -/
def State.regionQuiet (s : State) (r : Nat) : Bool :=
  let sent (d : RegDone) : Nat :=
    (s.cores.filter fun e => decide (regionOf e.1 = r) && decide (e.2.doneFor = some d.tick) && !e.2.lost && !e.2.gated).length
  (s.cores.all fun e => decide (regionOf e.1 ≠ r) || !e.2.inSection) && (s.region r).dones.all fun d => decide (sent d ≤ d.got)

/-- The region has accepted every tick in progress, and with it made its commit cut. -/
def State.ticksTaken (s : State) (r : Nat) : Bool :=
  decide ((s.region r).tickIn = []) && s.md.tu.active.all fun a => a.done.contains r ||
    match (s.region r).tickNow with | some t => decide (a.tick ≤ t) | none => false

/-- A block of a SECTION_ABORT that region `r` has sent to H0. -/
def Payload.causeOf (r : Nat) : Payload → Bool
  | .ctrl m => match m.body with | .cause a => decide (a.region = r) | _ => false
  | _ => false

/-- A SECTION_ABORT of region `r` is on its way to H0: it waits at the region, in a router's buffer or at a link's end. -/
def State.causeOnWay (s : State) (r : Nat) : Bool :=
  ((s.region r).ctrlOut.any fun m => (Payload.ctrl m).causeOf r) || (s.md.tu.inbox.any fun a => decide (a.region = r)) ||
    s.cores.any fun e => (e.2.router.inb.any fun b => b.2.any fun x => x.body.causeOf r) ||
      e.2.router.links.any fun l => (l.2.replay.map (·.2) ++ l.2.flight).any fun b => match b.body with | some p => p.causeOf r | none => false

/-- No abort is on its way to a core of a region, and none from it to H0. -/
def State.abortSettled (s : State) (r : Nat) : Bool :=
  !(s.region r).abortIn && s.abortReached r && !s.causeOnWay r &&
    match s.md.tu.abort with | some b => !b.unreported.contains r | none => true

/-- The ticks that region `r` still counts are complete at once: its cores answer no more (R372). -/
def Region.finishAll (g : Region) (r : Nat) : Region := g.dones.foldl (fun g d => g.finish r d.tick d.got d.sum) g

/-- ECLIPSE_APPLY: region `r`, with its commit cut made and every core IDLE or ABORTED, enters or leaves its eclipse (R371). -/
def execEclipseApply (r : Nat) (s : State) : Out :=
  let want := s.eclForce.testBit r
  let now := s.eclipsed r
  .next <|
    if want = now ∨ !s.ticksTaken r ∨ !s.regionQuiet r ∨ !s.abortSettled r then s
    else
      let s1 := s.setMask MR.ECL_NOW_LO MR.ECL_NOW_HI r want
      if want then s1.updRegion r fun g => { g.finishAll r with pw := { g.pw with eclPhase := 1 } }
      else
        let start (g : Region) : Region := if s.dom (4 * r) = domOff then g.wr RR.CCLK_D g.autoFloor else g
        let out (g : Region) : Region := { start g with pw := { g.pw with eclPhase := 2 } }
        (s1.updRegion r out).domRequest (4 * r + 1) true

/-! ### The update of the dividers (R352, R353, R371) -/

/-- The ramps of an eclipse: with CCLK at A the domains go off, ENGINE first; ECLIPSE_D ends with the last of them OFF, or with
ENGINE ON. -/
def State.eclipseRamp (s : State) (r : Nat) : State :=
  let g := s.region r
  let done (s : State) : State := s.updRegion r fun g => { g with pw := { g.pw with eclPhase := 0 } }
  match g.pw.eclPhase with
  | 0 => s
  | 1 =>
    if s.dom (4 * r + 2) = domOff then done s
    else if g.rd RR.CCLK_D = g.cclkWant.1 then s.domRequest (4 * r + 2) false
    else s
  | _ => if s.dom (4 * r + 1) = domOn then done s else s

/-- DIVIDER_UPDATE: every 1 µs each divider steps toward its want (R353). -/
def execDividerUpdate (s : State) : Out := .next ((List.range 56).foldl (fun s r => s.eclipseRamp r) s.dividers)

end Sys2Proof.Machine
end

