-- ==== Sys2Proof/Machine/Resets.lean ====
section
/-!
DEFINITION. Resets of cores, regions, hubs and the module, with their release; lost cores and lost region controllers; the
watchdogs that end in them (14).
-/
namespace Sys2Proof.Machine

/-! ### Cores (R391) -/

/-- The registers of a core's fault record and hallmark state. -/
def coreResetRegs : List Fld :=
  [CR.FAULT_VALID, CR.FAULT_THREAD, CR.FAULT_UNIT, CR.FAULT_CODE, CR.FAULT_PC, CR.FAULT_ADDR_LO, CR.FAULT_ADDR_DEV,
   CR.FAULT_ADDR_HI, CR.FAULT_INSN, CR.FAULT_INDEX, CR.CORE_HM_LO, CR.CORE_HM_HI, CR.HM_LAST_LO, CR.HM_LAST_HI,
   CR.HM_LAST_TICK, CR.HM_LAST_FOLDS, CR.WDOG_COUNT]

/-- The sticky flags of a core's counters, which a reset of their domain clears (R14). -/
def coreSatFlags : List Fld :=
  [CR.FAULT_SAT, CR.RESIDUE_SAT, CR.LATE_SAT, CR.CORE_BUSY_SAT, CR.PROMOTE_SAT, CR.CE_SAT, CR.UE_SAT, CR.SWEEP_SAT, CR.REJ_CNT_SAT,
   CR.NAN_SAT, CR.OVF_SAT, CR.CLAMP_SAT, CR.UNF_SAT, CR.PRUNE_SAT, CR.DUP_SAT, CR.OOR_SAT, CR.HIST_SAT, CR.EXCESS_SAT, CR.CLIP_SAT,
   CR.CRC_ERR_SAT, CR.CLASP_LATE_SAT, CR.SIG_SAT] ++
    (List.range 8).flatMap (fun b => [CR.BZ_ARR_SAT.at (16 * b), CR.BZ_REJ_SAT.at (16 * b)]) ++
    (List.range 32).map fun q => CR.SUNK_SAT.at (8 * q)

/-- What a core reset clears. CORE_GEN and the generations of queues and clasps advance. The engine, the compressor and the routes keep
what they hold, but for the commands of the threads that are OFF; a done notice still leaves (R391, log 69). -/
def Core.resetUnits (c : Core) : Core :=
  let c1 := ((c.abortUnits.queueAbort.claspAbort).leave .idle).zeroSpad
  let fresh (e : Nat × Queue) : Nat × Queue := (e.1, { Queue.reset with gen := e.2.gen })
  let done (m : Ctrl) : Bool := match m.body with | .coreDone _ _ _ => true | _ => false
  let c2 : Core := { c1 with threads := [], slots := [], dma := .reset, queues := c1.queues.map fresh, finalDone := false, bzOut := [],
                             ctrlOut := c1.ctrlOut.filter done }
  (c2.wrs ((coreResetRegs ++ coreSatFlags).map fun f => (f, 0))).clearHm

/-- Core `n` is reset; its bezels close with a new generation and its CYCLE count begins
anew. -/
def State.resetCore (s : State) (n : Nat) : State :=
  (s.updCore n fun c => { c.resetUnits with cycleBase := s.now }).bzAbort n

/-- What a FLUSH at core `n` leaves in an input buffer: at the local port, what the region controller put there. -/
def Entry.ofController (n : Nat) (x : Entry) : Bool :=
  match x.body with | .ctrl m => decide (m.src ≠ n) | .mreq q => decide (q.unit = 3) | _ => false

/-- The input buffers of a router emptied, with the credits of their blocks returned (R173, R396). A done notice that has just entered goes
back to wait (log 80). -/
def Core.flushRouter (c : Core) (n : Nat) : Core :=
  let done (x : Entry) : Option Ctrl :=
    match x.body with
    | .ctrl m => match m.body with | .coreDone _ _ _ => if m.src = n then some m else none | _ => none
    | _ => none
  let back := (c.inBuf 0 3).filterMap done
  let keep (k : Nat) : List Entry := if k < 4 then (Sparse.get [] c.router.inb k).filter (Entry.ofController n) else []
  let c1 := (List.range 20).foldl (fun c k => c.setInBuf (k / 4) (k % 4) (keep k)) c
  { c1 with ctrlOut := back ++ c1.ctrlOut }

/-- FLUSH at core `n` (R396): its router's input buffers, combining buffers, hold table and early buffer are empty, and the
generations of its queues, bezels and clasps advance. -/
def State.flushCore (s : State) (n : Nat) : State :=
  let flush (c : Core) : Core := { (c.queueAbort.claspAbort).flushRouter n with threads := c.threads }
  (s.updCore n flush).bzAbort n

/-- A done notice for a tick. -/
def Ctrl.doneOf (t : Nat) (m : Ctrl) : Bool := match m.body with | .coreDone k _ _ => decide (k = t) | _ => false

/-- A core that answers no more is counted done with the ticks for which its notice has not left; its hallmark is 0 (R48, R401). -/
def State.countSilent (s : State) (n : Nat) : State :=
  let c := s.core n
  let seen (t : Nat) : Bool := (match c.doneFor with | some f => decide (t ≤ f) | none => false) && !(c.ctrlOut.any (Ctrl.doneOf t))
  let add (d : RegDone) : RegDone := if seen d.tick then d else { d with silent := d.silent + 1 }
  (s.setCore n { c with ctrlOut := [] }).updRegion (regionOf n) fun g => Region.look { g with dones := g.dones.map add } (regionOf n)

/-- GATE at core `n`: its CORE, ENGINE and SRAM parts are off (R396). -/
def State.gateCore (s : State) (n : Nat) : State :=
  s.updCore n fun c =>
    let c1 := c.loseCore.zeroSpad
    { c1 with eng := .reset, gated := true }

/-- A reset's record: the MP log and RESET_INFO (R392). -/
def State.noteReset (s : State) (domain index cause : Nat) : State :=
  (s.logRec 4 cause 0 domain index 0).wrs [(MR.LAST_DOMAIN, domain), (MR.LAST_INDEX, index), (MR.LAST_CAUSE, cause)]

/-- A core or a region enters reset. -/
def State.enterReset (s : State) (domain index : Nat) : State :=
  s.updMd fun m => { m with boot := { m.boot with held := m.boot.held.filter (· ≠ (domain, index)) ++ [(domain, index)] } }

/-- A core reset with its record; it lasts until its release (R394). -/
def State.doResetCore (s : State) (n cause : Nat) : State := ((s.resetCore n).enterReset 0 n).noteReset 0 n cause

/-- The physical core of a logical one under the remap in force. -/
def State.physOf (s : State) (n : Nat) : Phys := ⟨regionOf n, coreY n % 72, (physCol s.md.remap n).getD 0⟩

/-- A lost core: the LOST record, the abort, FLUSH, RESET_CORE and GATE, and its defect entry (R401). -/
def State.coreLost (s : State) (n why : Nat) : State :=
  if (s.core n).lost then s
  else
    let r := regionOf n
    let note (g : Region) : Region :=
      let g1 : Region := { g with regs := g.regs.countSat RR.LOST_COUNT RR.LOST_SAT 1 }
      if g1.rd RR.LOST_VALID = 0 then g1.wrs [(RR.LOST_VALID, 1), (RR.LOST_WHY, why), (RR.LOST_CORE, n)] else g1
    let s1 := ((s.updRegion r note).sendAbort ⟨r, logCoreLost, 1, n⟩).flushCore n
    let s2 := ((s1.doResetCore n 6).gateCore n).updCore n fun c => { c with lost := true }
    s2.appendDefect (s.physOf n) 4 true

/-! ### Regions (R391) -/

/-- The records of a region controller, and the sticky flags of its counters (R14). -/
def regionResetRegs : List Fld :=
  [RR.NP_VALID, RR.NP_PORT, RR.NP_SNAP_DONE, RR.NP_QUEUE, RR.NP_CORE, RR.LINK_VALID, RR.LINK_PORT, RR.LINK_CORE, RR.LEASE_VALID,
   RR.LEASE_CLASP, RR.LEASE_ROUND, RR.LEASE_CORE, RR.MISSING_CHILDREN, RR.MISSING_THREADS, RR.LOST_VALID, RR.LOST_WHY,
   RR.LOST_CORE, RR.ABORTING, RR.SR_STATUS, RR.SR_DATA, RR.REGION_DONE, RR.CORES_REPORTED, RR.ABORT_SAT, RR.SUNK_TICK_SAT,
   RR.BREACH_SAT, RR.THROT_SAT, RR.LOST_SAT]

/-- A region controller restarted. -/
def Region.restart (g : Region) : Region :=
  let g1 : Region :=
    { g with sunk := 0, lateSeen := false, bzClosedSeen := false, chanClosedSeen := false, snapLeft := 0, snapHead := none,
             replies := [], ctrlOut := [], memOut := [], ctrlGen := g.ctrlGen + 1, tickIn := [], ticks := [], tickNow := none,
             dones := [], doneOut := [], abortIn := false, boostIn := [], duties := [], live := [], stopWait := none,
             coreGen := (g.coreGen + 1) % 16 }
  (g1.wrs (regionResetRegs.map fun f => (f, 0))).wr RR.REGION_GEN (g.rd RR.REGION_GEN + 1)

/-- The notices of the cores of region `r` that are not listed: the listed cores beside them know the new generations. -/
def State.noteRest (s : State) (r : Nat) (listed : List Nat) : State :=
  let g := (s.region r).coreGen
  let beside (n : Nat) (c : Core) (d : Nat) : Core :=
    match nbrIn s.md.remap n d with
    | some m =>
      if regionOf m = r && !listed.contains m then
        { c with shadows := (List.range 8).foldl (fun x b => Sparse.put x (8 * d + b) ⟨false, g, 0⟩) c.shadows }
      else c
    | none => c
  { s with cores := s.cores.map fun (e : Nat × Core) => (e.1, (List.range 4).foldl (beside e.1) e.2) }

/-- Region `r` and every core of it are reset (R391). A core that was not listed has nothing to clear but its generations, which
follow the region's count of resets. -/
def State.resetRegion (s : State) (r : Nat) : State :=
  let listed := s.cores.map (·.1)
  let s1 := (s.cores.foldl (fun s e => if regionOf e.1 = r then s.resetCore e.1 else s) s).updRegion r Region.restart
  let s2 := s1.noteRest r listed
  { s2 with cores := s2.cores.map fun (e : Nat × Core) =>
      (e.1, if regionOf e.1 = r && !listed.contains e.1 then { s2.resting e.1 with lane := e.2.lane } else e.2) }

/-- A region reset with its record; it lasts until its release. -/
def State.doResetRegion (s : State) (r cause : Nat) : State := ((s.resetRegion r).enterReset 1 r).noteReset 1 r cause

/-! ### Release (R394, R399, R401) -/

/-- A held request is of a core, or of a core or the controller of a region. -/
def HeldReq.ofDomain (domain index : Nat) : HeldReq → Bool
  | .mreq _ q =>
    if domain = 0 then decide (q.unit ≠ 3) && decide (q.src = index)
    else if q.unit = 3 then decide (q.src % 256 = index)
    else decide (regionOf q.src = index)
  | .engine _ _ => false

/-- Held requests leave the hubs, answered REFUSED; their faults stay pending. -/
def State.purge (s : State) (p : HeldReq → Bool) : State :=
  (List.range 4).foldl (fun s h =>
    let mine := (s.hub h).held.filter p
    let s1 := (s.updHub h fun u => { u with held := u.held.filter fun x => !p x }).countHeld h
    mine.foldl (fun s x => match x with | .mreq _ q => (s.farWaits q Thread.unheld).answer h q .denied | .engine _ _ => s) s1) s

/-- The MP supplies what a reset region owes: REGION_DONE of the ticks in progress, its report of an abort, and the next
sections of its cores (R399). What was sent to it before its release is dropped (R393). -/
def State.supplyRegion (s : State) (r : Nat) : State :=
  let give (a : ActTick) : ActTick := if a.done.contains r then a else { a with done := a.done ++ [r] }
  let next (s : State) (e : Nat × Core) : State :=
    match s.md.tu.active.getLast? with
    | some a =>
      if regionOf e.1 = r then
        (s.setNext e.1 (e.2.next.bind fun _ => sectionFrom s.planEntries e.1 a.tick (sectionsOf s.planEntries e.1).length)).updCore
          e.1 fun c => { c with doneFor := some a.tick, doneOut := [], tickTaken := (s.region r).tickCount }
      else s
    | none => s
  let s1 := s.cores.foldl next s
  let s2 := s1.updRegion r fun g => { g with abortIn := false, tickIn := [], ctrlGen := g.ctrlGen + 1 }
  let s3 := s2.regionCores r fun c => { c with abortTaken := (s2.region r).abortSerial }
  ((s3.updTu fun t => { t with active := t.active.map give }).abortReported r).completeAll

/-- RESET_RELEASE: the requests of a core, or of a region, that are held at faults are purged, its wait is over, and it leaves
reset (R394). -/
def execResetRelease (region : Bool) (index : Nat) (s : State) : Out :=
  let domain := if region then 1 else 0
  .next <|
    if !s.inReset domain index then s
    else
      let s1 := (s.purge (HeldReq.ofDomain domain index)).updMd fun m =>
        { m with boot := { m.boot with held := m.boot.held.filter (· ≠ (domain, index)) } }
      if region then s1.supplyRegion index
      else if (s1.core index).lost then s1.countSilent index
      else s1.decideLoad index

/-! ### Hubs (R391) -/

/-- The transport counters of a hub. -/
def transportCounters : List Fld :=
  [HR.PKT_TX, HR.PKT_RX, HR.RETX_PKTS, HR.NAK_RX, HR.HDR_CRC_ERR, HR.BLOCK_CRC_ERR, HR.RX_DROPPED, HR.CE_RX, HR.ROCE_DROPPED,
   HR.RING_REFUSED, HR.RING_DROPPED, HR.ENDPOINT_BAD]

/-- The sticky flags of a hub's counters, its stacks' and its ports', which its reset clears (R14). -/
def hubSatFlags : List Fld :=
  [HR.DROPPED_SAT, HR.MISMATCH_SAT, HR.RED_EVENT_SAT, HR.VM_SAT, HR.VL_SAT, HR.VH_SAT] ++
    (List.range 4).flatMap (fun i => [ctl i KR.RETRY_SAT, ctl i KR.UE_SAT]) ++
    (List.range 9).map fun p => PR.DOWN_SAT.at (0x600000 + p * 0x40000)

/-- Hub `h` is reset. A job lies in the slots of all four hubs, so its slot is EMPTY in all of them (log 19). -/
def State.resetHub (s : State) (h : Nat) : State :=
  let mine := (s.hub h).held
  let clear (u : Hub) : Hub :=
    let u1 : Hub := { u with cache := [], walkCache := [], held := [], tx := [], rx := [], msgs := [], mgmtWait := [], txWait := [],
                             peerGen := [] }
    Hub.countFlows ((u1.wrs ((transportCounters ++ hubSatFlags).map fun f => (f, 0))).wr HR.HUB_GEN (u.rd HR.HUB_GEN + 1))
  let s1 := ((s.updHub h clear).countHeld h).updMd fun m => { m with slots := [], jobCheck := none }
  mine.foldl (fun s x => match x with | .mreq _ q => (s.farWaits q Thread.unheld).answer h q .denied | .engine _ _ => s) s1

/-- RUN_STATE is one in which a tick runs. -/
def State.isRunning (s : State) : Bool :=
  decide (s.runState = rsRunning) || decide (s.runState = rsPreempting) || decide (s.runState = rsAborting)

/-- FLT_RESET aborts the tick before a hub or module reset takes effect (R392). -/
def State.abortForReset (s : State) (index : Nat) : State := if s.isRunning then s.beginAbort (.ofModule index logReset) else s

/-- A hub reset with its record and report. -/
def State.doResetHub (s : State) (h cause : Nat) : State :=
  let s1 := ((s.abortForReset h).resetHub h).noteReset 2 h cause
  s1.sendResetReport 2 cause ((s1.hub h).rd HR.HUB_GEN) h

/-! ### The module (R391) -/

/-- The module registers that a module reset leaves: the in-force remap's generation, what comes from flash, pins and straps, the
node table registers, and a power fail of this power cycle (R391, R439). -/
def moduleKept : List Fld :=
  [MR.MOD_REMAP_GEN, MR.BOOT_COUNT, MR.NODE_TABLE_LO, MR.NODE_TABLE_HI, MR.NODE_COUNT, MR.PF_CAUSE, MR.POWER_FAIL,
   MR.CABLE_PRESENT_LO, MR.CABLE_PRESENT_HI, MR.SMB_ADDR] ++ (List.range 8).map fun i => MR.DEFECT_HASH.at (4 * i)

/-- A firmware update cut short leaves a torn image: its header stays erased (R418, log 22). -/
def Sec.cutShort (x : Sec) : Sec :=
  match x.update with
  | some u => if u.cmd = 1 then { x with flash := Sparse.blit 0xFF x.flash 0 (List.replicate 64 0xFF) } else x
  | none => x

/-- The MP's part of security at its restart: flash and fuses stay. -/
def Sec.restart (x : Sec) : Sec :=
  let x1 := x.cutShort
  { Sec.reset with flash := x1.flash, rollback := x1.rollback, owners := x1.owners, revoked := x1.revoked }

/-- Clocks and power at the MP's restart: the domains stay as they are, FAILED ones OFF (R360). -/
def Power.restart (p : Power) : Power :=
  { Power.reset with doms := p.doms.filter (fun e => decide (e.2 ≠ domFailed)), rails := p.rails, pin := p.pin, refLost := p.refLost }

/-- The MP restarted: module registers at their reset values, LOG_WR with them, and bring-up at stage 2. The log's records stand
until new ones take their slots. -/
def Module.restart (m : Module) : Module :=
  { Module.reset with
    regs := (Regs.reset.wrs (moduleKept.map fun f => (f, m.regs.rd f))).wrs [(MR.STAGE, 2), (MR.REF_HOLDOVER, b2n m.pw.refLost)]
    defects := m.defects
    log := m.log
    remap := m.remap
    pw := m.pw.restart
    input := m.input
    sec := m.sec.restart
    boot := { Boot.reset with cold := false } }

/-- A module reset with its record and report (R391, R392). -/
def State.doResetModule (s : State) (cause : Nat) : State :=
  let s1 := s.cutCommit.abortForReset 0
  let s2 := (List.range 4).foldl (fun s h => s.resetHub h) ((List.range 56).foldl (fun s r => s.resetRegion r) s1)
  let unpark (g : Region) : Region :=
    { g.wr RR.TRIPPED 0 with tickCount := g.tickCount, failed := false,
                             pw := { g.pw with parkC := 0, parkM := 0, eclPhase := 0 } }
  let s3 := (List.range 56).foldl (fun s r => s.updRegion r unpark) (s2.updMd Module.restart)
  (((s3.wr MR.REF_SETTLE_US s3.refSettle).noteReset 3 0 cause)).sendResetReport 3 cause 0 0

/-! ### RESET_CMD (R392) -/

/-- Some sensor reads TRIP_CLEAR_C or more. -/
def State.hotForReset (s : State) : Bool :=
  let top := degC s.tripClearC
  (List.range 56).any (fun r => (List.range 9).any fun k => decide (top ≤ tempOf ((s.region r).rd (RR.SENSOR_T.at (4 * k))))) ||
    (List.range 4).any fun h =>
      let u := s.hub h
      decide (top ≤ tempOf (u.rd HR.HUB_T0)) || decide (top ≤ tempOf (u.rd HR.HUB_T1)) ||
        (List.range 4).any fun i => decide (s.tripClearC ≤ u.rd (ctl i KR.STACK_TEMP))

/-- RESET_RESULT. -/
def State.resetResult (s : State) (v : Nat) : State := s.wr MR.RESET_RESULT v

/-- A core or region reset refused with BUSY: of a core or region that exists, while RUNNING or PREEMPTING (R392). -/
def State.resetBusy (s : State) (domain index : Nat) : Bool :=
  (decide (s.runState = rsRunning) || decide (s.runState = rsPreempting)) &&
    match domain with
    | 0 => decide (index < numCores) && !absentIn s.md.remap index
    | 1 => decide (index < 56)
    | _ => false

/-- A module reset is refused: a thermal shutdown holds and some sensor is still hot (R374, R392). -/
def State.resetHot (s : State) : Bool := decide (s.rd MR.THERMAL_SHUTDOWN = 1) && s.hotForReset

/-- A reset requested by the host, the management interface or the MP: causes 1, 2 and 7. -/
def State.resetCmd (s : State) (cause id domain index : Nat) : State :=
  let who : Requester := if cause = 1 then .host else .mp
  let busy := s.resetBusy domain index
  let refuse (s : State) : State := (s.resetResult 1).busyWrite who id 0x7FFF0000080C
  match domain with
  | 0 =>
    if numCores ≤ index ∨ absentIn s.md.remap index then s.resetResult 2
    else if busy then refuse s
    else if s.inReset 0 index || s.inReset 1 (regionOf index) then s.resetResult 0
    else (s.resetResult 0).doResetCore index cause
  | 1 =>
    if 56 ≤ index then s.resetResult 2
    else if busy then refuse s
    else if s.inReset 1 index then s.resetResult 0
    else (s.resetResult 0).doResetRegion index cause
  | 2 => if 4 ≤ index then s.resetResult 2 else (s.resetResult 0).doResetHub index cause
  | _ =>
    if s.resetHot then s.resetResult 3
    else s.doResetModule cause

/-- RESET_CORE_CMD: a core reset is requested (R392). -/
def execResetCoreCmd (cause : BitVec 4) (id : BitVec 16) (n : Nat) (s : State) : Out :=
  .next (s.resetCmd cause.toNat id.toNat 0 n)
/-- RESET_REGION_CMD: a region reset is requested (R392). -/
def execResetRegionCmd (cause : BitVec 4) (id : BitVec 16) (r : Nat) (s : State) : Out :=
  .next (s.resetCmd cause.toNat id.toNat 1 r)
/-- RESET_HUB_CMD: a hub reset is requested (R392). -/
def execResetHubCmd (cause : BitVec 4) (id : BitVec 16) (h : Nat) (s : State) : Out :=
  .next (s.resetCmd cause.toNat id.toNat 2 h)
/-- RESET_MODULE_CMD: a module reset is requested (R392). -/
def execResetModuleCmd (cause : BitVec 4) (id : BitVec 16) (s : State) : Out :=
  .next (s.resetCmd cause.toNat id.toNat 3 0)

/-! ### Watchdogs (R398 to R400) -/

/-- LIVENESS_ADVANCE: the core logic of `n` advances its liveness word while its CORE domain is on (R398). -/
def execLivenessAdvance (n : Nat) (s : State) : Out :=
  .next (if s.dom (4 * regionOf n) = domOn ∧ !(s.core n).gated then
    s.updCore n fun c => { c with live := (c.live + 1) % 2 ^ 32 } else s)

/-- REGION_WDOG_MS, clamped. -/
def Region.wdogMs (g : Region) : Nat := clampTo 5 1000 (g.regs.inForce RR.REGION_WDOG_MS)

/-- Core `n` judged by its liveness word at a reading. -/
def State.judge (s : State) (n : Nat) : State :=
  let c := s.core n
  let g := s.region (regionOf n)
  let put (v : Nat × Nat) : State := s.updRegion (regionOf n) fun g => { g with live := Sparse.put g.live n v }
  if !c.inSection || c.lost then s.updRegion (regionOf n) fun g => { g with live := Sparse.erase g.live n }
  else
    match g.live.find? fun e => e.1 = n with
    | none => put (c.live, 0)
    | some (_, w, k) =>
      if w ≠ c.live then put (c.live, 0)
      else if g.wdogMs * 1000 ≤ (k + 1) * 2500 then (put (w, k + 1)).coreLost n 0
      else put (w, k + 1)

/-- LIVENESS_SWEEP: every 2.5 ms region controller `r` reads every liveness word, but for the cores `deaf` whose agents do not answer at all,
which is as NO_ACK. With TRANSIT off there is none to read (R395, R398). -/
def execLivenessSweep (sweep : Nat × List Nat) (s : State) : Out :=
  match sweep with
  | (r, deaf) =>
    let lose (s : State) (n : Nat) : State := if regionOf n = r && !absentIn s.md.remap n then s.coreLost n 1 else s
    .next <|
      if s.dom (4 * r + 3) ≠ domOn then s
      else deaf.foldl lose (s.cores.foldl (fun s e => if regionOf e.1 = r && !deaf.contains e.1 then s.judge e.1 else s) s)

/-- STOP_ACK_TIMEOUT: the STOP that region `r` sent is not acknowledged within SR_ACK_US (R398). -/
def execStopAckTimeout (r : Nat) (s : State) : Out :=
  .next <| match (s.region r).stopWait with
  | none => s
  | some n => 
    (s.updRegion r fun g => { g.wr RR.SR_STATUS (if g.rd RR.SR_STATUS = 1 then 2 else g.rd RR.SR_STATUS) with
                              stopWait := none }).coreLost n 1

/-- REGION_HEARTBEAT: the MP receives the heartbeat of region `r` (R399). -/
def execRegionHeartbeat (_r : Nat) (s : State) : Out := .next s

/-- CCLK in 1 s at 1.05 GHz. -/
def oneSecond : Nat := 1050000000

/-- HEARTBEAT_TIMEOUT: the heartbeat of region `r` is missing for REGION_WDOG_MS: the tick aborts and the region is reset; for the
second time within 1 s, the region is FAILED, and the module with it at the end of the tick (R399). -/
def execHeartbeatTimeout (r : Nat) (s : State) : Out :=
  let again := match s.md.boot.heard.find? fun e => e.1 = r with
    | some (_, t) => decide (s.now < t + oneSecond)
    | none => false
  let s1 := ((s.mpAbort ⟨r, logRegionLost, 3, r⟩).doResetRegion r 5).updMd fun m =>
    { m with boot := { m.boot with heard := Sparse.put m.boot.heard r s.now, dead := m.boot.dead || again } }
  let s2 := if again then s1.updRegion r fun g => { g with failed := true } else s1
  .next (if again && decide (s.md.tu.active = []) then (s2.wr MR.MOD_STATE 3).sendStatus else s2)

/-- MOD_WDOG_PET: the MP firmware restarts the MP watchdog (R400). -/
def execModWdogPet (s : State) : Out := .next s

/-- MP_WATCHDOG_EXPIRY: the hardware resets the module with CAUSE MP_WATCHDOG (R400). -/
def execMpWatchdogExpiry (s : State) : Out := .next (if s.resetHot then s else s.doResetModule 4)

/-! ### Mesh links (R176, R177, R401) -/

/-- A block of an end that is sent again now would reach its 8th time. -/
def Link.worn (l : List (Nat × LinkBlock)) : Bool := l.any fun x => decide (x.1 = 7)

/-- The physical column of a core, over the eight regions of its row. -/
def physX (ds : List Phys) (n : Nat) : Nat := coreX n / 72 * 75 + (physCol ds n).getD 0

/-- The physical cores that a link between two logical cores crosses through their bypasses (R20). -/
def State.bypassed (s : State) : LinkEnd → Nat
  | .core n port =>
    match s.peer (.core n port) with
    | some (.core m _) =>
      let a := physX s.md.remap n
      let b := physX s.md.remap m
      (if a < b then b - a else a - b) - 1
    | _ => 0
  | .hub _ _ => 0

/-- The router at an end of a link, appended to the defect list. A hub's edge port is no router. -/
def State.appendRouter (s : State) : LinkEnd → State
  | .core n _ => s.appendDefect (s.physOf n) 5 true
  | .hub _ _ => s

/-- After FLT_MESH_LINK from end `e` the two routers of the link are tested in loopback; one that fails is appended: bit 0 of `bad` tells
of the sender's, bit 1 of the receiver's. Bit 2 tells that the link has failed between two skipped cores' bypasses: a TRANSIT failure,
where it crosses two or more (R381, R401). -/
def State.loopback (s : State) (e : LinkEnd) (bad : BitVec 3) : State :=
  let s1 := if bad.getLsbD 0 then s.appendRouter e else s
  let s2 := match s.peer e with | some p => if bad.getLsbD 1 then s1.appendRouter p else s1 | none => s1
  if bad.getLsbD 2 && decide (2 ≤ s.bypassed e) then (s2.wr MR.MOD_STATE 3).sendStatus else s2

/-- The block that reaches end `e` with the bits `err` inverted makes it send a block again for the 8th time. -/
def State.failsAt (s : State) (e : LinkEnd) (err : Nat) : Bool :=
  match (s.peer e).bind fun p => (s.link p).flight.head? with
  | some b => b.crcOk err && b.nak && Link.worn (if b.ackValid then dropThrough b.ackSeq (s.link e).replay else (s.link e).replay)
  | none => false

/-- MESH_BLOCK_RECEIVE: the next block in flight toward an end of a link reaches it, an edge port `k` of hub `n`, or port `k` of the
router of core `n`; `err`: the bits that arrive inverted; `bad`: what a loopback test finds if the link fails (R176). -/
def execMeshBlockReceive (hub : Bool) (n k err : Nat) (bad : BitVec 3) (s : State) : Out :=
  let e := linkEndOf hub n k
  .next (if s.failsAt e err then (s.linkReceive e err).loopback e bad else s.linkReceive e err)

/-- MESH_REPLAY_TIMEOUT: 512 MCLK passed at an end of a link with unacknowledged blocks and no acknowledgement (R176). -/
def execMeshReplayTimeout (hub : Bool) (n k : Nat) (bad : BitVec 3) (s : State) : Out :=
  let e := linkEndOf hub n k
  .next (if Link.worn (s.link e).replay then (s.linkTimeout e).loopback e bad else s.linkTimeout e)

end Sys2Proof.Machine
end

