-- ==== Sys2Proof/Machine/Bringup.lean ====
section
/-!
DEFINITION. The staged start of the module, the neighbour vote, SCAN, and the discovery of the topology (14, 15).
-/
namespace Sys2Proof.Machine

/-! ### Stage reports (R377, R378) -/

/-- The stage in progress is `k`. -/
def State.inStage (s : State) (k : Nat) : Bool :=
  decide (s.rd MR.MOD_STATE = 0) && decide (s.rd MR.STAGE = k) && decide (s.rd MR.STAGE_RESULT = 3)

/-- A stage report: the MP log, BOOT_STATUS, STATUS and FM_NOTICE. -/
def State.report (s : State) (k result detail : Nat) : State :=
  ((s.logRec 1 k result 3 0 detail).wrs [(MR.STAGE, k), (MR.STAGE_RESULT, result), (MR.DETAIL, detail)]).sendStatus

/-- A stage ends FAILED: the module is FAILED, or in RECOVERY after stage 2. -/
def State.failStage (s : State) (k detail : Nat) : State :=
  (s.wrs [(MR.MOD_STATE, if k = 2 then 2 else 3), (MR.STAGE_FAILED, 1)]).report k 2 detail

/-- The domains that a stage begins with: LOGIC, MEMCTL and REDUCE of the hubs; TRANSIT of every region; the links and stacks (log 21). -/
def stageDomains (k : Nat) : List Nat :=
  match k with
  | 3 => (List.range 4).flatMap fun h => [224 + 6 * h, 225 + 6 * h, 226 + 6 * h]
  | 4 => (List.range 56).flatMap fun r => [4 * r + 3]
  | 7 => (List.range 4).flatMap fun h => [227 + 6 * h, 228 + 6 * h, 229 + 6 * h] ++ domStacks h
  | _ => []

/-- A stage begins: its domains are switched on, and in stage 7 ports that are not UP train. -/
def State.beginStage (s : State) (k : Nat) : State :=
  let s1 := s.wrs [(MR.STAGE, k), (MR.STAGE_RESULT, 3), (MR.DETAIL, 0)]
  let s2 := (stageDomains k).foldl (fun s d => if s.dom d = domFailed then s else s.domRequest d true) s1
  if k = 7 then (List.range 36).foldl (fun s p => if s.portRd p PR.LINK_UP = 1 then s else s.trainPort p) s2 else s2

/-- A stage ends OK or WARN, and the next begins. -/
def State.endStage (s : State) (k result detail : Nat) : State := (s.report k result detail).beginStage (k + 1)

/-- Domains that are on their way are ON, or FAILED where `dead` names them. -/
def State.ramps (s : State) (dead ds : List Nat) : State :=
  ds.foldl (fun s d => if dead.contains d then s.railFail d else if s.dom d = domRampOn then s.rampDone d else s) s
/-- The domains of a stage that are on their way are ON at its end. -/
def State.stageRamps (s : State) (k : Nat) : State := s.ramps [] (stageDomains k)

/-- STAGE_POWER: stage 1 ends; `ok`: every PLL locked, else `pll` did not. The input is good (R348, R377, R432). -/
def execStagePower (ok : Bool) (pll : Nat) (s : State) : Out :=
  .next <|
    if !s.inStage 1 || decide (s.md.input.start ≠ 3) then s
    else if ok then s.endStage 1 0 0
    else s.failStage 1 pll

/-! ### Stage 2 (R415, R416, R419, R428) -/

/-- The user calibration in force: state, entries and hash (R428). -/
def State.ucalApply (s : State) : State :=
  let put (v : Nat) (l : List (Nat × Nat × Int)) (h : List Byte) : State :=
    ((s.updMd fun m => { m with sec := { m.sec with ucal := l } }).wr MR.UCAL_STATE v).wrBytes MR.USERCAL_HASH h
  match s.ucalNewest with
  | none => put 0 [] (List.replicate 32 0)
  | some (_, b) => if ucalInBounds b then put 1 (ucalEntries b) (shake256 b 32) else put 2 [] (List.replicate 32 0)

/-- The ASCII bytes of "DW2860 SIGNET v1". -/
def signetLabel : List Byte := [0x44, 0x57, 0x32, 0x38, 0x36, 0x30, 0x20, 0x53, 0x49, 0x47, 0x4E, 0x45, 0x54, 0x20, 0x76, 0x31]

/-- The signet derived, and compared with the certificate (R419). -/
def State.signet (s : State) : State :=
  let seed := shake256 (signetLabel ++ leBytes 32 Config.deviceSecret.toNat) 48
  let pub := leBytes 1793 (Config.falconPublic seed).toNat
  let priv := leBytes 2305 (Config.falconPrivate seed).toNat
  let ok := s.certValid && decide ((s.cert.drop 0x20).take 1793 = pub)
  (s.updMd fun m => { m with sec := { m.sec with pub := pub, priv := priv } }).wrs [(MR.CERT_VALID, b2n s.certValid), (MR.SIGNET_OK, b2n ok)]

/-- The domains that RECOVERY leaves off: those of every region, the links of the connectors other than P0's, and the stacks. -/
def recoveryOff : List Nat :=
  (List.range 56).map (fun r => 4 * r + 3) ++ (List.range 11).map (fun c => linkDomain (c + 1)) ++ (List.range 16).map (fun t => 248 + t)

/-- RECOVERY: only port P0 comes up, at LANE_RATE 1; every region, the links of the other connectors and the stacks go off, where a module
reset found them on (R416). -/
def State.recovery (s : State) (code : Nat) : State :=
  let s1 := (s.wrs [(MR.RECOVERY_CODE, code), (MR.RECOVERY, 1)]).failStage 2 code
  let s0 := recoveryOff.foldl (fun s d => s.domRequest d false) s1
  let s2 := ((List.range 35).foldl (fun s p => s.portOff (p + 1)) s0).portWr 0 PR.LANE_RATE 1
  let s3 := s2.domRequest (linkDomain 0) true
  if s3.portRd 0 PR.LINK_UP = 1 then s3 else s3.trainPort 0

/-- STAGE_IMAGE: stage 2 ends after the checks of the image; `readOk`: the flash reads without error (R415). -/
def execStageImage (readOk : Bool) (s : State) : Out :=
  .next <|
    if !s.inStage 2 then s
    else
      let s1 := s.countBoot
      let code := s1.flashImageCode readOk
      if code ≠ 0 then s1.recovery code
      else
        let h := s1.imageHeader
        let body := s1.imageBody (fieldOf h 0x10 4)
        let d := measure h body
        let s2 := (s1.wrs [(MR.RECOVERY_CODE, 0), (MR.IMAGE_ROLLBACK, fieldOf h 8 1), (MR.FW_VERSION, fieldOf h 0x18 4)]).wrBytes
          MR.FW_MEASUREMENT d
        let s3 := s2.ucalApply.signet.updMd fun m => { m with sec := { m.sec with body := body, entry := some (fieldOf h 0x14 4) } }
        s3.endStage 2 (if s3.rd MR.UCAL_STATE = 2 ∨ s3.rd MR.SIGNET_OK = 0 then 1 else 0) 0

/-! ### Stages 3 and 4 -/

/-- STAGE_HUBS: stage 3 ends; `fail`: the self-test of hub `h` failed (R377). -/
def execStageHubs (fail : Bool) (h : Nat) (s : State) : Out :=
  .next <|
    if !s.inStage 3 then s
    else
      let s1 := s.stageRamps 3
      match (stageDomains 3).find? fun d => decide (s1.dom d = domFailed) with
      | some d => s1.failStage 3 ((d - 224) / 6)
      | none => if fail then s1.failStage 3 h else s1.endStage 3 0 0

/-- A domain of a region that FAILED. -/
def State.regionDead (s : State) : Option Nat := (List.range 224).find? fun d => decide (s.dom d = domFailed)

/-- SRAM, CORE and ENGINE of the eight regions of group `g`: `k` 2, 0 and 1 in this order. -/
def groupDomains (g k : Nat) : List Nat := (List.range 8).map fun i => 4 * (8 * g + i) + k

/-- The groups from `g` on come up one after another, unless a domain FAILED in one before. -/
def State.groupsUp (s : State) (dead : List Nat) (g : Nat) : State :=
  if s.regionDead.isSome then s
  else
    let ds := groupDomains g 2 ++ groupDomains g 0 ++ groupDomains g 1
    (ds.foldl (fun s d => s.domRequest d true) s).ramps dead ds

/-- STAGE_REGIONS: stage 4 ends: with TRANSIT of all regions ON its test runs, then SRAM, CORE and ENGINE come up, eight regions at a time.
`fail`: a region whose TRANSIT test failed; `dead`: domains of the groups whose rails do not come into regulation (R377, R381). -/
def execStageRegions (fail : Option Nat) (dead : List Nat) (s : State) : Out :=
  .next <|
    if !s.inStage 4 then s
    else
      let s1 := s.stageRamps 4
      match s1.regionDead with
      | some d => s1.failStage 4 (d / 4)
      | none =>
        match fail with
        | some r => s1.failStage 4 r
        | none =>
          let s2 := (List.range 7).foldl (fun s g => s.groupsUp dead g) s1
          match s2.regionDead with
          | some d => s2.failStage 4 (d / 4)
          | none => s2.endStage 4 0 0

/-! ### The neighbour test and the vote (R380, R382) -/

/-- The physical neighbour of a core in direction 0 N, 1 E, 2 S, 3 W, across scribe lines too. -/
def physNbr (p : Phys) (d : Nat) : Option Phys :=
  let x := p.region % 8 * 75 + p.col
  let y := p.region / 8 * 72 + p.row
  let at_ (x y : Nat) : Phys := ⟨y / 72 * 8 + x / 75, y % 72, x % 75⟩
  match d with
  | 0 => if y = 0 then none else some (at_ x (y - 1))
  | 1 => if 599 ≤ x then none else some (at_ (x + 1) y)
  | 2 => if 503 ≤ y then none else some (at_ x (y + 1))
  | _ => if x = 0 then none else some (at_ (x - 1) y)
/-- The physical neighbours of a core. -/
def physNbrs (p : Phys) : List Phys := (List.range 4).filterMap (physNbr p)
/-- A list without repeats, in the order of the first of each. -/
def dedupe {α : Type} [DecidableEq α] (l : List α) : List α := l.foldl (fun a x => if a.contains x then a else a ++ [x]) []

/-- What a vote finds: the cores retired by their neighbours, the suspects, and how many are unverified. -/
structure Vote where
  retired : List Phys
  suspects : List Phys
  unverified : Nat
  deriving DecidableEq, Repr

/-- The vote of every region in one pass. `dead`: the defect list and the cores that do not answer; `fails`: tester and tested of
each FAIL verdict. -/
def voteOf (dead : List Phys) (fails : List (Phys × Phys)) : Vote :=
  let testers (c : Phys) : List Phys := (physNbrs c).filter fun x => !dead.contains x
  let votes (c : Phys) : Nat := ((testers c).filter fun x => fails.contains (x, c)).length
  let tested := (dedupe (fails.map (·.2))).filter fun c => !dead.contains c
  let out (c : Phys) : Bool := decide (1 ≤ (testers c).length) && decide (min 2 (testers c).length ≤ votes c)
  let lonely := (dedupe (dead.flatMap physNbrs)).filter fun c => !dead.contains c && decide ((testers c).length = 0)
  ⟨tested.filter out, tested.filter fun c => !out c && decide (votes c = 1), lonely.length⟩

/-- The physical core of region, row and column. -/
def physAt (t : Nat × Nat × Nat) : Phys := ⟨t.1, t.2.1, t.2.2⟩
/-- A FAIL verdict: the tester's region, row and column, and the direction of the neighbour it tested. -/
def failOf (t : Nat × Nat × Nat × Nat) : Option (Phys × Phys) :=
  let p : Phys := ⟨t.1, t.2.1, t.2.2.1⟩
  (physNbr p t.2.2.2).map fun q => (p, q)

/-- The vote carried out: VOTE_RESULT, and the cores that stage 6 appends with their causes; `scan` gives all of them CAUSE SCAN
(R382, R386). Answers whether a core is newly retired and the counts for the stage report. -/
def State.vote (s : State) (scan : Bool) (silent : List (Nat × Nat × Nat)) (verdicts : List (Nat × Nat × Nat × Nat)) :
    State × Bool × Nat :=
  let listed := s.md.unusable
  let quiet := (dedupe (silent.map physAt)).filter fun p => !listed.contains p
  let v := voteOf (listed ++ quiet) (verdicts.filterMap failOf)
  let out := v.retired.map (fun p => (p, if scan then 6 else 2)) ++ quiet.map (fun p => (p, if scan then 6 else 3))
  let s1 := (s.updMd fun m => { m with boot := { m.boot with retired := out } }).wrs
    [(MR.VOTE_RETIRED, min 65535 out.length), (MR.VOTE_SUSPECT, min 65535 v.suspects.length)]
  (s1, decide (out ≠ []), min 65535 out.length + 2 ^ 16 * min 65535 v.suspects.length + 2 ^ 32 * v.unverified)

/-- STAGE_NEIGHBOUR: stage 5 ends with the vote. `silent`: cores that do not answer the service ring, by region, row and column;
`verdicts`: the FAIL verdicts, by tester and direction (R380, R382). -/
def execStageNeighbour (silent : List (Nat × Nat × Nat)) (verdicts : List (Nat × Nat × Nat × Nat)) (s : State) : Out :=
  .next <|
    if !s.inStage 5 then s
    else match s.vote false silent verdicts with | (s1, new, counts) => s1.endStage 5 (b2n new) counts

/-- The retired cores go to the defect list; `saved`: the flash took them (R377, R384). -/
def State.appendRetired (s : State) (saved : Bool) : State :=
  let l := s.md.boot.retired
  (l.foldl (fun s e => s.appendDefect e.1 e.2 saved) s).updMd fun m => { m with boot := { m.boot with retired := [] } }

/-- STAGE_DEFECTS: stage 6 ends; after power-up the pending views are put in force (R377, R384). -/
def execStageDefects (saved : Bool) (s : State) : Out :=
  .next <|
    if !s.inStage 6 then s
    else
      let warn := !saved && decide (s.md.boot.retired ≠ [])
      let s1 := s.appendRetired saved
      (if s1.md.boot.cold then s1.remapNow else s1).endStage 6 (b2n warn) 0

/-! ### Stages 7 and 8 (R387 to R390) -/

/-- The REQUIRED ports that are not TOPO_OK. -/
def State.topoMissing (s : State) : List Nat :=
  (List.range 36).filter fun p => bitOf (topoEntry s.md.boot.exp p).1 0 && !s.topoOk p

/-- Stage 9: the module is READY and HALTED. -/
def State.becomeReady (s : State) : State :=
  ((s.report 8 0 0).wrs [(MR.MOD_STATE, 1), (MR.RUN_STATE, rsHalted)]).report 9 0 0

/-- The topology checked: TOPO_OK of every port, and in stage 8 READY, or the lowest REQUIRED port that does not match (R390). -/
def State.topoCheck (s : State) : State :=
  let s1 := s.markTopo
  if !s1.inStage 8 || decide (s1.rd MR.TOPO_EXPECT_VALID = 0) then s1
  else
    match s1.topoMissing with
    | [] => s1.becomeReady
    | p :: _ => if s1.rd MR.DETAIL = p then s1 else s1.report 8 3 p

/-- STAGE_TRAIN: stage 7 ends; `fail`: a channel of a stack failed its training. DETAIL holds 32 times the stack plus the channel
(R387, log 21). Stage 8 begins with a check (R390). -/
def execStageTrain (fail : Bool) (stack channel : Nat) (s : State) : Out :=
  .next <|
    if !s.inStage 7 then s
    else
      let s1 := s.stageRamps 7
      if fail then s1.failStage 7 (32 * stack + channel)
      else if (List.range 36).all fun p => decide (s1.portRd p PR.LINK_UP = 0) then s1.failStage 7 0xFFFF
      else
        let ready (u : Hub) : Hub := u.wrs ((List.range 4).flatMap fun i => [(ctl i KR.TRAINED, 1), (ctl i KR.CH_FAILED, 0)])
        (((List.range 4).foldl (fun s h => s.updHub h ready) s1).endStage 7 0 0).topoCheck

/-- A HELLO or HELLO_ACK of port `p` (R388, R404). The destination address of a link-local packet is a free value. -/
def State.hello (s : State) (p typ : Nat) : State :=
  let h := p / 9
  let body := s.fmBody typ (leBytes 1 p ++ leBytes 1 (s.portRd p PR.LANE_RATE) ++ List.replicate 6 0)
  let bytes := ryudonBytes 7 false false 0 0 0xFFFFFFFF 0xFFFFFFFF 0 0 ((s.hub h).rd HR.HUB_GEN) (2 ^ blockCount body.length - 1) body
  let f := s.fresh 128
  let v4 := decide ((s.hub h).rd HR.IPV4 = 1)
  f.2.emit (.ryudon
    { port := p, mac := s.nextHop p, v4 := v4, src := s.portAddr p v4, dst := leBytes 16 f.1.toNat, srcPort := 49152,
      dstPort := (s.hub h).rd HR.UDP_PORT, dscp := (s.hub h).regs.inForce HR.DSCP_CTRL, ecn := 2,
      vlan := if s.portRd p PR.VLAN_EN = 1 then some (s.portRd p PR.VLAN_ID, s.portRd p PR.VLAN_PCP) else none, payload := bytes })

/-- HELLO_TIMER: every 1 ms in stage 8 port `p`, UP and without HELLO_ACK, sends HELLO (R388). -/
def execHelloTimer (p : Nat) (s : State) : Out :=
  .next (if s.inStage 8 && decide (s.portRd p PR.LINK_UP = 1) && !s.md.boot.greeted.contains p then s.hello p 1 else s)

/-- A link-local FM packet at port `p`: after the checks of its CRCs, its body (R388). -/
def State.linkLocal (s : State) (p typ : Nat) (b : List Byte) (f : List Byte → State) : State :=
  if s.portRd p PR.LINK_UP = 0 then s
  else if b.length < 32 ∨ leNat ((b.drop 28).take 4) ≠ crc32c (b.take 28) then s.hubCount (p / 9) HR.HDR_CRC_ERR 1
  else
    let x := Header.ofBytes b
    match x.ctlBody b with
    | none => s.hubCount (p / 9) HR.BLOCK_CRC_ERR 1
    | some body =>
      if x.typ = 7 ∧ x.src = 0xFFFFFFFF ∧ x.dst = 0xFFFFFFFF ∧ leNat (body.take 1) = typ then f body else s

/-- HELLO: port `p` receives a HELLO and answers HELLO_ACK (R388). -/
def execHello (p : Nat) (b : List Byte) (s : State) : Out := .next (s.linkLocal p 1 b fun _ => s.hello p 2)

/-- HELLO_ACK: port `p` records its peer in DISC_PEER, and the topology is checked (R388, R390). -/
def execHelloAck (p : Nat) (b : List Byte) (s : State) : Out :=
  .next (s.linkLocal p 2 b fun body =>
    let entry := leBytes 1 1 ++ (body.drop 16).take 1 ++ List.replicate 6 0 ++ (body.drop 8).take 8
    (s.updMd fun m => { m with boot := { m.boot with disc := Sparse.blit 0 m.boot.disc (16 * p) entry,
                                                     greeted := m.boot.greeted.filter (· ≠ p) ++ [p] } }).topoCheck)

/-- LINK_TRAINING_DONE: the training of port `p` ends UP, or FAILED with FLT_LINK_TRAIN and the lanes that locked (R308);
the topology is checked again (R390). -/
def execLinkTrainingDone (p : Nat) (ok : Bool) (lanes : BitVec 4) (s : State) : Out :=
  .next <| if s.portRd p PR.TRAIN_STATE ≠ 1 then s
  else if ok then ((((s.portWr p PR.TRAIN_STATE 2).portWr p PR.LINK_UP 1).portWr p PR.LANES_LOCKED 15).topoCheck).refPort p true
  else (((s.portWr p PR.TRAIN_STATE 3).portWr p PR.LANES_LOCKED lanes.toNat).downCount p).logFault logLinkTrain 2 p

/-- TOPO_EXP or TOPO_EXPECT_VALID written (R389, R390). -/
def State.topoWrite (s : State) (off v : Nat) : State :=
  (if off = 0x84C then s.wr MR.TOPO_EXPECT_VALID (v / 2 ^ 31)
   else s.updMd fun m => { m with boot := { m.boot with exp := Sparse.blit 0 m.boot.exp (off - 0x900) (leBytes 4 v) } }).topoCheck

/-- TOPO_EXPECT_WRITE: a write of a word of TOPO_EXP, or of TOPO_EXPECT_VALID, by its offset in the module window (R390). -/
def execTopoExpectWrite (off : BitVec 16) (v : BitVec 32) (s : State) : Out :=
  .next (if off = 0x84C ∨ (0x900 ≤ off ∧ off < 0xB40) then s.topoWrite (off.toNat / 4 * 4) v.toNat else s)

/-! ### SCAN (R386) -/

/-- BOOT_CMD = SCAN: stage 5 is in progress again (R378). -/
def State.scan (s : State) : State :=
  if s.runState ≠ rsHalted ∨ !s.isReady then s.ignoreCmd
  else
    let wipe (c : Core) : Core :=
      let c1 := c.dropCtx.zeroSpad
      { c1 with slots := [] }
    let s1 := { s with cores := s.cores.map fun (e : Nat × Core) => (e.1, wipe e.2) }
    (s1.wrs [(MR.RUN_STATE, rsLoading), (MR.RESUME_VALID, 0), (MR.STAGE, 5), (MR.STAGE_RESULT, 3), (MR.DETAIL, 0)]).updMd fun m =>
      { m with boot := { m.boot with scan := true }, tu := { m.tu with stopped := false, active := [], held := [] } }

/-- BOOT_SCAN: BOOT_CMD = SCAN (R386). -/
def execBootScan (s : State) : Out := .next s.scan

/-- SCAN_COMPLETE: stages 5 and 6 have run again, with their reports; then BOOT_STATUS shows stage 9 again (R386, log 20). -/
def execScanComplete (silent : List (Nat × Nat × Nat)) (verdicts : List (Nat × Nat × Nat × Nat)) (saved : Bool) (s : State) : Out :=
  .next <|
    if !s.md.boot.scan then s
    else
      match s.vote true silent verdicts with
      | (s1, new, counts) =>
        let warn := !saved && decide (s1.md.boot.retired ≠ [])
        let s2 := ((s1.report 5 (b2n new) counts).appendRetired saved).report 6 (b2n warn) 0
        (s2.updMd fun m => { m with boot := { m.boot with scan := false } }).wrs
          [(MR.RUN_STATE, rsHalted), (MR.STAGE, 9), (MR.STAGE_RESULT, 0), (MR.DETAIL, 0)]

end Sys2Proof.Machine
end

