-- ==== Sys2Proof/Machine/Engine.lean ====
section
/-!
DEFINITION. The matrix engine (05): the run with its checks, operand streams dense and sparse, the dot-product rules, the
readout, and the queued commands as they start (R119 to R133, R150 to R157).
-/
namespace Sys2Proof.Machine

/-! ### Formats of a run (R122) -/

/-- The families of R123: 0 plain FP8, 1 16-bit, 2 INT8, 3 MX, 4 reserved. -/
def fmtFamily (f : Nat) : Nat :=
  if f ≤ 1 then 0 else if f ≤ 3 then 1 else if f = 4 then 2 else if f ≤ 9 then 3 else 4

/-- The bits of one element of a run format. -/
def fmtBits (f : Nat) : Nat := if f = 2 ∨ f = 3 then 16 else if f = 7 ∨ f = 8 then 6 else if f = 9 then 4 else 8

/-- Bytes per 16-element vector of a run format. -/
def fmtVec (f : Nat) : Nat := 2 * fmtBits f

/-- The exact value of an element of a run format (R115). -/
def fmtValue (f v : Nat) : FV :=
  match f with
  | 0 | 5 => Fmt.e4m3.decode v
  | 1 | 6 => Fmt.e5m2.decode v
  | 2 => Fmt.bf16.decode v
  | 3 => Fmt.fp16.decode v
  | 4 => FV.ofInt (BitVec.ofNat 8 v).toInt 0
  | 7 => Fmt.e3m2.decode v
  | 8 => Fmt.e2m3.decode v
  | _ => Fmt.e2m1.decode v

/-- The accumulator kind that a family calls for (R118). -/
def familyKind (f : Nat) : AccKind := match fmtFamily f with | 0 => .fixedFp | 2 => .fixedInt | _ => .fp32

/-- A run descriptor (R122). -/
structure RunDesc where
  oawA : Nat
  oawB : Nat
  oawSA : Nat
  oawSB : Nat
  fmtA : Nat
  fmtB : Nat
  sparse : Nat
  rsv : Nat
  k : Nat
  oawM : Nat
  deriving DecidableEq, Repr

/-- The fields of the 64 bytes of a run descriptor. -/
def RunDesc.ofBytes (d : List Byte) : RunDesc :=
  let q (o n : Nat) : Nat := leNat ((d.drop o).take n)
  let f := q 0x20 4
  let k := q 0x24 4
  ⟨q 0 8, q 8 8, q 0x10 8, q 0x18 8, bits f 3 0, bits f 7 4, bits f 9 8, f / 2 ^ 10 + k / 2 ^ 25 + q 0x30 16, bits k 24 0,
    q 0x28 8⟩

/-- A run over MX formats. -/
def RunDesc.mx (r : RunDesc) : Bool := decide (fmtFamily r.fmtA = 3)

/-- The conditions under which SPARSE is accepted (R155). -/
def RunDesc.sparseOk (r : RunDesc) : Bool :=
  match r.sparse with
  | 0 => decide (r.oawM = 0)
  | 1 => decide (r.fmtA ≤ 8) && decide (r.fmtA ≠ 9) && decide (r.fmtB ≠ 9) && decide (r.k % 4 = 0) && decide (r.oawM ≠ 0)
  | 2 => decide (r.fmtB ≤ 8) && decide (r.fmtA ≠ 9) && decide (r.fmtB ≠ 9) && decide (r.k % 4 = 0) && decide (r.oawM ≠ 0)
  | _ => decide (fmtFamily r.fmtA ≤ 2) && decide (r.k % 64 = 0) && decide (r.oawM ≠ 0)

/-- The descriptor checks of R123 that raise FLT_MX_DESC before any OAW is checked. -/
def RunDesc.ok (r : RunDesc) : Bool :=
  decide (r.rsv = 0) && decide (fmtFamily r.fmtA ≠ 4) && decide (fmtFamily r.fmtA = fmtFamily r.fmtB) &&
    decide (1 ≤ r.k) && decide (r.k ≤ 2 ^ 24) && (!r.mx || decide (r.k % 32 = 0)) &&
    (if r.mx then decide (r.oawSA ≠ 0) && decide (r.oawSB ≠ 0) else decide (r.oawSA = 0) && decide (r.oawSB = 0)) &&
    r.sparseOk

/-- The OAWs that a run uses, in descriptor order. -/
def RunDesc.oaws (r : RunDesc) : List Oaw :=
  [Oaw.ofNat r.oawA, Oaw.ofNat r.oawB] ++ (if r.mx then [Oaw.ofNat r.oawSA, Oaw.ofNat r.oawSB] else []) ++
    (if r.sparse ≠ 0 then [Oaw.ofNat r.oawM] else [])

/-- The first OAW that fails its checks: its fault and its base (R92). -/
def firstBadOaw : List Oaw → Option (Nat × Nat)
  | [] => none
  | o :: os => match o.check with | some f => some (f, o.base) | none => firstBadOaw os

/-- Bytes of a dense operand stream, and of a scale stream (R124). -/
def RunDesc.needA (r : RunDesc) : Nat := r.k * fmtVec r.fmtA
def RunDesc.needB (r : RunDesc) : Nat := r.k * fmtVec r.fmtB
def RunDesc.needS (r : RunDesc) : Nat := r.k / 32 * 16

/-- Check 1 of R123: each dense stream and each scale stream is long enough. A sparse stream may end early (R157). -/
def RunDesc.longEnough (r : RunDesc) : Bool :=
  (r.sparse = 1 ∨ r.sparse = 3 ∨ r.needA ≤ (Oaw.ofNat r.oawA).total) &&
    (decide (r.sparse = 2) || decide (r.needB ≤ (Oaw.ofNat r.oawB).total)) &&
    (!r.mx || decide (r.needS ≤ (Oaw.ofNat r.oawSA).total) && decide (r.needS ≤ (Oaw.ofNat r.oawSB).total))

/-- The fault that the checks of R123 raise, in their order, with an address. -/
def RunDesc.fault (r : RunDesc) (e : Engine) (addr : Nat) : Option (Nat × Nat) :=
  if !r.ok then some (fltMxDesc, addr)
  else
    match firstBadOaw r.oaws with
    | some f => some f
    | none =>
      if !r.longEnough then some (fltMxDesc, addr)
      else if e.kind ≠ .none ∧ e.kind ≠ familyKind r.fmtA then some (fltMxKind, addr)
      else if familyKind r.fmtA ≠ .fp32 ∧ 2 ^ 24 < e.kCount + r.k then some (fltMxKLimit, addr)
      else none

/-! ### Operands (R124, R150 to R157) -/

/-- Element `p` of vector `i` of a dense stream. -/
def vecElem (f : Nat) (bs : List Byte) (i p : Nat) : Nat :=
  bits (leNat ((bs.drop (i * fmtVec f)).take (fmtVec f))) (fmtBits f * p + fmtBits f - 1) (fmtBits f * p)

/-- A sparse operand expanded: the element at position `p` of K step `k`, and what was counted (R151, R157). -/
structure Expanded where
  elem : List (List Nat)
  dup : Nat
  oor : Nat
  deriving DecidableEq, Repr

/-- One 2:4 group expanded: four K steps of sixteen elements (R151). -/
def expandGroup (info : Nat) (s0 s1 : Nat → Nat) : List (List Nat) :=
  (List.range 4).map fun i => (List.range 16).map fun p =>
    let nib := bits info (4 * p + 3) (4 * p)
    if nib % 4 = i then s0 p else if nib / 4 = i then s1 p else 0

/-- A 2:4 operand over K steps from its value and metadata streams (R150, R151, R157). -/
def expand24 (f k : Nat) (vals info : List Byte) : Expanded :=
  let nv := vals.length / fmtVec f
  let nm := info.length / 8
  let word (q : Nat) : Nat := if q < nm then leNat ((info.drop (8 * q)).take 8) else 0
  let slot (i p : Nat) : Nat := if i < nv then vecElem f vals i p else 0
  ⟨(List.range (k / 4)).flatMap fun q => expandGroup (word q) (slot (2 * q)) (slot (2 * q + 1)),
    (List.range (k / 4)).foldl (fun a q => a + ((List.range 16).filter fun p =>
      bits (word q) (4 * p + 1) (4 * p) = bits (word q) (4 * p + 3) (4 * p + 2)).length) 0,
    (k / 2 - nv) + (k / 4 - nm)⟩

/-- The parse of a bitmap's META in full form: the words left, the words missing, and the elements set (R153, R157). -/
structure BitmapParse where
  words : List Nat
  oor : Nat
  set : List Nat
  deriving DecidableEq, Repr

/-- The next word; a missing one reads 0 and counts. -/
def BitmapParse.next (s : BitmapParse) : Nat × BitmapParse :=
  match s.words with
  | [] => (0, { s with oor := s.oor + 1 })
  | w :: ws => (w, { s with words := ws })

/-- The L2 word of block `b` and its L3 words. -/
def BitmapParse.block (s : BitmapParse) (b : Nat) : BitmapParse :=
  let l2 := s.next
  ((List.range 64).filter fun g => l2.1.testBit g).foldl (fun s g =>
    let l3 := s.next
    { l3.2 with set := l3.2.set ++ ((List.range 64).filter fun i => l3.1.testBit i).map fun i => 4096 * b + 64 * g + i })
    l2.2

/-- A bitmap operand over K steps (R153, R156, R157). -/
def expandBitmap (f k : Nat) (vals info : List Byte) : Expanded :=
  let ws := (List.range (info.length / 8)).map fun q => leNat ((info.drop (8 * q)).take 8)
  let ps := (List.range ((k + 255) / 256)).foldl BitmapParse.block ⟨ws, 0, []⟩
  let inside := ps.set.filter fun e => e < 16 * k
  let eb := fmtBits f / 8
  let nv := vals.length / eb
  let val (m : Nat) : Nat := if m < nv then leNat ((vals.drop (m * eb)).take eb) else 0
  ⟨(List.range k).map fun kk => (List.range 16).map fun r =>
      match inside.findIdx? (· == 1024 * (kk / 64) + 64 * r + kk % 64) with
      | some m => val m
      | none => 0,
    0, ps.oor + (ps.set.length - inside.length) + (inside.length - nv)⟩

/-- A dense operand over K steps. -/
def expandDense (f k : Nat) (bs : List Byte) : Expanded :=
  ⟨(List.range k).map fun i => (List.range 16).map fun p => vecElem f bs i p, 0, 0⟩

/-! ### Accumulation (R128 to R132) -/

/-- A FIXED cell after one product (R118, R128, R129, R132); `sc` is the scale of A's unit, 32 or 0. The NAN event counts
when the special state becomes NAN with no NaN operand. -/
def cellFixed (sc : Int) (c : Cell) (a b : FV) : Cell × Events :=
  if c.special = .nan then (c, Events.zero)
  else
    match a.mul b with
    | .fin neg m e => ({ c with acc := c.acc + (FV.fin neg m e).atExp (-sc) }, Events.zero)
    | .nan => ({ c with special := .nan }, if a.isNan || b.isNan then Events.zero else { nan := 1 })
    | .inf neg =>
      match c.special with
      | .finite => ({ c with special := if neg then .negInf else .posInf }, Events.zero)
      | .posInf => if neg then ({ c with special := .nan }, { nan := 1 }) else (c, Events.zero)
      | _ => if neg then (c, Events.zero) else ({ c with special := .nan }, { nan := 1 })

/-- The sum of exact values. -/
def sumFV (l : List FV) : FV := l.foldl FV.add (FV.fin false 0 0)

/-- The FP32 result of an exact sum of terms: +0 where the sum is zero; a NaN counts only where no operand was NaN
(R130 to R132). -/
def accRound (nanIn : Bool) (x : FV) : Word × Events := if x.isZero then (0, Events.zero) else toFp32 nanIn x

/-- One group of R131: the products of up to eight steps and the accumulator, truncated to 2^(E - 55) and added. -/
def accGroup (acc : Word) (ps : List (FV × FV)) : Word × Events :=
  let nanIn := (fpv acc).isNan || ps.any fun p => p.1.isNan || p.2.isNan
  let terms := fpv acc :: ps.map fun p => p.1.mul p.2
  let big := (terms.filter fun x => !x.isZero).map FV.log2
  match big with
  | [] => (0, Events.zero)
  | e :: es =>
    if terms.any fun x => x.isNan || x.isInf then accRound nanIn (sumFV terms)
    else accRound nanIn (sumFV (terms.map fun x => x.truncTo (es.foldl max e - 55)))

/-- One block of R130: the exact block value under its scales, added with one rounding. -/
def accBlock (acc : Word) (sa sb : Nat) (ps : List (FV × FV)) : Word × Events :=
  if sa = 255 ∨ sb = 255 then (nanW, Events.zero)
  else
    let nanIn := (fpv acc).isNan || ps.any fun p => p.1.isNan || p.2.isNan
    accRound nanIn ((fpv acc).add ((sumFV (ps.map fun p => p.1.mul p.2)).scale ((sa : Int) - 127 + ((sb : Int) - 127))))

/-- A list cut into groups of `g`, `fuel` of them at most. -/
def chunks {α : Type} (g : Nat) : Nat → List α → List (List α)
  | 0, _ => []
  | _ + 1, [] => []
  | n + 1, l => l.take g :: chunks g n (l.drop g)

/-- One FP32 cell over a run of 16-bit operands (R131). -/
def cellFp (c : Cell) (ps : List (FV × FV)) : Cell × Events :=
  let r := (chunks 8 ps.length ps).foldl (fun (st : Word × Events) g =>
    let q := accGroup st.1 g
    (q.1, st.2.add q.2)) (BitVec.ofInt 32 c.acc, Events.zero)
  ({ c with acc := r.1.toNat }, r.2)

/-- One FP32 cell over a run of MX operands with the scales of its row and column by block (R130). -/
def cellMx (c : Cell) (ps : List (FV × FV)) (sa sb : List Nat) : Cell × Events :=
  let gs := chunks 32 ps.length ps
  let r := (List.range gs.length).foldl (fun (st : Word × Events) b =>
    let q := accBlock st.1 (nth 0 sa b) (nth 0 sb b) (nth [] gs b)
    (q.1, st.2.add q.2)) (BitVec.ofInt 32 c.acc, Events.zero)
  ({ c with acc := r.1.toNat }, r.2)

/-- One FIXED cell over a run. -/
def cellInt (sc : Int) (c : Cell) (ps : List (FV × FV)) : Cell × Events :=
  ps.foldl (fun (st : Cell × Events) p => let q := cellFixed sc st.1 p.1 p.2; (q.1, st.2.add q.2)) (c, Events.zero)

/-- One cell over a run: the operands of its row and its column, and their scales. -/
def cellRun (r : RunDesc) (c : Cell) (as bs : List Nat) (sa sb : List Nat) : Cell × Events :=
  let ps := (as.zip bs).map fun p => (fmtValue r.fmtA p.1, fmtValue r.fmtB p.2)
  let q := match familyKind r.fmtA with
    | .fixedFp => cellInt 32 c ps
    | .fixedInt => cellInt 0 c ps
    | _ => if r.mx then cellMx c ps sa sb else cellFp c ps
  ({ q.1 with flags := q.1.flags ||| q.2.flags.toNat }, q.2)

/-- All cells over a run: the cells after it and the events of all. -/
def cellsRun (r : RunDesc) (cells : Sparse Cell) (a b : List (List Nat)) (sa sb : Nat → List Nat) : Sparse Cell × Events :=
  (List.range 256).foldl (fun (st : Sparse Cell × Events) i =>
    let q := cellRun r (Sparse.get .reset st.1 i) (a.map fun v => nth 0 v (i / 16)) (b.map fun v => nth 0 v (i % 16))
      (sa (i / 16)) (sb (i % 16))
    (Sparse.set .reset st.1 i q.1, st.2.add q.2)) (cells, Events.zero)

/-- The streams of a run in the order A, B, SA, SB, M, as bytes. -/
def Core.readStreams (c : Core) : List (Oaw × Nat) → Except Nat (List (List Byte)) × Core
  | [] => (.ok [], c)
  | (o, need) :: l =>
    match c.readStream o need with
    | (.error w, c1) => (.error w, c1)
    | (.ok b, c1) =>
      match c1.readStreams l with
      | (.error w, c2) => (.error w, c2)
      | (.ok bs, c2) => (.ok (b :: bs), c2)

/-- The bytes of each stream that a run reads: a sparse operand's values and metadata as far as they go. -/
def RunDesc.streams (r : RunDesc) : List (Oaw × Nat) :=
  let a := Oaw.ofNat r.oawA
  let b := Oaw.ofNat r.oawB
  [(a, if r.sparse = 1 then r.needA / 2 else if r.sparse = 3 then a.total else r.needA),
   (b, if r.sparse = 2 then r.needB / 2 else r.needB)] ++
  (if r.mx then [(Oaw.ofNat r.oawSA, r.needS), (Oaw.ofNat r.oawSB, r.needS)] else []) ++
  (if r.sparse = 0 then [] else
    [(Oaw.ofNat r.oawM, if r.sparse = 3 then (Oaw.ofNat r.oawM).total else r.k * 2)])

/-- A run starts: its checks, then its K steps (R118, R123 to R133). -/
def Core.engineRun (c : Core) (addr : Nat) : Work :=
  match c.readSpad addr 64 with
  | (.error w, c1) => (c1, some (.ofUnit 1 fltSpadUncorrectable (w * 8)))
  | (.ok d, c1) =>
    let r := RunDesc.ofBytes d
    match r.fault c1.eng addr with
    | some (f, a) => (c1, some (.ofUnit 1 f a))
    | none =>
      match c1.readStreams r.streams with
      | (.error w, c2) => (c2, some (.ofUnit 1 fltSpadUncorrectable (w * 8)))
      | (.ok ss, c2) =>
        let info := nth [] ss (if r.mx then 4 else 2)
        let ea := if r.sparse = 1 then expand24 r.fmtA r.k (nth [] ss 0) info
          else if r.sparse = 3 then expandBitmap r.fmtA r.k (nth [] ss 0) info
          else expandDense r.fmtA r.k (nth [] ss 0)
        let eb := if r.sparse = 2 then expand24 r.fmtB r.k (nth [] ss 1) info else expandDense r.fmtB r.k (nth [] ss 1)
        let scale (i row : Nat) : List Nat :=
          (List.range (r.k / 32)).map fun b => (nth 0 (nth [] ss i) (16 * b + row)).toNat
        let q := cellsRun r c2.eng.cells ea.elem eb.elem (scale 2) (scale 3)
        let c3 := { c2 with eng := { c2.eng with cells := q.1, kind := familyKind r.fmtA,
                                                 kCount := min (c2.eng.kCount + r.k) (2 ^ 25 - 1) } }
        (((c3.countEvents q.2).countSat CR.DUP_META_COUNT CR.DUP_SAT (ea.dup + eb.dup)).countSat
          CR.OOR_COUNT CR.OOR_SAT (ea.oor + eb.oor) |>.progress, none)

/-! ### Readout (R126, R127) -/

/-- An output descriptor (R126). -/
structure OutDesc where
  dest : Nat
  pitch : Nat
  fmt : Nat
  trans : Bool
  clear : Bool
  hm : Bool
  cz : Bool
  scale : Int
  elemBase : Word
  rsv : Nat
  deriving DecidableEq, Repr

/-- The fields of the 32 bytes of an output descriptor. -/
def OutDesc.ofBytes (d : List Byte) : OutDesc :=
  let q (o n : Nat) : Nat := leNat ((d.drop o).take n)
  let f := q 8 4
  ⟨bits (q 0 4) 17 0, bits (q 4 4) 17 0, bits f 2 0, bitOf f 3, bitOf f 4, bitOf f 5, bitOf f 6,
    (BitVec.ofNat 8 (bits f 15 8)).toInt, BitVec.ofNat 32 (q 12 4),
    q 0 4 / 2 ^ 18 + q 4 4 / 2 ^ 18 + b2n (bitOf f 7) + f / 2 ^ 16 + q 0x10 16⟩

/-- Bytes of one output element. -/
def OutDesc.elemBytes (o : OutDesc) : Nat := match o.fmt with | 0 => 4 | 1 => 2 | 2 => 2 | 5 => 4 | _ => 1

/-- OUT_FMT names an integer format. -/
def OutDesc.isInt (o : OutDesc) : Bool := decide (5 ≤ o.fmt)

/-- The checks of R126 in its order: the fault and its address. DESIGN CHOICE (log 75): an output descriptor has no OAW, so FAULT_ADDR_LO
of FLT_MISALIGNED and FLT_LOCAL_ADDR is DEST, where PITCH is misaligned too (R147). -/
def OutDesc.fault (o : OutDesc) (kind : AccKind) (addr : Nat) : Option (Nat × Nat) :=
  let rb := 16 * o.elemBytes
  if o.rsv ≠ 0 ∨ o.fmt = 7 ∨ (o.isInt = false ∧ kind = .fixedInt) ∨ (o.isInt = true ∧ (kind = .fixedFp ∨ kind = .fp32)) ∨
      (o.isInt = true ∧ o.scale ≠ 0) then some (fltMxDesc, addr)
  else if o.cz then none
  else if o.dest % rb ≠ 0 ∨ o.pitch % rb ≠ 0 then some (fltMisaligned, o.dest)
  else if spadSize < o.dest + 15 * o.pitch + rb then some (fltLocalAddr, o.dest)
  else none

/-- The exact value of a cell before conversion (R127). -/
def cellValue (k : AccKind) (scale : Int) (c : Cell) : FV :=
  match k with
  | .none => .fin false 0 0
  | .fp32 => (fpv (BitVec.ofInt 32 c.acc)).scale scale
  | _ =>
    match c.special with
    | .nan => .nan
    | .posInf => .inf false
    | .negInf => .inf true
    | .finite => FV.ofInt c.acc (if k = .fixedFp then scale - 32 else 0)

/-- The float format of OUT_FMT. -/
def outFmt (f : Nat) : Fmt := match f with | 0 => .fp32 | 1 => .bf16 | 2 => .fp16 | 3 => .e4m3 | _ => .e5m2

/-- One cell converted to OUT_FMT: its bits and events (R127, R129, R134, R135). -/
def cellOut (o : OutDesc) (e : Engine) (rnd : Rnd) (c : Cell) : Nat × Events :=
  match o.fmt with
  | 5 => satInt 32 c.acc
  | 6 => satInt 8 c.acc
  | f => let v := cellValue e.kind o.scale c; roundTo (outFmt f) rnd e.ovfIeee v.isNan v

/-- The element as the compressor ranks it (R153, R163). -/
def outElem (o : OutDesc) (v : Nat) : OutElem :=
  let w := 8 * o.elemBytes
  if o.isInt then ⟨v, decide (v ≠ 0), ((BitVec.ofNat w v).toInt).natAbs⟩
  else ⟨v, decide (v % 2 ^ (w - 1) ≠ 0), v % 2 ^ (w - 1)⟩

/-- The 16 rows written at DEST, PITCH apart (R126, R127). Answers also how many were. -/
def Core.writeRows (c : Core) (dest pitch : Nat) : List (List Byte) → Work × Nat
  | [] => ((c, none), 0)
  | r :: rs =>
    match c.writeSpad dest r with
    | (some w, c1) => ((c1, some (.ofUnit 1 fltSpadUncorrectable (w * 8))), 0)
    | (none, c1) => let q := c1.progress.writeRows (dest + pitch) pitch rs; (q.1, q.2 + 1)

/-- A readout starts: its checks, then its 16 rows; it folds what it wrote. One that a fault ends does not clear the accumulators (R126,
R127, R147, R161, R165, R263). -/
def Core.engineOut (c : Core) (n addr : Nat) : Work :=
  match c.readInRow addr 32 with
  | (.error w, c1) => (c1, some (.ofUnit 1 fltSpadUncorrectable (w * 8)))
  | (.ok d, c1) =>
    let o := OutDesc.ofBytes d
    match o.fault c1.eng.kind addr with
    | some (f, a) => (c1, some (.ofUnit 1 f a))
    | none =>
      if o.cz && !c1.comp.areasOk then (c1, some (.ofUnit 2 fltCzConfig c1.comp.emptyArea))
      else
        let seed := BitVec.ofNat 64 (c1.rd CR.ROUND_SEED_LO + 2 ^ 32 * c1.rd CR.ROUND_SEED_HI)
        let rnd (i : Nat) : Rnd :=
          if c1.eng.rmode then .seeded (Machine.gen seed (BitVec.ofNat 64 c1.secTick) n 0 (o.elemBase + BitVec.ofNat 32 i)).toNat
          else .rne
        let res := (List.range 256).map fun i => cellOut o c1.eng (rnd i) (Sparse.get .reset c1.eng.cells i)
        let ev := Events.sum (res.map (·.2))
        let at_ (i j : Nat) : Nat := (nth (0, Events.zero) res (if o.trans then 16 * j + i else 16 * i + j)).1
        let cells := (List.range 256).foldl (fun m i => Sparse.set .reset m i
          (let x := Sparse.get .reset m i; { x with flags := x.flags ||| (nth (0, Events.zero) res i).2.flags.toNat }))
          c1.eng.cells
        let c2 := { c1 with eng := { c1.eng with cells := cells } }.countEvents ev
        let finish (w : Work) (l : List Nat) : Work :=
          let c3 := if o.hm then l.foldl (fun c v => c.fold n 0 (BitVec.ofNat 64 v)) w.1 else w.1
          (if o.clear && w.2.isNone then { c3 with eng := { c3.eng with cells := [], kind := .none, kCount := 0 } } else c3, w.2)
        if o.cz then
          let r := c2.czReadout o.elemBytes fun i j => outElem o (at_ i j)
          finish r.1 r.2
        else
          let rows := (List.range 16).map fun i => (List.range 16).map fun j => at_ i j
          let r := c2.writeRows o.dest o.pitch (rows.map fun r => r.flatMap (leBytes o.elemBytes))
          finish r.1 (rows.take r.2).flatten

/-! ### Queued commands (R119) -/

/-- mx.clr: the accumulators return to kind NONE, the cell flags clear (R118, R142). -/
def Core.engineClear (c : Core) : Core := { c with eng := { c.eng with cells := [], kind := .none, kCount := 0 } }

/-- The word of mx.stat and of the register at 0x0304 (R149, log 10). A command's whole work is one step, so BUSY reads 0
between steps. -/
def Core.engineStatus (c : Core) : Nat :=
  min c.eng.queue.length 4 +
    16 * (match c.eng.kind with | .none => 0 | .fixedFp => 1 | .fixedInt => 2 | .fp32 => 3) + 128 * c.eng.kCount

/-- ENGINE_FLAGS: the OR of the cell flags (R142). -/
def Core.engineFlags (c : Core) : Nat := c.eng.cells.foldl (fun a e => a ||| e.2.flags) 0

/-- The command at the head of core `n`'s queue starts, if it is of the kind the event names; its entry is freed and its
work is done (R119). A fault of it is recorded and the tick aborts. -/
def State.engineStep (s : State) (n : Nat) (work : EngCmd → Core → Option Work) : State :=
  let c := s.core n
  match c.eng.queue with
  | [] => s
  | q :: qs =>
    if !c.inSection then s
    else
      match work q { c with eng := { c.eng with queue := qs } } with
      | none => s
      | some (c1, none) => s.setCore n c1
      | some (c1, some i) => (s.setCore n c1).unitFault n i

/-- ENGINE_RUN_CMD: a queued run starts, is checked and accumulates (R123). -/
def execEngineRunCmd (n : Nat) (s : State) : Out :=
  .next (s.engineStep n fun q c => match q with | .run a => some (c.engineRun a) | _ => none)
/-- ENGINE_OUT_CMD: a queued readout (R127). -/
def execEngineOutCmd (n : Nat) (s : State) : Out :=
  .next (s.engineStep n fun q c => match q with | .out a => some (c.engineOut n a) | _ => none)
/-- ENGINE_CLR_CMD: a queued clear (R119). -/
def execEngineClrCmd (n : Nat) (s : State) : Out :=
  .next (s.engineStep n fun q c => match q with | .clr => some (c.engineClear, none) | _ => none)
/-- ENGINE_CFG_CMD: a queued configuration write takes effect for later commands (R119, R121). -/
def execEngineCfgCmd (n : Nat) (s : State) : Out :=
  .next (s.engineStep n fun q c => match q with
    | .cfg w => some ({ c with eng := { c.eng with rmode := w.getLsbD 0, ovfIeee := w.getLsbD 1 } }, none)
    | _ => none)
/-- CZ_CFG_CMD: a queued compressor configuration (R159, R162). -/
def execCzCfgCmd (n : Nat) (s : State) : Out :=
  .next (s.engineStep n fun q c => match q with | .czCfg w => some (c.czConfigure w) | _ => none)
/-- CZ_FLUSH_CMD: a queued flush (R162). -/
def execCzFlushCmd (n : Nat) (s : State) : Out :=
  .next (s.engineStep n fun q c => match q with | .czFlush => some c.czFlush | _ => none)
/-- CZ_HIST_CMD: a queued histogram write (R166). -/
def execCzHistCmd (n : Nat) (s : State) : Out :=
  .next (s.engineStep n fun q c => match q with | .czHist a => some (c.czHistogram a) | _ => none)

/-! ### The instructions that queue commands (R69, R78, R122, R126) -/

/-- An mx.* or cz.* instruction: with its guard true, another thread than the owner raises FLT_ILLEGAL_INSN (R78); the
owner goes on with `f`. -/
def issueOwner (n : Nat) (t : BitVec 3) (pg : BitVec 3) (insn : Nat) (f : State → State) (s : State) : State :=
  issueG n t pg insn (fun s1 =>
    if (s1.core n).eng.owner = t.toNat then f s1 else s1.threadFault n t.toNat fltIllegalInsn 0 false insn) s

/-- A command enters the queue of four, or the thread spins while it is full (R72, R119). -/
def State.queueCmd (s : State) (n : Nat) (t : BitVec 3) (q : EngCmd) : State :=
  if (s.core n).eng.queue.length < 4 then
    (s.updCore n fun c => { c with eng := { c.eng with queue := c.eng.queue ++ [q] } }).retire n t.toNat id
  else s.spin n t.toNat .spin

/-- A command with a descriptor: its address is checked at issue (R122, R126). -/
def State.queueDesc (s : State) (n : Nat) (t : BitVec 3) (insn align : Nat) (addr : Nat) (q : EngCmd) : State :=
  if addr % align ≠ 0 then s.threadFault n t.toNat fltMisaligned addr false insn
  else if spadSize ≤ addr then s.threadFault n t.toNat fltLocalAddr addr false insn
  else s.queueCmd n t q

/-- mx.run: queues an engine operation described at g[a]. -/
def execMxRun (n : Nat) (t : BitVec 3) (a : BitVec 5) (pg : BitVec 3) (s : State) : Out :=
  let w := wordG 0x28 0 a.toNat 0 pg.toNat 0x01
  .next (issueOwner n t pg w (fun s1 => let p := (s1.gOf n t a).toNat; s1.queueDesc n t w 64 p (.run p)) s)
/-- mx.out: queues a readout described at g[a]. -/
def execMxOut (n : Nat) (t : BitVec 3) (a : BitVec 5) (pg : BitVec 3) (s : State) : Out :=
  let w := wordG 0x28 0 a.toNat 0 pg.toNat 0x02
  .next (issueOwner n t pg w (fun s1 => let p := (s1.gOf n t a).toNat; s1.queueDesc n t w 32 p (.out p)) s)
/-- mx.clr: queues a clear. -/
def execMxClr (n : Nat) (t : BitVec 3) (pg : BitVec 3) (s : State) : Out :=
  .next (issueOwner n t pg (wordG 0x28 0 0 0 pg.toNat 0x03) (fun s1 => s1.queueCmd n t .clr) s)
/-- mx.cfg: queues a write of the engine configuration word g[a]. -/
def execMxCfg (n : Nat) (t : BitVec 3) (a : BitVec 5) (pg : BitVec 3) (s : State) : Out :=
  .next (issueOwner n t pg (wordG 0x28 0 a.toNat 0 pg.toNat 0x04) (fun s1 => s1.queueCmd n t (.cfg (s1.gOf n t a))) s)
/-- mx.wait: satisfied when the queue is empty and the engine idle (R72). -/
def execMxWait (n : Nat) (t : BitVec 3) (pg : BitVec 3) (s : State) : Out :=
  .next (issueOwner n t pg (wordG 0x28 0 0 0 pg.toNat 0x05) (fun s1 =>
    if (s1.core n).eng.queue = [] then s1.retire n t.toNat id else s1.spin n t.toNat .spin) s)
/-- mx.stat: g[d] ← the engine status word. -/
def execMxStat (n : Nat) (t : BitVec 3) (d : BitVec 5) (pg : BitVec 3) (s : State) : Out :=
  .next (issueOwner n t pg (wordG 0x28 d.toNat 0 0 pg.toNat 0x06) (fun s1 => s1.updCore n fun c =>
    c.retire t.toNat fun th => th.wg d (BitVec.ofNat 32 c.engineStatus)) s)
/-- cz.cfg: queues a write of the compressor configuration word g[a]. -/
def execCzCfg (n : Nat) (t : BitVec 3) (a : BitVec 5) (pg : BitVec 3) (s : State) : Out :=
  .next (issueOwner n t pg (wordG 0x29 0 a.toNat 0 pg.toNat 0x01) (fun s1 => s1.queueCmd n t (.czCfg (s1.gOf n t a))) s)
/-- cz.flush: queues a flush. -/
def execCzFlush (n : Nat) (t : BitVec 3) (pg : BitVec 3) (s : State) : Out :=
  .next (issueOwner n t pg (wordG 0x29 0 0 0 pg.toNat 0x02) (fun s1 => s1.queueCmd n t .czFlush) s)
/-- cz.hist: queues a write of the histogram to g[a]. -/
def execCzHist (n : Nat) (t : BitVec 3) (a : BitVec 5) (pg : BitVec 3) (s : State) : Out :=
  .next (issueOwner n t pg (wordG 0x29 0 a.toNat 0 pg.toNat 0x03)
    (fun s1 => s1.queueCmd n t (.czHist (s1.gOf n t a).toNat)) s)
/-- cz.stat: g[d] ← the compressor status word. -/
def execCzStat (n : Nat) (t : BitVec 3) (d : BitVec 5) (pg : BitVec 3) (s : State) : Out :=
  .next (issueOwner n t pg (wordG 0x29 d.toNat 0 0 pg.toNat 0x04) (fun s1 => s1.updCore n fun c =>
    c.retire t.toNat fun th => th.wg d (BitVec.ofNat 32 c.czStatus)) s)

end Sys2Proof.Machine
end

