-- ==== Sys2Proof/Machine/Scalar.lean ====
section
/-!
DEFINITION. Integer, immediate, branch, control, compare and predicate instructions (R69, OP 0x00 to 0x0F), each issued
by thread `t` of core `n`.
-/
namespace Sys2Proof.Machine

/-! ### Integer, OP 0x00, form G -/

/-- add: g[d] ← g[a] + g[b]. -/
def execAdd (n : Nat) (t : BitVec 3) (d a b : BitVec 5) (pg : BitVec 3) (s : State) : Out :=
  .next (issueGT n t pg (wordG 0x00 d.toNat a.toNat b.toNat pg.toNat 0x01)
    (fun th => let x := th.rg a; let y := th.rg b; th.wg d (x + y)) s)
/-- sub: g[d] ← g[a] − g[b]. -/
def execSub (n : Nat) (t : BitVec 3) (d a b : BitVec 5) (pg : BitVec 3) (s : State) : Out :=
  .next (issueGT n t pg (wordG 0x00 d.toNat a.toNat b.toNat pg.toNat 0x02)
    (fun th => let x := th.rg a; let y := th.rg b; th.wg d (x - y)) s)
/-- and: bitwise AND. -/
def execAnd (n : Nat) (t : BitVec 3) (d a b : BitVec 5) (pg : BitVec 3) (s : State) : Out :=
  .next (issueGT n t pg (wordG 0x00 d.toNat a.toNat b.toNat pg.toNat 0x03)
    (fun th => let x := th.rg a; let y := th.rg b; th.wg d (x &&& y)) s)
/-- or: bitwise OR. -/
def execOr (n : Nat) (t : BitVec 3) (d a b : BitVec 5) (pg : BitVec 3) (s : State) : Out :=
  .next (issueGT n t pg (wordG 0x00 d.toNat a.toNat b.toNat pg.toNat 0x04)
    (fun th => let x := th.rg a; let y := th.rg b; th.wg d (x ||| y)) s)
/-- xor: bitwise XOR. -/
def execXor (n : Nat) (t : BitVec 3) (d a b : BitVec 5) (pg : BitVec 3) (s : State) : Out :=
  .next (issueGT n t pg (wordG 0x00 d.toNat a.toNat b.toNat pg.toNat 0x05)
    (fun th => let x := th.rg a; let y := th.rg b; th.wg d (x ^^^ y)) s)
/-- sll: g[a] << g[b][4:0]. -/
def execSll (n : Nat) (t : BitVec 3) (d a b : BitVec 5) (pg : BitVec 3) (s : State) : Out :=
  .next (issueGT n t pg (wordG 0x00 d.toNat a.toNat b.toNat pg.toNat 0x06)
    (fun th => let x := th.rg a; let y := th.rg b; th.wg d (x <<< (y.setWidth 5).toNat)) s)
/-- srl: logical right shift by g[b][4:0]. -/
def execSrl (n : Nat) (t : BitVec 3) (d a b : BitVec 5) (pg : BitVec 3) (s : State) : Out :=
  .next (issueGT n t pg (wordG 0x00 d.toNat a.toNat b.toNat pg.toNat 0x07)
    (fun th => let x := th.rg a; let y := th.rg b; th.wg d (x >>> (y.setWidth 5).toNat)) s)
/-- sra: arithmetic right shift by g[b][4:0]. -/
def execSra (n : Nat) (t : BitVec 3) (d a b : BitVec 5) (pg : BitVec 3) (s : State) : Out :=
  .next (issueGT n t pg (wordG 0x00 d.toNat a.toNat b.toNat pg.toNat 0x08)
    (fun th => let x := th.rg a; let y := th.rg b; th.wg d (x.sshiftRight (y.setWidth 5).toNat)) s)
/-- slt: 1 if g[a] < g[b] signed. -/
def execSlt (n : Nat) (t : BitVec 3) (d a b : BitVec 5) (pg : BitVec 3) (s : State) : Out :=
  .next (issueGT n t pg (wordG 0x00 d.toNat a.toNat b.toNat pg.toNat 0x09)
    (fun th => let x := th.rg a; let y := th.rg b; th.wg d (flagWord (x.slt y))) s)
/-- sltu: 1 if g[a] < g[b] unsigned. -/
def execSltu (n : Nat) (t : BitVec 3) (d a b : BitVec 5) (pg : BitVec 3) (s : State) : Out :=
  .next (issueGT n t pg (wordG 0x00 d.toNat a.toNat b.toNat pg.toNat 0x0A)
    (fun th => let x := th.rg a; let y := th.rg b; th.wg d (flagWord (x.ult y))) s)
/-- mul: low 32 bits of the product. -/
def execMul (n : Nat) (t : BitVec 3) (d a b : BitVec 5) (pg : BitVec 3) (s : State) : Out :=
  .next (issueGT n t pg (wordG 0x00 d.toNat a.toNat b.toNat pg.toNat 0x0B)
    (fun th => let x := th.rg a; let y := th.rg b; th.wg d (x * y)) s)
/-- mulh: high 32 bits of the signed product. -/
def execMulh (n : Nat) (t : BitVec 3) (d a b : BitVec 5) (pg : BitVec 3) (s : State) : Out :=
  .next (issueGT n t pg (wordG 0x00 d.toNat a.toNat b.toNat pg.toNat 0x0C)
    (fun th => let x := th.rg a; let y := th.rg b; th.wg d (mulHigh x y)) s)
/-- mulhu: high 32 bits of the unsigned product. -/
def execMulhu (n : Nat) (t : BitVec 3) (d a b : BitVec 5) (pg : BitVec 3) (s : State) : Out :=
  .next (issueGT n t pg (wordG 0x00 d.toNat a.toNat b.toNat pg.toNat 0x0D)
    (fun th => let x := th.rg a; let y := th.rg b; th.wg d (mulHighU x y)) s)
/-- min: signed minimum. -/
def execMin (n : Nat) (t : BitVec 3) (d a b : BitVec 5) (pg : BitVec 3) (s : State) : Out :=
  .next (issueGT n t pg (wordG 0x00 d.toNat a.toNat b.toNat pg.toNat 0x0E)
    (fun th => let x := th.rg a; let y := th.rg b; th.wg d (if x.slt y then x else y)) s)
/-- max: signed maximum. -/
def execMax (n : Nat) (t : BitVec 3) (d a b : BitVec 5) (pg : BitVec 3) (s : State) : Out :=
  .next (issueGT n t pg (wordG 0x00 d.toNat a.toNat b.toNat pg.toNat 0x0F)
    (fun th => let x := th.rg a; let y := th.rg b; th.wg d (if x.slt y then y else x)) s)
/-- minu: unsigned minimum. -/
def execMinu (n : Nat) (t : BitVec 3) (d a b : BitVec 5) (pg : BitVec 3) (s : State) : Out :=
  .next (issueGT n t pg (wordG 0x00 d.toNat a.toNat b.toNat pg.toNat 0x10)
    (fun th => let x := th.rg a; let y := th.rg b; th.wg d (if x.ult y then x else y)) s)
/-- maxu: unsigned maximum. -/
def execMaxu (n : Nat) (t : BitVec 3) (d a b : BitVec 5) (pg : BitVec 3) (s : State) : Out :=
  .next (issueGT n t pg (wordG 0x00 d.toNat a.toNat b.toNat pg.toNat 0x11)
    (fun th => let x := th.rg a; let y := th.rg b; th.wg d (if x.ult y then y else x)) s)
/-- clz: leading zeros of g[a], 32 for zero; field b is zero. -/
def execClz (n : Nat) (t : BitVec 3) (d a : BitVec 5) (pg : BitVec 3) (s : State) : Out :=
  .next (issueGT n t pg (wordG 0x00 d.toNat a.toNat 0 pg.toNat 0x12) (fun th => th.wg d (countLeadingZeros (th.rg a))) s)
/-- popc: set bits of g[a]; field b is zero. -/
def execPopc (n : Nat) (t : BitVec 3) (d a : BitVec 5) (pg : BitVec 3) (s : State) : Out :=
  .next (issueGT n t pg (wordG 0x00 d.toNat a.toNat 0 pg.toNat 0x13) (fun th => th.wg d (countOnes (th.rg a))) s)
/-- slli: g[a] << b, the field value. -/
def execSlli (n : Nat) (t : BitVec 3) (d a b : BitVec 5) (pg : BitVec 3) (s : State) : Out :=
  .next (issueGT n t pg (wordG 0x00 d.toNat a.toNat b.toNat pg.toNat 0x14) (fun th => th.wg d (th.rg a <<< b.toNat)) s)
/-- srli: logical right shift by b. -/
def execSrli (n : Nat) (t : BitVec 3) (d a b : BitVec 5) (pg : BitVec 3) (s : State) : Out :=
  .next (issueGT n t pg (wordG 0x00 d.toNat a.toNat b.toNat pg.toNat 0x15) (fun th => th.wg d (th.rg a >>> b.toNat)) s)
/-- srai: arithmetic right shift by b. -/
def execSrai (n : Nat) (t : BitVec 3) (d a b : BitVec 5) (pg : BitVec 3) (s : State) : Out :=
  .next (issueGT n t pg (wordG 0x00 d.toNat a.toNat b.toNat pg.toNat 0x16) (fun th => th.wg d ((th.rg a).sshiftRight b.toNat)) s)

/-! ### Immediate, form I -/

/-- addi: g[a] + sext(imm). -/
def execAddi (n : Nat) (t : BitVec 3) (d a : BitVec 5) (imm : BitVec 16) (s : State) : Out :=
  .next (issueT n t (wordI 0x01 d.toNat a.toNat imm.toNat) (fun th => th.wg d (th.rg a + sext16 imm)) s)
/-- andi: g[a] AND zext(imm). -/
def execAndi (n : Nat) (t : BitVec 3) (d a : BitVec 5) (imm : BitVec 16) (s : State) : Out :=
  .next (issueT n t (wordI 0x02 d.toNat a.toNat imm.toNat) (fun th => th.wg d (th.rg a &&& zext16 imm)) s)
/-- ori: g[a] OR zext(imm). -/
def execOri (n : Nat) (t : BitVec 3) (d a : BitVec 5) (imm : BitVec 16) (s : State) : Out :=
  .next (issueT n t (wordI 0x03 d.toNat a.toNat imm.toNat) (fun th => th.wg d (th.rg a ||| zext16 imm)) s)
/-- xori: g[a] XOR zext(imm). -/
def execXori (n : Nat) (t : BitVec 3) (d a : BitVec 5) (imm : BitVec 16) (s : State) : Out :=
  .next (issueT n t (wordI 0x04 d.toNat a.toNat imm.toNat) (fun th => th.wg d (th.rg a ^^^ zext16 imm)) s)
/-- slti: 1 if g[a] < sext(imm) signed. -/
def execSlti (n : Nat) (t : BitVec 3) (d a : BitVec 5) (imm : BitVec 16) (s : State) : Out :=
  .next (issueT n t (wordI 0x05 d.toNat a.toNat imm.toNat) (fun th => th.wg d (flagWord ((th.rg a).slt (sext16 imm)))) s)
/-- sltiu: 1 if g[a] < sext(imm) unsigned. -/
def execSltiu (n : Nat) (t : BitVec 3) (d a : BitVec 5) (imm : BitVec 16) (s : State) : Out :=
  .next (issueT n t (wordI 0x06 d.toNat a.toNat imm.toNat) (fun th => th.wg d (flagWord ((th.rg a).ult (sext16 imm)))) s)
/-- lui: imm << 16; field a is zero. -/
def execLui (n : Nat) (t : BitVec 3) (d : BitVec 5) (imm : BitVec 16) (s : State) : Out :=
  .next (issueT n t (wordI 0x07 d.toNat 0 imm.toNat) (fun th => th.wg d (imm ++ 0#16)) s)

/-! ### Branches and control -/

/-- br: if bit 0 of p[p] equals s, the pc goes to pc_br + 4 × sext(off22). -/
def execBr (n : Nat) (t : BitVec 3) (p : BitVec 3) (sv : Bool) (off : BitVec 22) (s : State) : Out :=
  .next (issueT n t (0x0C * 2 ^ 26 + p.toNat * 2 ^ 23 + b2n sv * 2 ^ 22 + off.toNat)
    (fun th => if (th.rp p).getLsbD 0 = sv then { th with pc := th.pc - 4 + (off.signExtend 32 <<< 2) } else th) s)

/-- jal: g[d] ← pc_jal + 4; pc ← pc_jal + 4 × sext(off21). -/
def execJal (n : Nat) (t : BitVec 3) (d : BitVec 5) (off : BitVec 21) (s : State) : Out :=
  .next (issueT n t (0x0D * 2 ^ 26 + d.toNat * 2 ^ 21 + off.toNat)
    (fun th => { th.wg d th.pc with pc := th.pc - 4 + (off.signExtend 32 <<< 2) }) s)

/-- jalr: t ← (g[a] + sext(imm)) with bits 1:0 cleared; g[d] ← pc + 4; pc ← t. -/
def execJalr (n : Nat) (t : BitVec 3) (d a : BitVec 5) (imm : BitVec 16) (s : State) : Out :=
  .next (issueT n t (wordI 0x0E d.toNat a.toNat imm.toNat)
    (fun th => { th.wg d th.pc with pc := (th.rg a + sext16 imm) &&& 0xFFFFFFFC }) s)

/-- thr.end: takes effect once the thread's far stores are acknowledged, its DMA descriptors complete and, for the engine
owner, the engine and compressor idle with empty queues; until then it spins (R80). -/
def execThrEnd (n : Nat) (t : BitVec 3) (pg : BitVec 3) (s : State) : Out :=
  .next (issueG n t pg (wordG 0x0F 0 0 0 pg.toNat 0x01) (fun s1 =>
    let c := s1.core n
    if (c.thread t.toNat).farStores = 0 ∧ (c.dma.queue.all fun d => decide (d.poster ≠ t.toNat)) = true ∧
        (t.toNat = c.eng.owner → c.eng.queue = []) then
      s1.updCore n fun c => c.progress.updThread t.toNat fun th => { th with status := .ended, wait := .none }
    else s1.spin n t.toNat .spin) s)

/-- fence: waits until every far store of the thread is acknowledged; empties the fetch buffer (R76). -/
def execFence (n : Nat) (t : BitVec 3) (pg : BitVec 3) (s : State) : Out :=
  .next (issueG n t pg (wordG 0x0F 0 0 0 pg.toNat 0x02) (fun s1 =>
    if ((s1.core n).thread t.toNat).farStores = 0 then s1.retire n t.toNat fun th => { th with fetchAddr := none }
    else s1.spin n t.toNat .spin) s)

/-- thr.id: g[d] ← thread number. -/
def execThrId (n : Nat) (t : BitVec 3) (d : BitVec 5) (pg : BitVec 3) (s : State) : Out :=
  .next (issueGT n t pg (wordG 0x0F d.toNat 0 0 pg.toNat 0x03) (fun th => th.wg d (t.setWidth 32)) s)

/-- dbg.brk: with debug access open the thread becomes STOPPED, visible to the debugger; with debug access closed it has
no effect (R69, R424). -/
def execDbgBrk (n : Nat) (t : BitVec 3) (pg : BitVec 3) (s : State) : Out :=
  .next (issueG n t pg (wordG 0x0F 0 0 0 pg.toNat 0x04) (fun s1 =>
    if s1.rd MR.DEBUG_STATE = 0 then s1.retire n t.toNat id
    else s1.updCore n fun c =>
      c.progress.updThread t.toNat fun th => { th with status := .stopped, wait := .none, atBreak := true }) s)

/-- An illegal word raises FLT_ILLEGAL_INSN when it is issued, whatever its guard (R67). A legal word is no such event
(log 4). -/
def execIllegalInsn (n : Nat) (t : BitVec 3) (w : Word) (s : State) : Out :=
  .next (if legalWord w.toNat then s else issueIllegal n t w.toNat s)

/-! ### Compare and predicate, form G -/

/-- cmp.eq: p[d] ← 0xFFFF if g[a], g[b] compare equal, else 0. -/
def execCmpEq (n : Nat) (t : BitVec 3) (d : BitVec 3) (a b : BitVec 5) (pg : BitVec 3) (s : State) : Out :=
  .next (issueGT n t pg (wordG 0x08 d.toNat a.toNat b.toNat pg.toNat 0x00)
    (fun th => let x := th.rg a; let y := th.rg b; th.wp d (flagPred (x == y))) s)
/-- cmp.ne: p[d] ← 0xFFFF if g[a], g[b] compare not equal, else 0. -/
def execCmpNe (n : Nat) (t : BitVec 3) (d : BitVec 3) (a b : BitVec 5) (pg : BitVec 3) (s : State) : Out :=
  .next (issueGT n t pg (wordG 0x08 d.toNat a.toNat b.toNat pg.toNat 0x01)
    (fun th => let x := th.rg a; let y := th.rg b; th.wp d (flagPred (x != y))) s)
/-- cmp.lt: p[d] ← 0xFFFF if g[a], g[b] compare signed less than, else 0. -/
def execCmpLt (n : Nat) (t : BitVec 3) (d : BitVec 3) (a b : BitVec 5) (pg : BitVec 3) (s : State) : Out :=
  .next (issueGT n t pg (wordG 0x08 d.toNat a.toNat b.toNat pg.toNat 0x02)
    (fun th => let x := th.rg a; let y := th.rg b; th.wp d (flagPred (x.slt y))) s)
/-- cmp.ge: p[d] ← 0xFFFF if g[a], g[b] compare signed greater or equal, else 0. -/
def execCmpGe (n : Nat) (t : BitVec 3) (d : BitVec 3) (a b : BitVec 5) (pg : BitVec 3) (s : State) : Out :=
  .next (issueGT n t pg (wordG 0x08 d.toNat a.toNat b.toNat pg.toNat 0x03)
    (fun th => let x := th.rg a; let y := th.rg b; th.wp d (flagPred (!x.slt y))) s)
/-- cmp.ltu: p[d] ← 0xFFFF if g[a], g[b] compare unsigned less than, else 0. -/
def execCmpLtu (n : Nat) (t : BitVec 3) (d : BitVec 3) (a b : BitVec 5) (pg : BitVec 3) (s : State) : Out :=
  .next (issueGT n t pg (wordG 0x08 d.toNat a.toNat b.toNat pg.toNat 0x04)
    (fun th => let x := th.rg a; let y := th.rg b; th.wp d (flagPred (x.ult y))) s)
/-- cmp.geu: p[d] ← 0xFFFF if g[a], g[b] compare unsigned greater or equal, else 0. -/
def execCmpGeu (n : Nat) (t : BitVec 3) (d : BitVec 3) (a b : BitVec 5) (pg : BitVec 3) (s : State) : Out :=
  .next (issueGT n t pg (wordG 0x08 d.toNat a.toNat b.toNat pg.toNat 0x05)
    (fun th => let x := th.rg a; let y := th.rg b; th.wp d (flagPred (!x.ult y))) s)
/-- p.and on p[a] and p[b]. -/
def execPAnd (n : Nat) (t : BitVec 3) (d a b : BitVec 3) (pg : BitVec 3) (s : State) : Out :=
  .next (issueGT n t pg (wordG 0x09 d.toNat a.toNat b.toNat pg.toNat 0x00) (fun th => th.wp d (th.rp a &&& th.rp b)) s)
/-- p.or on p[a] and p[b]. -/
def execPOr (n : Nat) (t : BitVec 3) (d a b : BitVec 3) (pg : BitVec 3) (s : State) : Out :=
  .next (issueGT n t pg (wordG 0x09 d.toNat a.toNat b.toNat pg.toNat 0x01) (fun th => th.wp d (th.rp a ||| th.rp b)) s)
/-- p.xor on p[a] and p[b]. -/
def execPXor (n : Nat) (t : BitVec 3) (d a b : BitVec 3) (pg : BitVec 3) (s : State) : Out :=
  .next (issueGT n t pg (wordG 0x09 d.toNat a.toNat b.toNat pg.toNat 0x02) (fun th => th.wp d (th.rp a ^^^ th.rp b)) s)
/-- p.andn on p[a] and p[b]. -/
def execPAndn (n : Nat) (t : BitVec 3) (d a b : BitVec 3) (pg : BitVec 3) (s : State) : Out :=
  .next (issueGT n t pg (wordG 0x09 d.toNat a.toNat b.toNat pg.toNat 0x03) (fun th => th.wp d (th.rp a &&& ~~~(th.rp b))) s)
/-- p.setg: p[d] ← g[a][15:0]. -/
def execPSetg (n : Nat) (t : BitVec 3) (d : BitVec 3) (a : BitVec 5) (pg : BitVec 3) (s : State) : Out :=
  .next (issueGT n t pg (wordG 0x09 d.toNat a.toNat 0 pg.toNat 0x04) (fun th => th.wp d ((th.rg a).setWidth 16)) s)
/-- p.getg: g[d] ← zext(p[a]). -/
def execPGetg (n : Nat) (t : BitVec 3) (d : BitVec 5) (a : BitVec 3) (pg : BitVec 3) (s : State) : Out :=
  .next (issueGT n t pg (wordG 0x09 d.toNat a.toNat 0 pg.toNat 0x05) (fun th => th.wg d (zext16 (th.rp a))) s)
/-- p.any: p[d] ← 0xFFFF if p[a] ≠ 0, else 0. -/
def execPAny (n : Nat) (t : BitVec 3) (d a : BitVec 3) (pg : BitVec 3) (s : State) : Out :=
  .next (issueGT n t pg (wordG 0x09 d.toNat a.toNat 0 pg.toNat 0x06) (fun th => th.wp d (flagPred (th.rp a != 0))) s)
/-- p.all: p[d] ← 0xFFFF if p[a] = 0xFFFF, else 0. -/
def execPAll (n : Nat) (t : BitVec 3) (d a : BitVec 3) (pg : BitVec 3) (s : State) : Out :=
  .next (issueGT n t pg (wordG 0x09 d.toNat a.toNat 0 pg.toNat 0x07) (fun th => th.wp d (flagPred (th.rp a == 0xFFFF))) s)

end Sys2Proof.Machine
end

