-- ==== Sys2Proof/Machine/Input.lean ====
section
/-!
DEFINITION. The power input, the coolant and the reference clock (16).
-/
namespace Sys2Proof.Machine

/-- The input's state changed. -/
def State.updInput (s : State) (f : Input → Input) : State := s.updMd fun m => { m with input := f m.input }

/-! ### Start (R432) -/

/-- ISLAND_UP: the input reaches 42 V and the management island starts. -/
def execIslandUp (s : State) : Out :=
  .next (if s.md.input.start = 0 ∧ !s.md.input.failing then s.updInput fun x => { x with start := 1 } else s)
/-- INRUSH_START: after 10 ms at 46 V or more the limiter begins to charge the bank. -/
def execInrushStart (s : State) : Out :=
  .next (if s.md.input.start = 1 ∧ !s.md.input.failing then s.updInput fun x => { x with start := 2 } else s)
/-- POWER_GOOD: the bank is within 2 V of the input: bring-up stage 1 begins, with REF_SETTLE of the boot configuration in force
(R348). -/
def execPowerGood (s : State) : Out :=
  .next (if s.md.input.start = 2 ∧ !s.md.input.failing then
    (s.updInput fun x => { x with start := 3 }).wr MR.REF_SETTLE_US s.refSettle else s)

/-! ### Power fail (R434) -/

/-- Every domain switches off at once, with its contents. -/
def State.dropDomains (s : State) : State :=
  let off (s : State) (d : Nat) : State :=
    if s.dom d = domOff then s
    else
      let s1 := (s.setDom d domOff).offEffects d
      if domIsLink d then (portsOf (connectorOf d)).foldl (fun s p => s.portOff p) s1 else s1
  (List.range 264).foldl off (s.updMd fun m => { m with pw := { m.pw with domWait := [] } })

/-- A power fail begins: POWER_FAIL and PF_CAUSE, FLT_POWER_FAIL, the domains off, and the RESET record. -/
def State.powerFail (s : State) (cause : Nat) : State :=
  if s.md.input.failing || decide (s.md.input.start = 0) then s
  else
    let s1 := ((s.wrs [(MR.POWER_FAIL, 1), (MR.PF_CAUSE, cause)]).updInput fun x => { x with failing := true }).beginAbort
      (.ofModule 0 logPowerFail)
    (s1.dropDomains.logRec 4 0 0 3 0 cause).wrs [(MR.LAST_DOMAIN, 3), (MR.LAST_INDEX, 0), (MR.LAST_CAUSE, 0)]

/-- The registers that a power-off leaves: what the flash, the pins and the management island hold. -/
def powerKept : List Fld := [MR.POWER_FAIL, MR.PF_CAUSE, MR.CABLE_PRESENT_LO, MR.CABLE_PRESENT_HI, MR.LOG_WR]

/-- The module after its main regulators switched off (log 23): as after power-on, with what flash, fuses and the management
island keep, and the MP log, which holds the RESET record of the power fail. -/
def State.powerOff (s0 : State) : State :=
  let s := s0.cutCommit
  let m := s.md
  let kept : Module :=
    { Module.reset with
      regs := (Regs.reset.wrs (powerKept.map fun f => (f, m.regs.rd f))).wr MR.BOOT_COUNT (bootNewest m.sec.restart.flash)
      log := m.log
      defects := (validDefects m.sec.restart.flash).map Defect.ofBytes
      sec := m.sec.restart }
  ({ State.reset with pending := s.pending, now := s.now, freeCount := s.freeCount, outbox := s.outbox, md := kept }).hashDefects

/-- POWER_FAIL_HOLD_END: 200 µs after a power fail the main regulators switch off. -/
def execPowerFailHoldEnd (s : State) : Out := .next (if s.md.input.failing then s.powerOff else s)

/-! ### Samples (R431, R433, R435) -/

/-- A duration in µs counted while a condition holds. -/
def lasts (b : Bool) (n : Nat) : Nat := if b then n + 1 else 0
/-- The average of the last five samples. -/
def mean5 (l : List Nat) : Nat := lastSum 5 l / max 1 (min 5 l.length)

/-- INPUT_SAMPLE: every 1 µs the input voltage in mV and current in mA (R433). Below 42 V before power good the management island
loses its power, and below 46 V the inrush begins anew (R432). -/
def execInputSample (mv ma : Nat) (s : State) : Out :=
  let x := s.md.input
  let y : Input :=
    { x with volts := (mv :: x.volts).take 5, amps := (ma :: x.amps).take 5, uv := lasts (decide (mv < 46000)) x.uv,
             ov := lasts (decide (56000 < mv)) x.ov, uvFail := lasts (decide (mv < 44000)) x.uvFail,
             ovFail := lasts (decide (58000 < mv)) x.ovFail, oc := lasts (decide (640000 < ma)) x.oc }
  let s1 := (s.updInput fun _ => y).wrs [(MR.V_IN, mean5 y.volts / 10), (MR.I_IN, mean5 y.amps / 100)]
  .next <|
    if x.failing then s1
    else if x.start ≠ 3 then
      if mv < 42000 then (s1.wrs [(MR.POWER_FAIL, 0), (MR.PF_CAUSE, 0)]).updInput fun x => { x with start := 0 }
      else if x.start = 2 ∧ mv < 46000 then s1.updInput fun x => { x with start := 1 }
      else s1
    else
      let s2 := if 10 ≤ y.uv then s1.wr MR.UV_WARN 1 else s1
      let s3 := if 10 ≤ y.ov then s2.wr MR.OV_WARN 1 else s2
      if 5 ≤ y.uvFail then s3.powerFail 1
      else if 5 ≤ y.ovFail then s3.powerFail 2
      else if 20 ≤ y.oc then s3.powerFail 3
      else s3

/-- CONTACT_SAMPLE: every 1 ms the sensors of the eight contact pairs, in °C (R431). -/
def execContactSample (ts : List Nat) (s : State) : Out :=
  let t (k : Nat) : Nat := min 255 (nth 0 ts k)
  let hot := (List.range 8).filter fun k => decide (105 ≤ t k)
  let twice := hot.any fun k => s.md.input.hotPairs.contains k
  let word (k : Nat) : Nat := (List.range 4).foldl (fun a i => a + t (k + i) * 2 ^ (8 * i)) 0
  let s1 := (s.updInput fun x => { x with hotPairs := hot }).wrs [(MR.CONTACT_T_LO, word 0), (MR.CONTACT_T_HI, word 4)]
  let s2 := if (List.range 8).any fun k => decide (90 ≤ t k) then s1.wr MR.CONTACT_HOT 1 else s1
  .next (if twice then s2.powerFail 4 else s2)

/-- COOLANT_SAMPLE: every 1 ms the coolant's inlet and outlet, in 1/16 °C (R435). -/
def execCoolantSample (inlet outlet : BitVec 16) (s : State) : Out :=
  let hot := decide (648 ≤ inlet.toInt)
  let s1 := (s.updInput fun x => { x with hotInlet := hot }).wrs
    [(MR.COOLANT_IN_T, inlet.toNat), (MR.COOLANT_OUT_T, outlet.toNat)]
  .next (if hot && s.md.input.hotInlet then s1.wr MR.COOLANT_HOT 1 else s1)

/-! ### The reference (R438) -/

/-- REF_LOSS: no edge of the reference for 200 ns: holdover, FLT_REF_LOSS, and the module halts. -/
def execRefLoss (s : State) : Out :=
  .next <|
    if s.md.pw.refLost then s
    else ((s.updMd fun m => { m with pw := { m.pw with refLost := true } }).wrs
      [(MR.REF_HOLDOVER, 1), (MR.REF_LOSS, 1), (MR.RESUME_VALID, 0)]).sendAbort (.ofModule 0 logRefLoss)

/-- REF_RETURN: edges are back and REF_SETTLE has passed: the PLLs leave holdover; `long`: the loss outlasted the holdover of 1 ms,
so the ports went down and train again. -/
def execRefReturn (long : Bool) (s : State) : Out :=
  .next <|
    if !s.md.pw.refLost then s
    else
      let s1 := (s.updMd fun m => { m with pw := { m.pw with refLost := false } }).wr MR.REF_HOLDOVER 0
      if long then (List.range 36).foldl (fun s p => if s.portRd p PR.LINK_UP = 1 then s.linkDown p 1 else s) s1 else s1

end Sys2Proof.Machine
end

