-- ==== Sys2Proof/Machine/Security.lean ====
section
/-!
DEFINITION. Recovery packets, updates, anti-rollback, attestation and debug access (15).
-/
namespace Sys2Proof.Machine

/-- The MP's part of security changed. -/
def State.updSec (s : State) (f : Sec → Sec) : State := s.updMd fun m => { m with sec := f m.sec }

/-! ### Recovery packets (R416) -/

/-- The link-local IPv6 address of P0: fe80::/64 with the modified EUI-64 of its MAC. -/
def linkLocalAddr (mac : Nat) : List Byte :=
  let m := (leBytes 6 mac).reverse
  [0xFE, 0x80, 0, 0, 0, 0, 0, 0] ++ (m.take 1).map (fun b => b ^^^ 2) ++ (m.drop 1).take 2 ++ [0xFF, 0xFE] ++ m.drop 3

/-- The fields and the CRC of a recovery packet check. -/
def recoveryOk (b : List Byte) : Bool :=
  let op := fieldOf b 0 1
  let off := fieldOf b 4 4
  let len := fieldOf b 8 2
  decide (1 ≤ op) && decide (op ≤ 3) && zeroIn b 1 3 && decide (off % 64 = 0) && decide (off < 0x4000000) &&
    decide (len % 64 = 0) && decide (len ≤ 4096) && decide (off + len ≤ 0x4000000) && zeroIn b 10 2 &&
    decide (b.length = 16 + len) && crcAtEnd b

/-- The answer to a recovery packet. The code is one byte (log 25). -/
def State.recoveryAnswer (s : State) (mac : BitVec 48) (src : BitVec 128) (port : BitVec 16) (b : List Byte) (status : Nat) : State :=
  let p := ((b[0]?).getD 0 ||| 0x80 : Byte) :: (leBytes 1 status ++ leBytes 2 0 ++ leBytes 4 (fieldOf b 4 4) ++
    leBytes 1 (s.rd MR.RECOVERY_CODE))
  let f := s.fresh 8
  f.2.emit (.ryudon
    { port := 0, mac := mac.toNat, v4 := false, src := linkLocalAddr (portMac 0),
      dst := leBytes 16 src.toNat, srcPort := 50611, dstPort := port.toNat, dscp := f.1.toNat / 4, ecn := f.1.toNat % 4,
      vlan := if s.portRd 0 PR.VLAN_EN = 1 then some (s.portRd 0 PR.VLAN_ID, s.portRd 0 PR.VLAN_PCP) else none, payload := p })

/-- A datagram to UDP port 50,611 of P0: in RECOVERY a bad packet is answered BAD_PACKET and a good one carried out by `f`, which
answers it; `op` names the packets that the command is for. Outside RECOVERY no such frame is accepted (R311, R416). -/
def State.recoveryIn (s : State) (mac : BitVec 48) (src : BitVec 128) (port : BitVec 16) (b : List Byte) (op : Nat → Bool)
    (f : State → State) : State :=
  if s.portRd 0 PR.LINK_UP = 0 ∨ !op (fieldOf b 0 1) then s
  else if s.rd MR.MOD_STATE ≠ 2 then s.discardFrame 0
  else if recoveryOk b then f s
  else s.recoveryAnswer mac src port b 1

/-- RECOVERY_WRITE: a WRITE from the address and port `src` stores its data in the image area; `busy`: the ROM cannot take it now and answers BUSY (log 70). -/
def execRecoveryWrite (mac : BitVec 48) (src : BitVec 128 × BitVec 16) (b : List Byte) (busy : Bool) (s : State) : Out :=
  .next (s.recoveryIn mac src.1 src.2 b (fun o => decide (o = 1)) fun s =>
    if busy then s.recoveryAnswer mac src.1 src.2 b 2
    else (s.flashPut (fieldOf b 4 4) ((b.drop 12).take (fieldOf b 8 2))).recoveryAnswer mac src.1 src.2 b 0)

/-- RECOVERY_COMMIT: the checks of R415; if they pass the module resets with CAUSE MP; `busy`: the ROM cannot take it now and answers
BUSY (log 70); `readOk`: the flash reads without error. -/
def execRecoveryCommit (mac : BitVec 48) (src : BitVec 128 × BitVec 16) (b : List Byte) (busy readOk : Bool) (s : State) : Out :=
  .next (s.recoveryIn mac src.1 src.2 b (fun o => decide (o = 2)) fun s =>
    if busy then s.recoveryAnswer mac src.1 src.2 b 2
    else
      let code := s.flashImageCode readOk
      let s1 := (s.wrs [(MR.RECOVERY_CODE, code), (MR.DETAIL, code)]).recoveryAnswer mac src.1 src.2 b 0
      if code = 0 then s1.doResetModule 7 else s1)

/-- RECOVERY_STATUS: a STATUS, or a packet with no OP of the three. -/
def execRecoveryStatus (mac : BitVec 48) (src : BitVec 128) (port : BitVec 16) (b : List Byte) (s : State) : Out :=
  .next (s.recoveryIn mac src port b (fun o => decide (o ≠ 1) && decide (o ≠ 2)) fun s => s.recoveryAnswer mac src port b 0)

/-! ### Updates (R418) -/

/-- UPD_RESULT. -/
def State.updResult (s : State) (v : Nat) : State := s.wr MR.UPD_RESULT v

/-- An update that passed its checks is being written. -/
def State.updStart (s : State) (cmd : Nat) (bytes : List Byte) : State :=
  (s.wrs [(MR.UPD_BUSY, 1), (MR.UPD_RESULT, 1)]).updSec fun x => { x with update := some ⟨cmd, bytes⟩ }

/-- The staged bytes, at most `top` of them; staged bytes that cannot be read fail the format check (log 26). -/
def State.staged (s : State) (top : Nat) : List Byte × State :=
  let a := s.rd MR.UPD_SRC_LO / 64 * 64 + 2 ^ 32 * s.rd MR.UPD_SRC_HI
  match s.mpRead a (min top (s.rd MR.UPD_LEN)) with
  | (some b, s1) => (b, s1)
  | (none, s1) => ([], s1)

/-- A UPD_CMD is carried out, or ignored while UPD_BUSY is 1. -/
def State.updCmd (s : State) (f : State → State) : State := if s.rd MR.UPD_BUSY = 1 then s.ignoreCmd else f s

/-- UPD_CMD = FW_UPDATE: the checks of R415 on the staged image. -/
def State.fwUpdate (s : State) : State :=
  s.updCmd fun s =>
    match s.staged 0x2001000 with
    | (b, s1) =>
      let hdr := b.take 4096
      let n := fieldOf hdr 0x10 4
      let code := if b.length < 4096 + n then 1 else imageCode s1.rollbackLevel hdr fun n => (b.drop 4096).take n
      if code = 0 then s1.updStart 1 (b.take (4096 + n)) else s1.updResult (code + 2)

/-- UPD_CMD = UCAL_UPDATE: the format of R427 and the bounds of R426. -/
def State.ucalUpdate (s : State) : State :=
  s.updCmd fun s =>
    match s.staged 0x8000 with
    | (b, s1) =>
      let r := ucalRecord b
      if !ucalOk r then s1.updResult 3
      else if !ucalInBounds r then s1.updResult 7
      else s1.updStart 2 r

/-- UPD_CMD = BOOTCFG_UPDATE: the format, and REF_SETTLE_US ≤ 1,000,000, else OUT_OF_BOUNDS (log 26). -/
def State.bootcfgUpdate (s : State) : State :=
  s.updCmd fun s =>
    match s.staged 64 with
    | (b, s1) =>
      if !bootCfgForm b then s1.updResult 3
      else if !bootCfgOk b then s1.updResult 7
      else s1.updStart 4 b

/-- A record with a new SEQ at `at_`, and its CRC. -/
def withSeq (b : List Byte) (at_ seq : Nat) : List Byte :=
  let body := b.take at_ ++ leBytes 4 seq ++ (b.drop (at_ + 4)).take (b.length - 4 - (at_ + 4))
  body ++ leBytes 4 (crc32c body)

/-- The slot that a record goes to and its SEQ: the other slot than the newest valid record's, one higher; slot A with SEQ 1 where
there is none (log 26). -/
def nextSlot (seqAt : Nat) : Option (Nat × List Byte) → Nat × Nat
  | some (k, b) => (1 - k, fieldOf b seqAt 4 + 1)
  | none => (0, 1)

/-- The flash with an update written; where the writing failed, without a valid record or header in its place (log 22). -/
def State.writeUpdate (s : State) (u : Update) (ok : Bool) : State :=
  let put (s : State) (a len : Nat) (b : List Byte) : State :=
    s.flashPut a (if ok then b else List.replicate len 0xFF)
  if u.cmd = 1 then
    let image : Nat → Bool := fun a => decide (a < 0x4000000)
    put (s.updSec fun x => { x with flash := x.flash.filter fun e => !image e.1 }) 0 64 u.bytes
  else if u.cmd = 2 then
    match nextSlot 8 s.ucalNewest with
    | (k, seq) => put s (ucalSlot k) 64 (withSeq u.bytes 8 seq)
  else
    match nextSlot 0xC s.bootCfg with
    | (k, seq) => put s (bootCfgSlot k) 64 (withSeq u.bytes 0xC seq)

/-- FW_UPDATE (R418). -/
def execFwUpdate (s : State) : Out := .next s.fwUpdate
/-- UCAL_UPDATE (R418). -/
def execUcalUpdate (s : State) : Out := .next s.ucalUpdate
/-- BOOTCFG_UPDATE (R418). -/
def execBootcfgUpdate (s : State) : Out := .next s.bootcfgUpdate

/-- UPDATE_WRITE_DONE: the writing of an update ends; `ok`: the bytes were read back equal (R418). -/
def execUpdateWriteDone (ok : Bool) (s : State) : Out :=
  .next <| match s.md.sec.update with
  | none => s
  | some u =>
    ((s.writeUpdate u ok).updSec fun x => { x with update := none }).wrs [(MR.UPD_BUSY, 0), (MR.UPD_RESULT, if ok then 0 else 10)]

/-! ### Anti-rollback (R417) -/

/-- UPD_CMD = ROLLBACK_COMMIT. -/
def State.rollbackCommit (s : State) : State :=
  s.updCmd fun s =>
    if s.runState ≠ rsHalted then s.updResult 8
    else if s.rd MR.IMAGE_ROLLBACK ≤ s.rollbackLevel then s.updResult 9
    else (s.wrs [(MR.UPD_BUSY, 1), (MR.UPD_RESULT, 1)]).updSec fun x => { x with commit := true }

/-- ROLLBACK_COMMIT (R417). -/
def execRollbackCommit (s : State) : Out := .next s.rollbackCommit

/-- ROLLBACK_COMMIT_DONE: the missing bits are programmed (R417). -/
def execRollbackCommitDone (s : State) : Out :=
  .next <| if s.md.sec.commit then
    (s.updSec fun x => { x with rollback := fuseLevel x.rollback (s.rd MR.IMAGE_ROLLBACK), commit := false }).wrs
      [(MR.UPD_BUSY, 0), (MR.UPD_RESULT, 0)]
  else s

/-! ### Attestation (R421, R422) -/

/-- Bytes 0x000 to 0x0FF of the report, as things stand. -/
def State.reportBytes (s : State) : List Byte :=
  leBytes 4 0x52415744 ++ leBytes 2 1 ++ leBytes 1 (s.rd MR.MOD_STATE) ++ leBytes 1 0 ++ leBytes 8 s.serial ++
    s.rdBytes MR.ATT_NONCE 8 ++ s.rdBytes MR.FW_MEASUREMENT 16 ++ s.rdBytes MR.USERCAL_HASH 8 ++ s.rdBytes MR.DEFECT_HASH 8 ++
    s.rdBytes MR.PROG_HASH 8 ++ s.rdBytes MR.HM_HEAD 8 ++ leBytes 4 (s.rd MR.HM_TICK_LO) ++ leBytes 4 (s.rd MR.HM_TICK_HI) ++
    leBytes 1 s.rollbackLevel ++ leBytes 1 (s.rd MR.DEBUG_STATE + 128 * s.rd MR.DEBUG_EVER) ++ leBytes 2 0 ++
    leBytes 4 (s.rd MR.BOOT_COUNT)

/-- ATT_GO written 1: a report begins; while one is under way it is ignored and counted, and in RECOVERY none can be made. -/
def State.attGo (s : State) : State :=
  if s.rd MR.ATT_BUSY = 1 then s.ignoreCmd
  else if s.rd MR.MOD_STATE = 2 then s
  else
    let dest := s.rd MR.ATT_DEST_LO / 64 * 64 + 2 ^ 32 * s.rd MR.ATT_DEST_HI
    (s.wr MR.ATT_BUSY 1).updSec fun x => { x with report := some (dest, s.reportBytes) }

/-- ATTESTATION_REQUEST (R422). -/
def execAttestationRequest (s : State) : Out := .next s.attGo

/-- The signature of a message by the signet, in the padded format: its header, a fresh salt, and what signing makes of them (R421,
R422, log 15). -/
def State.sign (s : State) (msg : List Byte) : List Byte × State :=
  let f := s.fresh 320
  let salt := leBytes 40 f.1.toNat
  (0x3A :: salt ++ leBytes 1239 (Config.falconBody s.md.sec.priv msg salt).toNat, f.2)

/-- ATTESTATION_WRITTEN: the report is written with its signature over SHAKE256 of its signed bytes (R421, R422). -/
def execAttestationWritten (s : State) : Out :=
  .next <| match s.md.sec.report with
  | none => s
  | some (dest, b) =>
    let f := s.sign (shake256 b 64)
    ((f.2.mpWrite dest (b ++ f.1)).2.updSec fun x => { x with report := none }).wr MR.ATT_BUSY 0

/-! ### Debug access (R424, R425) -/

/-- DBG_CHALLENGE written 1: a nonce is drawn unless the wait after a failure runs. -/
def State.dbgChallenge (s : State) : State :=
  if s.now < s.md.sec.waitUntil then s
  else
    let f := s.fresh 256
    (f.2.wrBytes MR.DBG_NONCE (leBytes 32 f.1.toNat)).updSec fun x => { x with nonce := true, nonceAt := s.now }

/-- The response buffer. -/
def State.respBuf (s : State) : List Byte := Sparse.slice 0 s.md.sec.resp 0 0xD00
/-- Bytes of the response buffer written. -/
def State.respPut (s : State) (off : Nat) (b : List Byte) : State :=
  s.updSec fun x => { x with resp := Sparse.blit 0 x.resp off b }

/-- DBG_SUBMIT written 1: the buffer is taken for the check, and the nonce with it; during a check the answer is BUSY. -/
def State.dbgSubmit (s : State) : State :=
  if s.rd MR.DBG_BUSY = 1 then s.wr MR.DBG_RESULT 1
  else
    let x := s.md.sec
    let fresh := x.nonce && decide (s.now < x.nonceAt + 60 * oneSecond)
    (s.wr MR.DBG_BUSY 1).updSec fun x => { x with submission := some ⟨s.respBuf, s.rdBytes MR.DBG_NONCE 8, fresh⟩, nonce := false }

/-- DBG_CLOSE written 1. -/
def State.dbgClose (s : State) : State := s.wr MR.DEBUG_STATE 0

/-- An owner slot. -/
def State.ownerSlot (s : State) (k : Nat) : List Byte := Sparse.get (List.replicate 32 0) s.md.sec.owners k

/-- M of a submission. -/
def State.dbgMsg (s : State) (x : Submission) : List Byte :=
  shake256 ([0x44, 0x57, 0x32, 0x38, 0x36, 0x30, 0x20, 0x44, 0x45, 0x42, 0x55, 0x47, 0x20, 0x76, 0x31] ++ leBytes 8 s.serial ++
    x.nonce ++ x.buf.take 3 ++ (x.buf.drop 0x10).take 32) 64

/-- The format of a submission, and an authority allowed for its OP. -/
def State.dbgForm (s : State) (b : List Byte) : Bool :=
  let op := fieldOf b 0 1
  let signer := fieldOf b 1 1
  let slot := fieldOf b 2 1
  let vendor := decide (signer = 255)
  zeroIn b 3 13 && zeroIn b 0x30 16 && zeroIn b 0x741 0xBF && (decide (op = 2) || zeroIn b 0x10 32) &&
    (vendor || decide (signer < 4)) &&
    match op with
    | 1 => decide (slot = 0)
    | 2 => vendor && decide (slot < 4) && decide (s.ownerSlot slot = List.replicate 32 0)
    | 3 => decide (slot < 4)
    | _ => false

/-- DBG_RESULT of a submission: the first check that fails, or OK. -/
def State.dbgCheck (s : State) (x : Submission) : Nat :=
  let signer := fieldOf x.buf 1 1
  let key := (x.buf.drop 0x40).take 1793
  if !s.dbgForm x.buf then 2
  else if !(if signer = 255 then rootKey key else decide (shake256 key 32 = s.ownerSlot signer)) then 3
  else if signer ≠ 255 ∧ bitOf s.md.sec.revoked signer then 4
  else if !x.fresh then 5
  else if !falconVerify key ((x.buf.drop 0x800).take 1280) (s.dbgMsg x) then 6
  else 0

/-- What an accepted submission does. -/
def State.dbgAct (s : State) (b : List Byte) : State :=
  let slot := fieldOf b 2 1
  match fieldOf b 0 1 with
  | 1 => s.wrs [(MR.DEBUG_STATE, if fieldOf b 1 1 = 255 then 2 else 1), (MR.DEBUG_EVER, 1)]
  | 2 => s.updSec fun x => { x with owners := Sparse.set (List.replicate 32 0) x.owners slot ((b.drop 0x10).take 32) }
  | _ => s.updSec fun x => { x with revoked := setBit x.revoked slot true }

/-- A failed submission counts, and the next challenge waits. -/
def State.dbgFail (s : State) : State :=
  let s1 := s.updMd fun m => { m with regs := m.regs.countSat MR.DBG_FAILS MR.DBG_FAILS_SAT 1 }
  s1.updSec fun x => { x with waitUntil := s.now + 2 ^ min (s1.rd MR.DBG_FAILS - 1) 6 * oneSecond }

/-- DBG_CHALLENGE (R425). -/
def execDbgChallenge (s : State) : Out := .next s.dbgChallenge
/-- DBG_SUBMIT (R425). -/
def execDbgSubmit (s : State) : Out := .next s.dbgSubmit
/-- DBG_CLOSE (R424). -/
def execDbgClose (s : State) : Out := .next s.dbgClose

/-- DBG_CHECK_DONE: the debug unit has checked the submission (R425). -/
def execDbgCheckDone (s : State) : Out :=
  .next <| match s.md.sec.submission with
  | none => s
  | some x =>
    let r := s.dbgCheck x
    let s1 := (s.wrs [(MR.DBG_BUSY, 0), (MR.DBG_RESULT, r)]).updSec fun x => { x with submission := none }
    if r = 0 then s1.dbgAct x.buf else s1.dbgFail

/-- JTAG_DBG_AUTH: DBG_AUTH shifts the response buffer and submits it (R425). -/
def execJtagDbgAuth (b : List Byte) (s : State) : Out :=
  .next ((s.respPut 0 (b.take 0xD00 ++ List.replicate (0xD00 - b.length) 0)).dbgSubmit)

/-- IDCODE (R424). -/
def State.idcode (s : State) : Nat := s.rd MR.WAFER_STEP % 16 * 2 ^ 28 + 0x02860ACF

/-- JTAG_INSTRUCTION: 0 BYPASS, 1 IDCODE, 2 manufacturing test, 3 any other; those that DEBUG_STATE does not allow act as BYPASS.
What the others do is not in the spec (R424). -/
def execJtagInstruction (i : BitVec 2) (s : State) : Out :=
  let open_ := if i = 2 then decide (s.rd MR.DEBUG_STATE = 2) else decide (s.rd MR.DEBUG_STATE ≠ 0)
  if i = 0 then .next s
  else if i = 1 then .next (s.emit (.readData s.idcode))
  else if open_ then .refused .debugAccess
  else .next s

/-- MP_DEBUG_PORT_INPUT: bytes on MPD_RX are ignored while debug access is closed; what the port serves is not in the spec (R424). -/
def execMpDebugPortInput (_b : List Byte) (s : State) : Out :=
  if s.rd MR.DEBUG_STATE = 0 then .next s else .refused .debugAccess

end Sys2Proof.Machine
end

