-- ==== Sys2Proof/Machine/CoreRegs.lean ====
section
/-!
DEFINITION. Register words by their tables (R8 to R10), the registers of a core (R85), and the instructions that reach them (R86).
-/
namespace Sys2Proof.Machine

/-! ### Words of a register table -/

/-- The fields of the word at `off` of a window. -/
def fieldsAt (tbl : List (Fld × Nat × Nat)) (off : Nat) : List Fld :=
  tbl.filterMap fun (e : Fld × Nat × Nat) =>
    let d := off - e.1.off
    if e.1.off ≤ off ∧ (if e.2.1 = 0 then d = 0 else d % e.2.1 = 0 ∧ d / e.2.1 < e.2.2) then some (e.1.at d) else none

/-- A word's value: WO fields and reserved bits read as zero (R8, R10). -/
def wordOfFields (val : Fld → Nat) (fs : List Fld) : Nat :=
  fs.foldl (fun a f => if f.acc = .wo then a else a + val f * 2 ^ f.lo) 0

/-- A read clears the RC fields of the word (R8). -/
def Regs.clearRc (r : Regs) (fs : List Fld) : Regs := fs.foldl (fun r f => if f.acc = .rc then r.wr f 0 else r) r

/-- A field's part of a word. -/
def Fld.part (f : Fld) (v : Nat) : Nat := v / 2 ^ f.lo % 2 ^ f.w

/-- A word written: RW fields are stored, W1C bits written as 1 are cleared, the others ignore it (R8). -/
def Regs.writeWord (r : Regs) (fs : List Fld) (v : Nat) : Regs :=
  fs.foldl (fun r f => match f.acc with
    | .rw => r.wr f (f.part v)
    | .w1c => r.wr f (r.rd f ^^^ (r.rd f &&& f.part v))
    | _ => r) r

/-- The RW fields of a word written (R86). -/
def Regs.writeRw (r : Regs) (fs : List Fld) (v : Nat) : Regs :=
  fs.foldl (fun r f => if f.acc = .rw then r.wr f (f.part v) else r) r

/-- The value of a field from the values that are views of the state, else as it is stored. -/
def viewed (views : List (Fld × Nat)) (r : Regs) (f : Fld) : Nat :=
  match views.find? fun e => e.1.key = f.key with
  | some (_, v) => v % 2 ^ f.w
  | none => r.rd f

/-- The fields of a word that is a view as a whole. -/
def wordViews (fs : List Fld) (v : Nat) : List (Fld × Nat) := fs.map fun f => (f, f.part v)

/-! ### A core's views of its state -/

/-- The age in CCLK of the oldest head of channel data in a router (HEAD_AGE_MAX); zero outside a section (R196). -/
def Core.headAge (c : Core) (now : Nat) : Nat :=
  (List.range 5).foldl (fun a p => match c.agedHead p with | some (t, _) => max a (now - t) | none => a) 0

/-- Three bits per thread. -/
def Core.perThread (c : Core) (f : Thread → Nat) : Nat :=
  (List.range 8).foldl (fun a t => a + f (c.thread t) * 8 ^ t) 0

/-- The code of a slot state (SLOT_STATE). -/
def SlotState.code : SlotState → Nat
  | .empty => 0 | .loading => 1 | .ready => 2 | .active => 3

/-- The code of a bezel state. -/
def BzState.code : BzState → Nat
  | .closed => 0 | .opened => 1 | .pending => 2

/-- CTX_STATE: none, RUNNING, PAGE_WAIT, PARKED. -/
def Core.ctxState (c : Core) : Nat :=
  match c.dma.ctx with
  | none => 0
  | some x => if x.parked then 3 else if x.nextRow.isNone && decide (x.issued < 32) then 2 else 1

/-- Views of the identity, thread and context blocks, 0x000 to 0x1FF. -/
def State.coreViews0 (s : State) (n off : Nat) : List (Fld × Nat) :=
  let c := s.core n
  let cyc := s.now - c.cycleBase
  match off with
  | 0x000 => [(CR.LOGICAL_INDEX, n)]
  | 0x004 => [(CR.CORE_Y, coreY n), (CR.CORE_X, coreX n)]
  | 0x008 => [(CR.CORE_REGION, regionOf n), (CR.PHYS_COL, (physCol s.md.remap n).getD 0), (CR.PHYS_ROW, coreY n % 72)]
  | 0x010 => [(CR.THREAD_STATE, c.perThread fun t => t.status.code)]
  | 0x018 => [(CR.CYCLE_LO, cyc)]
  | 0x01C => [(CR.CYCLE_HI, cyc / 2 ^ 32)]
  | 0x070 => [(CR.FAR_PENDING, c.perThread fun t => t.farStores)]
  | 0x100 =>
    let st := (List.range 4).foldl (fun a k => a + (c.slot k).state.code * 4 ^ k) 0
    [(CR.SECTION_STATE, c.sec.code), (CR.SLOT_STATE, st), (CR.NEXT_VALID, b2n c.next.isSome),
     (CR.NEXT_EPOCH, match c.next with | some x => x.epoch | none => 0),
     (CR.NEXT_SLOT, match c.next with | some x => x.slot | none => 0)]
  | 0x110 => [(CR.EARLY_HELD, c.early.length)]
  | _ =>
    if 0x120 ≤ off ∧ off < 0x140 then
      let b := (c.slot ((off - 0x120) / 8)).base
      if off % 8 = 0 then [(CR.SLOT_BASE_LO.at (off - 0x120), b)] else [(CR.SLOT_BASE_HI.at (off - 0x124), b / 2 ^ 32)]
    else []

/-- Views of the bezels, 0x220 to 0x29F. -/
def State.coreViews2 (s : State) (n off : Nat) : List (Fld × Nat) :=
  let d := (off - 0x220) / 16 * 16
  let z := (s.core n).bezel ((off - 0x220) / 16)
  match off % 16 with
  | 0 => [(CR.BZ_NBR_MASK.at d, z.mask), (CR.BZ_GEN.at d, z.gen), (CR.BZ_LENGTH.at d, z.length), (CR.BZ_BASE_ROW.at d, z.base / 64)]
  | 4 => [(CR.BZ_STATE.at d, z.state.code), (CR.BZ_AFTER_ARMED.at d, b2n z.armed), (CR.BZ_NOTICE_OUT.at d, b2n (decide (z.waiting ≠ [])))]
  | 8 => [(CR.BZ_ARRIVALS.at d, z.arrivals)]
  | _ => [(CR.BZ_AFTER_N.at d, z.afterN)]

/-- Views of the engine and the compressor, 0x300 to 0x4FF. -/
def State.coreViews3 (s : State) (n off : Nat) : List (Fld × Nat) :=
  let c := s.core n
  let z := c.comp
  match off with
  | 0x300 => [(CR.FP8_OVF, b2n c.eng.ovfIeee), (CR.RMODE, b2n c.eng.rmode)]
  | 0x304 => wordViews [CR.K_COUNT, CR.ACC_KIND, CR.BUSY, CR.QDEPTH] c.engineStatus
  | 0x308 => [(CR.ENGINE_FLAGS, c.engineFlags)]
  | 0x30C => [(CR.ENGINE_OWNER, c.eng.owner)]
  | 0x400 => [(CR.CZ_ROW_BLOCKS, z.rowBlocks), (CR.CZ_META_FULL, b2n z.metaFull), (CR.CZ_MODE, z.mode)]
  | 0x404 => wordViews [CR.CZ_BLOCK_OPEN, CR.CZ_STAGED, CR.CZ_AREAS_OK] c.czStatus
  | 0x414 => [(CR.OBJ_ELEMS, min z.elems (2 ^ 32 - 1))]
  | 0x418 => [(CR.OBJ_ROW, z.rowNum)]
  | _ =>
    if 0x420 ≤ off ∧ off < 0x460 then
      let d := (off - 0x420) / 16 * 16
      let a := match (off - 0x420) / 16 with | 0 => z.val | 1 => z.info | 2 => z.l1 | _ => z.row
      match off % 16 with
      | 0 => [(CR.AREA_BASE.at d, a.base)]
      | 4 => [(CR.AREA_LIMIT.at d, a.limit)]
      | 8 => [(CR.AREA_PTR.at d, a.ptr)]
      | _ => []
    else if 0x460 ≤ off ∧ off < 0x4A0 then
      [(CR.HIST_BIN.at (off - 0x460), Sparse.get 0 z.hist ((off - 0x460) / 4))]
    else []

/-- Views of the queues and the router, 0x500 to 0x6FF. -/
def State.coreViews5 (s : State) (n off : Nat) : List (Fld × Nat) :=
  let c := s.core n
  if off < 0x600 then
    let q := (off - 0x500) / 8
    let z := c.queue q
    if off % 8 = 0 then
      [(CR.Q_QMODE.at (8 * q), z.mode), (CR.Q_QGEN.at (8 * q), z.gen), (CR.Q_HELD.at (8 * q), b2n (c.heldFor q)),
       (CR.Q_CLOSED.at (8 * q), b2n z.closed), (CR.Q_OCCUPANCY.at (8 * q), z.held)]
    else []
  else match off with
    | 0x694 => [(CR.CORE_BOOST, (s.region (regionOf n)).boost), (CR.SHARE_BAL, c.balance / 65536)]
    | 0x69C => [(CR.HEAD_AGE_MAX, c.headAge s.now)]
    | _ => []

/-- Views of signals and clasps, 0x700 to 0x7FF. -/
def State.coreViews7 (s : State) (n off : Nat) : List (Fld × Nat) :=
  let c := s.core n
  let d := off % 64
  let last (k : Nat) : Nat := (List.range 8).foldl (fun a t => a + (c.clasp k).lastOf t * 4 ^ t) 0
  if off < 0x740 then
    wordViews ([CR.CL_CHILD_NEXT, CR.CL_THR_NEXT, CR.CL_CHILD_ARR, CR.CL_THR_ARR, CR.CL_OVERRUN, CR.CL_VALID, CR.CL_SENT,
      CR.CL_OPEN_ROUND].map fun f => f.at d) (c.clasp (d / 4)).word
  else if off < 0x760 then [(CR.LAST_HI.at d, last (d / 2 + 1)), (CR.LAST_LO.at d, last (d / 2))]
  else if off < 0x770 then
    let m := (off - 0x760) / 4
    [(CR.SIG_COUNT_HI.at (4 * m), (c.thread (2 * m + 1)).sig), (CR.SIG_COUNT_LO.at (4 * m), (c.thread (2 * m)).sig)]
  else if off = 0x770 then [(CR.HOLD_USED, c.hold.length)]
  else if 0x780 ≤ off then [(CR.Q_ARRIVALS.at (off - 0x780), (c.queue ((off - 0x780) / 4)).arrivals)]
  else []

/-- Views of the DMA engine, 0x900 to 0x9FF. -/
def State.coreViews9 (s : State) (n off : Nat) : List (Fld × Nat) :=
  let c := s.core n
  let cur (f : DmaDesc → Nat) : Nat := match c.dma.current with | some (_, d) => f d | none => 0
  let busy := if c.dma.queue = [] then 0 else if cur (fun d => b2n d.atFence) = 1 then 2 else 1
  let va := cur fun d => d.rowVa d.pageRow
  match off with
  | 0x900 => [(CR.NEXT_TAG, c.dma.nextTag), (CR.DONE_TAG, c.dma.doneTag)]
  | 0x904 => [(CR.DMA_STATE, busy), (CR.ISSUED, cur DmaDesc.issued), (CR.PAGE_ROW, cur DmaDesc.pageRow)]
  | 0x908 => [(CR.PAGE_VA_LO, va)]
  | 0x90C => [(CR.QUEUED, c.dma.queue.length), (CR.PAGE_VA_HI, va / 2 ^ 32)]
  | 0x910 => [(CR.CTX_STATE, c.ctxState), (CR.CTX_ROWS, match c.dma.ctx with | some x => x.landed | none => 0)]
  | _ => []

/-- The fields of a core's register word that are views of its state. -/
def State.coreViews (s : State) (n off : Nat) : List (Fld × Nat) :=
  if off < 0x200 then s.coreViews0 n off
  else if 0x220 ≤ off ∧ off < 0x2A0 then s.coreViews2 n off
  else if 0x300 ≤ off ∧ off < 0x500 then s.coreViews3 n off
  else if 0x500 ≤ off ∧ off < 0x700 then s.coreViews5 n off
  else if 0x700 ≤ off ∧ off < 0x800 then s.coreViews7 n off
  else if 0x900 ≤ off ∧ off < 0xA00 then s.coreViews9 n off
  else []

/-! ### Accesses to a core's registers (R8, R85, R86) -/

/-- The register word of core `n` at `off`. An offset that is no multiple of 4 names no register (log 27). -/
def State.coreWord (s : State) (n off : Nat) : Nat :=
  wordOfFields (viewed (s.coreViews n off) (s.core n).regs) (fieldsAt CR.table off)

/-- A read of a register word, with what it clears. -/
def State.coreRead (s : State) (n off : Nat) : Nat × State :=
  (s.coreWord n off, s.updCore n fun c => { c with regs := c.regs.clearRc (fieldsAt CR.table off) })

/-- A write of a register word; by a thread, one of HM_FOLD folds the value (R263). -/
def State.coreWrite (s : State) (n off v : Nat) (thread : Option Nat) : State :=
  s.updCore n fun c =>
    let c1 : Core := { c with regs := c.regs.writeWord (fieldsAt CR.table off) v }
    match thread with
    | some t => if off = CR.HM_FOLD.off then c1.fold n (1 + t) (BitVec.ofNat 64 (v % 2 ^ 32)) else c1
    | none => c1

/-- The RW fields of a register word changed in one access (R86). -/
def State.coreChange (s : State) (n off : Nat) (f : Nat → Nat) : State :=
  s.updCore n fun c => { c with regs := c.regs.writeRw (fieldsAt CR.table off) (f (s.coreWord n off)) }

/-- csr.r: g[d] ← the register at zext(imm). -/
def execCsrR (n : Nat) (t : BitVec 3) (d : BitVec 5) (imm : BitVec 16) (s : State) : Out :=
  .next (issue n t (wordI 0x30 d.toNat 0 imm.toNat) (fun s1 =>
    let r := s1.coreRead n imm.toNat
    r.2.retire n t.toNat fun th => th.wg d (BitVec.ofNat 32 r.1)) s)

/-- csr.w: the register ← g[a]; g[d] ← 0, since no register of the core refuses a write (log 28). -/
def execCsrW (n : Nat) (t : BitVec 3) (d a : BitVec 5) (imm : BitVec 16) (s : State) : Out :=
  .next (issue n t (wordI 0x31 d.toNat a.toNat imm.toNat) (fun s1 =>
    (s1.coreWrite n imm.toNat (s1.gOf n t a).toNat (some t.toNat)).retire n t.toNat fun th => th.wg d 0) s)

/-- csr.s: the RW fields of the register ← register OR g[a]; g[d] ← 0. -/
def execCsrS (n : Nat) (t : BitVec 3) (d a : BitVec 5) (imm : BitVec 16) (s : State) : Out :=
  .next (issue n t (wordI 0x32 d.toNat a.toNat imm.toNat) (fun s1 =>
    (s1.coreChange n imm.toNat fun v => v ||| (s1.gOf n t a).toNat).retire n t.toNat fun th => th.wg d 0) s)

/-- csr.c: the RW fields of the register ← register AND NOT g[a]; g[d] ← 0. -/
def execCsrC (n : Nat) (t : BitVec 3) (d a : BitVec 5) (imm : BitVec 16) (s : State) : Out :=
  .next (issue n t (wordI 0x33 d.toNat a.toNat imm.toNat) (fun s1 =>
    (s1.coreChange n imm.toNat fun v => v ^^^ (v &&& (s1.gOf n t a).toNat)).retire n t.toNat fun th => th.wg d 0) s)

/-- HM_FOLD_WRITE: a write of HM_FOLD by thread `t` folds the value (R263, R264). -/
def execHmFoldWrite (n : Nat) (t : BitVec 3) (v : BitVec 32) (s : State) : Out :=
  .next (s.coreWrite n CR.HM_FOLD.off v.toNat (some t.toNat))

/-! ### Context slots (R42) -/

/-- CONTEXT_SLOT_WRITE: 4 bytes of the image in slot `k` written, by the host (1), the MP (2) or a thread (0); `id` is the queue
pair number of a host, or a thread's number with 8 times its register for the status result: 1 where the write is refused, else 0
(R60). Route entries of a slot that a section runs from, and every block of a LOADING slot, refuse with BUSY (R42, R60). The registers
give the slots no address, so the BUSY record names the core's window (log 28). -/
def execContextSlotWrite (who : BitVec 2) (id : BitVec 16) (n : Nat) (k : BitVec 2) (off : BitVec 11) (v : BitVec 32)
    (s : State) : Out :=
  let c := s.core n
  let z := c.slot k.toNat
  let at_ := off.toNat / 4 * 4
  let busy := match z.state with
    | .loading => true
    | .active => c.inSection && decide (at_ < 0x400)
    | _ => false
  let status (v : Nat) (s : State) : State :=
    s.updCore n fun c => c.updThread (id.toNat % 8) fun th => th.wg (BitVec.ofNat 5 (id.toNat / 8)) (BitVec.ofNat 32 v)
  .next <|
    if busy then
      let s1 := s.updCore n fun c => c.countSat CR.CORE_BUSY_COUNT CR.CORE_BUSY_SAT 1
      match who with
      | 0 => status 1 s1
      | 1 => s1.busyWrite .host id.toNat (0x600000000000 + 0x1000 * n)
      | _ => s1.busyWrite .mp id.toNat (0x600000000000 + 0x1000 * n)
    else
      let s1 := s.updCore n fun c => c.updSlot k.toNat fun z => { z with image := Sparse.blit 0 z.image at_ (leBytes 4 v.toNat) }
      if who = 0 then status 0 s1 else s1

end Sys2Proof.Machine
end

