-- ==== Sys2Proof/Machine/Fabric.lean ====
section
/-!
DEFINITION. FM messages that arrive (14): the members' reports at the bridge, PEER_RESET, MEMBER_LOST and SET_MASTER of the fabric
manager, and the records of FM_CMD_RING.
-/
namespace Sys2Proof.Machine

/-- An FM message that is not accepted (R405, R408). -/
def State.fmDrop (s : State) (h : Nat) : State := s.hubCount h HR.RX_DROPPED 1

/-- A member's message at the bridge goes to FM_RING with TAG = FM_TYPE (R405). -/
def State.fmReport (s : State) (h node : Nat) (body : List Byte) : State :=
  let member := match s.node node with | some e => e.member | none => false
  if decide (s.rd MR.BRIDGE_EN = 1) && member then
    (s.updMd fun m =>
      { m with ringWait := m.ringWait ++ [.msg (m.regs.rd MR.FM_RING) (leNat (body.take 1)) body] }).ringRun
  else s.fmDrop h

/-- The contexts of hub `h` with its peer hub at a node are freed, and the generation expected from that hub is set (R407). -/
def State.forgetPeer (s : State) (node gen h : Nat) : State :=
  s.updHub h fun u => Hub.countFlows
    { u with tx := u.tx.filter fun f => decide (f.node ≠ node), rx := u.rx.filter fun f => decide (f.node ≠ node),
             peerGen := Sparse.put u.peerGen node gen }

/-- PEER_RESET carried out for every hub it names (R407). -/
def State.peerReset (s : State) (body : List Byte) : State :=
  let n (a len : Nat) : Nat := leNat ((body.drop a).take len)
  ((List.range 4).filter fun h => (n 16 1).testBit h).foldl (fun s h => s.forgetPeer (n 4 4) (n (17 + h) 1) h) s

/-- The slots whose member table names a node become ABORTED (R408). -/
def State.killSlots (s : State) (node : Nat) : State :=
  s.updMd fun m => { m with slots := m.slots.map fun (e : Nat × RedSlot) =>
    (e.1, if e.2.job.nodes.contains node then e.2.kill else e.2) }

/-- The master takes the report of a lost member as delivered for the tick that it waits for (R408). -/
def State.loseMember (s : State) (member : Nat) : State :=
  let s1 := s.updMd fun m => { m with lostMembers := m.lostMembers.filter (· ≠ member) ++ [member] }
  let tick := s.md.tu.expected - 1
  if s1.md.reports.contains (tick, s1.groupIndex) then (s1.acceptReport member tick 0 1).masterLook tick else s1

/-- MEMBER_LOST carried out (R408). -/
def State.memberLost (s : State) (body : List Byte) : State :=
  let node := leNat ((body.drop 4).take 4)
  let s1 := if s.runState = rsRunning then s.sendAbort (.ofModule node logMemberLost) else s
  let s2 := s1.killSlots node
  match (if s.isMaster then s.node node else none) with
  | some e => if e.member then s2.loseMember e.index else s2
  | none => s2

/-- SET_MASTER carried out: both copies take the new values (R408). -/
def State.setMaster (s : State) (body : List Byte) : State :=
  let node := leNat ((body.drop 16).take 4) % 2 ^ 10
  let master := leNat ((body.drop 20).take 1) % 2
  let s1 := s.wrs [(MR.MASTER_NODE, node), (MR.GROUP_MASTER, master)]
  s1.updMd fun m =>
    { m with regs := (m.regs.setForce MR.MASTER_NODE node).setForce MR.GROUP_MASTER master, lostMembers := [] }

/-- An FM message received from a node at hub `h` (R405). -/
def State.fmIn (s : State) (h node : Nat) (body : List Byte) : State :=
  let manager := decide (node = s.rd MR.FM_NODE)
  match leNat (body.take 1) with
  | 3 | 4 | 5 => s.fmReport h node body
  | 6 => if manager then s.peerReset body else s.fmDrop h
  | 7 => if manager then s.memberLost body else s.fmDrop h
  | 8 => if manager ∧ s.runState = rsHalted then s.setMaster body else s.fmDrop h
  | _ => s.fmDrop h

/-- Message `i` at hub `h`, an FM message of a type that a test names. -/
def State.fmTake (s : State) (h i : Nat) (typ : Nat → Bool) : State :=
  match s.takeMsg h i fun m => decide (m.typ = 7) && typ (leNat (m.body.take 1)) with
  | none => s
  | some (m, s1) => s1.fmIn h m.node m.body

/-- FM_STATUS: message `i` at hub `h` is a STATUS, or of a type that no module accepts on a flow (R405). -/
def execFmStatus (h i : Nat) (s : State) : Out := .next (s.fmTake h i fun t => decide (t ≤ 3) || decide (8 < t))
/-- FM_RESET_REPORT: message `i` at hub `h` is a RESET_REPORT (R405). -/
def execFmResetReport (h i : Nat) (s : State) : Out := .next (s.fmTake h i fun t => decide (t = 4))
/-- FM_DEFECT: message `i` at hub `h` is a DEFECT (R405). -/
def execFmDefect (h i : Nat) (s : State) : Out := .next (s.fmTake h i fun t => decide (t = 5))
/-- PEER_RESET: message `i` at hub `h` (R405, R407). -/
def execPeerReset (h i : Nat) (s : State) : Out := .next (s.fmTake h i fun t => decide (t = 6))
/-- MEMBER_LOST: message `i` at hub `h` (R405, R408). -/
def execMemberLost (h i : Nat) (s : State) : Out := .next (s.fmTake h i fun t => decide (t = 7))
/-- SET_MASTER: message `i` at hub `h` (R405, R408). -/
def execSetMaster (h i : Nat) (s : State) : Out := .next (s.fmTake h i fun t => decide (t = 8))

/-- The bridge has finished with a record of a ring that it consumes: HEAD goes on (R341). -/
def State.ringHead (s : State) (r head : Nat) : State := (s.mpWrite (s.ringAddr r + 24) (leBytes 8 head)).2.ringsLook

/-- A SEND record of the fabric manager: forwarded, or carried out at the bridge (R405). -/
def State.fmForward (s : State) (msg : List Byte) : State :=
  let dst := leNat (msg.take 4)
  let body := msg.drop 8
  if dst = s.rd MR.NODE_ID then s.fmIn 0 (s.rd MR.FM_NODE) body else s.send 0 dst 0 ⟨7, 0, 0, body, none⟩

/-- FM_COMMAND_RECORD: the bridge consumes the next record of FM_CMD_RING (R341, R405). -/
def execFmCommandRecord (s : State) : Out :=
  .next <|
    let r := s.rd MR.FM_CMD_RING
    match (if s.rd MR.BRIDGE_EN = 1 then s.ring r else none) with
    | none => s
    | some g =>
      if !g.valid || decide (g.sizeLog < 12) || decide (30 < g.sizeLog) || decide (g.tail ≤ g.head) then s
      else
        let size := 2 ^ g.sizeLog
        let at_ := g.base + g.head % size
        match s.vRead at_ 8 false with
        | (.ok hd, s1) =>
          let len := leNat (hd.take 4) % 2 ^ 30
          if leNat (hd.take 4) / 2 ^ 30 = 1 then s1.ringHead r (g.head + (size - g.head % size))
          else
            match s1.vRead (at_ + 8) len false with
            | (.ok msg, s2) => (s2.fmForward msg).ringHead r (g.head + recordSize len)
            | (_, s2) => s2
        | (_, s1) => s1

end Sys2Proof.Machine
end

