-- ==== Sys2Proof/Machine/Service.lean ====
section
/-!
DEFINITION. The operations of the service ring (R395, R396), issued by a region controller itself or through SR_CMD.
-/
namespace Sys2Proof.Machine

/-- Who issues an operation of the service ring: 0 the region controller itself, 1 the host, 2 the MP (R396). -/
abbrev SrBy := BitVec 2

/-- SR_STATUS, of an operation requested through SR_CMD. -/
def State.srStatus (s : State) (own : SrBy) (r v : Nat) : State :=
  if own = 0 then s else s.updRegion r fun g => g.wr RR.SR_STATUS v

/-- What an operation returns, in SR_DATA. -/
def State.srData (s : State) (own : SrBy) (r v : Nat) : State :=
  if own = 0 then s else s.updRegion r fun g => g.wr RR.SR_DATA v

/-- An operation that changes the core, from the host or the MP, is refused while the core's section runs and the region applies no
abort. -/
def State.srRefused (s : State) (own : SrBy) (r n : Nat) : Bool :=
  decide (own ≠ 0) && (s.core n).inSection && decide ((s.region r).rd RR.ABORTING = 0)

/-- An operation on local core `l` of region `r`, `f` at its logical index. One on no core is not acknowledged (log 29), nor is one while
the TRANSIT domain, in which every agent lies, is not ON (R395). -/
def State.srOp (s : State) (own : SrBy) (r l : Nat) (f : Nat → State → State) : State :=
  let n := coreIn r (l % 72) (l / 72)
  if 5184 ≤ l || absentIn s.md.remap n || decide (s.dom (4 * r + 3) ≠ domOn) then s.srStatus own r 2 else f n (s.srStatus own r 0)

/-- One that the host and the MP may be refused. -/
def State.srChange (s : State) (own : SrBy) (r l : Nat) (f : Nat → State → State) : State :=
  s.srOp own r l fun n s1 => if s1.srRefused own r n then s1.srStatus own r 3 else f n s1

/-- STOP at a core: its threads stop, engine and compressor work is cancelled, the DMA engine issues no further row. -/
def Core.srStop (c : Core) : Core :=
  let stop (t : Thread) : Thread :=
    match t.status with
    | .ready => { t with status := .stopped, wait := .none }
    | .waiting => { t with status := .stopped, wait := .none }
    | _ => t
  let c1 := (List.range 8).foldl (fun c t => c.updThread t stop) c
  { c1 with eng := { c1.eng with queue := [] }, dma := { c1.dma with stopped := true } }

/-- The cause in the record of a core reset over the service ring: HOST, MP, or the region's recovery (R392). -/
def srCause (own : SrBy) : Nat := if own = 1 then 1 else if own = 2 then 7 else 6

/-- READ. -/
def State.srRead (s : State) (own : SrBy) (r l off : Nat) : State :=
  s.srOp own r l fun n s1 => let x := s1.coreRead n off; x.2.srData own r x.1
/-- WRITE. -/
def State.srWrite (s : State) (own : SrBy) (r l off v : Nat) : State :=
  s.srChange own r l fun n s1 => s1.coreWrite n off v none
/-- STOP; the core logic may not acknowledge it, and SR_STATUS is BUSY until SR_ACK_US has passed (R398). -/
def State.srStop (s : State) (own : SrBy) (r l : Nat) (ack : Bool) : State :=
  s.srChange own r l fun n s1 =>
    if ack then s1.updCore n Core.srStop
    else (s1.srStatus own r 1).updRegion r fun g => { g with stopWait := some n }
/-- FLUSH. -/
def State.srFlush (s : State) (own : SrBy) (r l : Nat) : State := s.srChange own r l fun n s1 => s1.flushCore n
/-- RESET_CORE. -/
def State.srReset (s : State) (own : SrBy) (r l : Nat) : State :=
  s.srChange own r l fun n s1 => if s1.inReset 0 n || s1.inReset 1 r then s1 else s1.doResetCore n (srCause own)
/-- GATE. -/
def State.srGate (s : State) (own : SrBy) (r l : Nat) : State :=
  s.srChange own r l fun n s1 => (s1.gateCore n).countSilent n
/-- LIVENESS. -/
def State.srLive (s : State) (own : SrBy) (r l : Nat) : State :=
  s.srOp own r l fun n s1 => s1.srData own r (s1.core n).live

/-- SR_CMD written by the host (1) or the MP (2): OP, local core and offset; a WRITE takes its data from SR_DATA. OP 0 and the codes
8 to 15 are no operation. The core logic's acknowledgement of a STOP comes at once (log 29). -/
def State.srCmd (s : State) (own : SrBy) (r v : Nat) : State :=
  let l := RR.SR_LOCAL.part v
  let off := RR.SR_OFFSET.part v
  match RR.SR_OP.part v with
  | 1 => s.srRead own r l off
  | 2 => s.srWrite own r l off ((s.region r).rd RR.SR_DATA)
  | 3 => s.srStop own r l true
  | 4 => s.srFlush own r l
  | 5 => s.srReset own r l
  | 6 => s.srGate own r l
  | 7 => s.srLive own r l
  | _ => s

/-- SR_READ: the register at `off` of local core `l` of region `r` is read. -/
def execSrRead (own : BitVec 2) (r l off : Nat) (s : State) : Out := .next (s.srRead own r l off)
/-- SR_WRITE: `v` is written to it, under the register's own rules. -/
def execSrWrite (own : BitVec 2) (r l off : Nat) (v : BitVec 32) (s : State) : Out := .next (s.srWrite own r l off v.toNat)
/-- SR_STOP; `ack`: the core logic acknowledges it. -/
def execSrStop (own : BitVec 2) (r l : Nat) (ack : Bool) (s : State) : Out := .next (s.srStop own r l ack)
/-- SR_FLUSH. -/
def execSrFlush (own : BitVec 2) (r l : Nat) (s : State) : Out := .next (s.srFlush own r l)
/-- SR_RESET_CORE. -/
def execSrResetCore (own : BitVec 2) (r l : Nat) (s : State) : Out := .next (s.srReset own r l)
/-- SR_GATE. -/
def execSrGate (own : BitVec 2) (r l : Nat) (s : State) : Out := .next (s.srGate own r l)
/-- SR_LIVENESS. -/
def execSrLiveness (own : BitVec 2) (r l : Nat) (s : State) : Out := .next (s.srLive own r l)

end Sys2Proof.Machine
end

