-- ==== Sys2Proof/Machine/Windows.lean ====
section
/-!
DEFINITION. The device address space (R28 to R35): register windows of the module, the regions and the hubs, and accesses of the
host and the MP to device addresses.
-/
namespace Sys2Proof.Machine

/-! ### Commit pending (R58) -/

/-- The TICK fields of a table, in all its arrays. -/
def tickFields (tbl : List (Fld × Nat × Nat)) : List Fld :=
  tbl.flatMap fun (e : Fld × Nat × Nat) => if e.1.tick then (List.range e.2.2).map fun i => e.1.at (e.2.1 * i) else []

/-- Some of the fields given holds a value that waits for its cut. -/
def Regs.waitsIn (r : Regs) (fs : List Fld) : Bool := fs.any fun f => decide (r.rd f ≠ r.inForce f)

/-- COMMIT_PENDING: TICK values or a plan wait to commit. -/
def State.commitPending (s : State) : Bool :=
  let tu := s.md.tu
  let stack (i : Nat) : List Fld := (tickFields KR.table).map fun f => f.at (0x100000 * (i + 1))
  let hubFields := tickFields HR.table ++ (List.range 4).flatMap stack
  tu.ready.isSome || tu.checking.isSome || s.md.regs.waitsIn (tickFields MR.table) ||
    s.regions.any (fun e => e.2.regs.waitsIn (tickFields RR.table)) || s.hubs.any (fun e => e.2.regs.waitsIn hubFields) ||
    s.cores.any (fun e => e.2.regs.waitsIn (tickFields CR.table))

/-! ### The module window -/

/-- The bytes of a record of the MP log (R379). -/
def LogRec.bytes (x : LogRec) : List Byte :=
  leBytes 4 x.seq ++ leBytes 1 x.kind ++ leBytes 1 x.code ++ leBytes 1 x.result ++ leBytes 1 x.level ++ leBytes 8 x.tick ++
    leBytes 4 x.index ++ leBytes 12 x.detail

/-- The record in slot `k` of the log; a slot that was never written holds zero (log 23). -/
def State.logBytes (s : State) (k : Nat) : List Byte :=
  match s.md.log.find? fun e => e.1 = k with
  | some e => e.2.bytes
  | none => List.replicate 32 0

/-- Bits of an item per domain: DOM_STATE word `w`. -/
def State.domWord (s : State) (w : Nat) : Nat := (List.range 8).foldl (fun a j => a + s.dom (8 * w + j) % 16 * 16 ^ j) 0

/-- The sum of `f` over the regions. -/
def sumRegions (f : Nat → Nat) : Nat := (List.range 56).foldl (fun a r => a + f r) 0

/-- Fields of the module window that are views of the state. -/
def State.mdViews (s : State) (off : Nat) : List (Fld × Nat) :=
  let x := s.md.sec
  let cls := s.rd MR.CAL_CLASS
  let item := s.rd MR.CAL_INDEX
  let word16 (v : Int) : Nat := (BitVec.ofInt 16 v).toNat
  match off with
  | 0x18 => [(MR.DEGRADED_LO, s.degraded)]
  | 0x1C => [(MR.DEGRADED_HI, s.degraded / 2 ^ 32)]
  | 0x20 => [(MR.UNUSABLE_TOTAL, s.md.unusable.length)]
  | 0x24 => [(MR.ABSENT_TOTAL, sumRegions (regionAbsent s.md.remap))]
  | 0x28 => [(MR.MOD_REMAP_PENDING, b2n ((List.range 56).any fun r => (List.range 72).any fun j =>
      decide (unusableCols s.md.remap r j ≠ unusableCols s.pendingRemap r j)))]
  | 0x104 => [(MR.COMMIT_PENDING, b2n s.commitPending)]
  | 0xE00 => [(MR.ROLLBACK_LEVEL, s.rollbackLevel)]
  | 0xEC8 => [(MR.DBG_WAIT_S, (x.waitUntil - s.now + oneSecond - 1) / oneSecond)]
  | 0xEF0 => [(MR.OWNER_REVOKED, x.revoked), (MR.OWNER_ENROLLED, (List.range 4).foldl (fun a k =>
      if s.ownerSlot k = List.replicate 32 0 then a else a + 2 ^ k) 0)]
  | 0xF08 => [(MR.CAL_USER, word16 (s.calUser cls item)), (MR.CAL_FACTORY, word16 (factoryCal cls item))]
  | 0xF0C => [(MR.CAL_APPLIED, word16 (s.calApplied cls item))]
  | 0xF58 => [(MR.SMB_ADDR, 0x68 + Config.straps.toNat)]
  | _ => if 0x770 ≤ off ∧ off < 0x7F4 then [(MR.DOM_STATE.at (off - 0x770), s.domWord ((off - 0x770) / 4))] else []

/-- Words of the module window that are bytes held elsewhere: TOPO_EXP, DISC_PEER, DBG_RESP, the certificate, the derived public
key, and the MP log. -/
def State.mdRaw (s : State) (off : Nat) : Option Nat :=
  let x := s.md.sec
  if 0x900 ≤ off ∧ off < 0xB40 then some (leNat (Sparse.slice 0 s.md.boot.exp (off - 0x900) 4))
  else if 0xB40 ≤ off ∧ off < 0xD80 then some (leNat (Sparse.slice 0 s.md.boot.disc (off - 0xB40) 4))
  else if 0x1000 ≤ off ∧ off < 0x1D00 then some (leNat (Sparse.slice 0 x.resp (off - 0x1000) 4))
  else if 0x2000 ≤ off ∧ off < 0x2D00 then some (leNat (s.flashPeek (0x4420000 + (off - 0x2000)) 4))
  else if 0x2D00 ≤ off ∧ off < 0x3404 then some (leNat ((x.pub.drop (off - 0x2D00)).take 4))
  else if 0x8000 ≤ off then some (leNat (((s.logBytes ((off - 0x8000) / 32)).drop (off % 32)).take 4))
  else none

/-- A word of the module window. -/
def State.mdWord (s : State) (off : Nat) : Nat :=
  match s.mdRaw off with
  | some v => v
  | none => wordOfFields (viewed (s.mdViews off) s.md.regs) (fieldsAt MR.table off)

/-- Who writes: a requester with its number, and the cause of the resets it asks for (R392): 1 the host, 2 the management
interface, 7 the MP itself. -/
structure Writer where
  who : Requester
  id : Nat
  cause : Nat
  deriving DecidableEq, Repr

/-- The module's fields that refuse writes while a tick runs (R13, second group). -/
def mdRefusing : List Fld :=
  [MR.NODE_ID, MR.BRIDGE_EN, MR.NODE_TABLE_LO, MR.NODE_TABLE_HI, MR.NODE_COUNT, MR.RING_TABLE_LO, MR.RING_TABLE_HI]

/-- A write of a word changes a refusing field. -/
def Regs.changes (r : Regs) (fs : List Fld) (v : Nat) : Bool := fs.any fun f => decide (f.part v ≠ r.rd f)

/-- The register words of the module window that only store: access codes alone (R8). -/
def State.mdStore (s : State) (off v : Nat) : State :=
  s.updMd fun m => { m with regs := m.regs.writeWord (fieldsAt MR.table off) v }

/-- DBG_CLOSE, DBG_SUBMIT and DBG_CHALLENGE of one word, in that order (log 29). -/
def State.dbgWrite (s : State) (v : Nat) : State :=
  let s1 := if MR.DBG_CLOSE.part v = 1 then s.dbgClose else s
  let s2 := if MR.DBG_SUBMIT.part v = 1 then s1.dbgSubmit else s1
  if MR.DBG_CHALLENGE.part v = 1 then s2.dbgChallenge else s2

/-- UPD_CMD (R418). -/
def State.updCmdWrite (s : State) (v : Nat) : State :=
  match MR.UPD_CMD.part v with
  | 1 => s.fwUpdate
  | 2 => s.ucalUpdate
  | 3 => s.rollbackCommit
  | 4 => s.bootcfgUpdate
  | _ => s

/-- RESET_CMD (R392): carried out with RESET_GO. -/
def State.resetWrite (s : State) (w : Writer) (v : Nat) : State :=
  if MR.RESET_GO.part v = 0 then s else s.resetCmd w.cause w.id (MR.RESET_DOMAIN.part v) (MR.RESET_INDEX.part v)

/-- A word of the module window written: stored, or the action of its register. -/
def State.mdWrite (s : State) (w : Writer) (off v : Nat) : State :=
  match off with
  | 0x100 => s.runCmd (MR.RUN_CMD.part v)
  | 0x120 => s.planBaseWrite false v
  | 0x124 => s.planBaseWrite true v
  | 0x510 => if MR.INV_GO.part v = 1 then s.invalidate else s
  | 0x528 => s.wr MR.RESOLVE_ID v
  | 0x52C => if MR.RESOLVE_ACT.part v = 1 ∨ MR.RESOLVE_ACT.part v = 2 then s.resolve (MR.RESOLVE_ACT.part v) else s
  | 0x700 => s.refWrite (MR.REF_SOURCE_REQ.part v) (MR.TIMING_PORT.part v) fun p =>
      decide ((s.hub 0).rd (PR.LINK_UP.at (0x600000 + p % 9 * 0x40000)) = 1)
  | 0x740 => s.eclipseWrite false v
  | 0x744 => s.eclipseWrite true v
  | 0x760 => s.domCmd w.who w.id (MR.DOM_ACT.part v) (MR.DOM_NUM.part v)
  | 0x80C => s.resetWrite w v
  | 0x818 => if MR.BOOT_CMD.part v = 1 then s.scan else s
  | 0x84C => s.topoWrite off v
  | 0xE94 => if MR.ATT_GO.part v = 1 then (s.mdStore off v).attGo else s.mdStore off v
  | 0xEC0 => s.dbgWrite v
  | 0xEF4 => s.updCmdWrite v
  | _ =>
    if 0x900 ≤ off ∧ off < 0xB40 then s.topoWrite off v
    else if 0x1000 ≤ off ∧ off < 0x1D00 then s.respPut (off - 0x1000) (leBytes 4 v)
    else s.mdStore off v

/-! ### A region window -/

/-- Fields of a region window that are views. -/
def State.regionViews (s : State) (r off : Nat) : List (Fld × Nat) :=
  let row (base : Nat) (ds : List Phys) : List (Fld × Nat) :=
    let j := (off - base) / 16
    let v := if off % 16 = 0 then rowMapWord ds r j else rowDeadMask ds r j (off % 16 / 4 - 1)
    wordViews (fieldsAt RR.table off) v
  match off with
  | 0x0 => [(RR.REGION_DEGRADED, b2n (regionDegraded s.md.remap r)), (RR.RY, r / 8), (RR.RX, r % 8), (RR.REGION_INDEX, r)]
  | 0x4 => [(RR.REGION_ABSENT, regionAbsent s.md.remap r),
            (RR.REGION_UNUSABLE, (s.md.unusable.filter fun p => decide (p.region = r)).length)]
  | 0x8 => [(RR.REGION_REMAP_PENDING, b2n ((List.range 72).any fun j =>
      decide (unusableCols s.md.remap r j ≠ unusableCols s.pendingRemap r j)))]
  | _ =>
    if 0x1000 ≤ off ∧ off < 0x1480 then row 0x1000 s.md.remap
    else if 0x1800 ≤ off ∧ off < 0x1C80 then row 0x1800 s.pendingRemap
    else []

/-- A word of a region window. -/
def State.regionWord (s : State) (r off : Nat) : Nat :=
  wordOfFields (viewed (s.regionViews r off) (s.region r).regs) (fieldsAt RR.table off)

/-- A word of a region window written. -/
def State.regionRegWrite (s : State) (w : Writer) (r off v : Nat) : State :=
  if off = RR.SR_OP.off then s.srCmd (if w.who = .host then 1 else 2) r v
  else s.updRegion r fun g => { g with regs := g.regs.writeWord (fieldsAt RR.table off) v }

/-! ### A hub window -/

/-- The fields of a word of a hub window: the hub's own, a memory controller's or a port's. -/
def hubFieldsAt (off : Nat) : List Fld :=
  if 0x100000 ≤ off ∧ off < 0x500000 then
    let base := off / 0x100000 * 0x100000
    (fieldsAt KR.table (off - base)).map fun f => f.at base
  else if 0x600000 ≤ off ∧ off < 0x840000 then
    let base := off / 0x40000 * 0x40000
    (fieldsAt PR.table (off - base)).map fun f => f.at base
  else fieldsAt HR.table off

/-- How many edge ports of a hub are enabled in force, and the ones of a word of EDGE_MAP. -/
def State.edgeMap (s : State) (h m : Nat) : Nat :=
  (List.range 32).foldl (fun a i =>
    if decide (32 * m + i < edgePorts h) && edgeEnabled s.md.remap h (32 * m + i) then a + 2 ^ i else a) 0

/-- Fields of a hub window that are views. -/
def State.hubViews (s : State) (h off : Nat) : List (Fld × Nat) :=
  match off with
  | 0x0 => [(HR.FIRST_PORT, 9 * h), (HR.FIRST_STACK, 4 * h), (HR.HAS_MP, if h = 0 then 1 else 0), (HR.HUB_INDEX, h)]
  | 0x4 => [(HR.EDGE_PORTS, edgePorts h),
            (HR.EDGE_ENABLED, ((List.range (edgePorts h)).filter fun k => edgeEnabled s.md.remap h k).length)]
  | _ =>
    if 0x100 ≤ off ∧ off < 0x124 then [(HR.EDGE_MAP.at (off - 0x100), s.edgeMap h ((off - 0x100) / 4))]
    else if 0x600000 ≤ off ∧ off < 0x840000 then
      let base := off / 0x40000 * 0x40000
      let mac := portMac (9 * h + (base - 0x600000) / 0x40000)
      match off - base with
      | 0x18 => [(PR.MAC_LO.at base, mac)]
      | 0x1C => [(PR.MAC_HI.at base, mac / 2 ^ 32)]
      | _ => []
    else if 0x881000 ≤ off ∧ off < 0x882000 then
      let d := off - 0x881000
      match s.redSlot (d / 4) with
      | some z => [(HR.NEXT_ROUND.at d, z.round), (HR.APART.at d, b2n (decide (z.apart ≠ []))), (HR.JOB_STATE.at d, z.code)]
      | none => []
    else []

/-- A word of a hub window. -/
def State.hubWord (s : State) (h off : Nat) : Nat :=
  wordOfFields (viewed (s.hubViews h off) (s.hub h).regs) (hubFieldsAt off)

/-- The fields of a hub window that refuse writes while a tick runs (R13). -/
def hubRefuses (off : Nat) (f : Fld) : Bool :=
  if 0x100000 ≤ off ∧ off < 0x500000 then
    let d := off % 0x100000
    (decide (KR.HBM_TIMING.off ≤ d) && decide (f.acc = .rw)) || decide (d = KR.RFM_THRESH.off)
  else if 0x600000 ≤ off ∧ off < 0x840000 then
    let d := off % 0x40000
    (decide (d = 0) && (decide (f.lo = PR.FEC_MODE.lo) || decide (f.lo = PR.LANE_RATE.lo))) ||
      (decide (PR.IPV6_ADDR.off ≤ d) && decide (d ≤ PR.IPV4_ADDR.off))
  else decide (off = HR.UDP_PORT.off)

/-- A word of a hub window written; JOB_CMD at H0 (R238); a new LANE_RATE of a port (R308). -/
def State.hubWrite (s : State) (w : Writer) (h off v : Nat) : State :=
  if off = HR.CMD.off then
    if h ≠ 0 then s
    else match HR.CMD.part v with
      | 1 => s.jobLoad w.who w.id (HR.CMD_SLOT.part v)
      | 2 => s.jobUnload w.who w.id (HR.CMD_SLOT.part v)
      | _ => s
  else
    let s1 := s.updHub h fun u => { u with regs := u.regs.writeWord (hubFieldsAt off) v }
    if 0x600000 ≤ off ∧ off < 0x840000 ∧ off % 0x40000 = 0 ∧ s.hubWord h off % 4 ≠ v % 4 then
      s1.laneRateSet (9 * h + (off - 0x600000) / 0x40000)
    else s1

/-! ### Words at device addresses -/

/-- Where a device address leads; the MP's block of a hub window exists in H0 only. -/
def State.place (s : State) (who : Requester) (a : Nat) : Place :=
  match decodeAddr s.md.remap (decide (s.runState = rsHalted)) who a with
  | .hub h off => if decide (h ≠ 0) && decide (0xC00000 ≤ off) then .refuse .unmapped else .hub h off
  | p => p

/-- A register word at a place, with what the read clears. -/
def State.wordRead (s : State) (p : Place) : Nat × State :=
  match p with
  | .core n off => s.coreRead n off
  | .region r off =>
    (s.regionWord r off, s.updRegion r fun g => { g with regs := g.regs.clearRc (fieldsAt RR.table off) })
  | .hub h off => (s.hubWord h off, s.updHub h fun u => { u with regs := u.regs.clearRc (hubFieldsAt off) })
  | .md off => (s.mdWord off, s.updMd fun m => { m with regs := m.regs.clearRc (fieldsAt MR.table off) })
  | _ => (0, s)

/-- A write of a register word is refused with BUSY (R13). -/
def State.wordBusy (s : State) (p : Place) (v : Nat) : Bool :=
  s.isRunning && match p with
    | .md off => s.md.regs.changes ((fieldsAt MR.table off).filter fun f => mdRefusing.contains f) v
    | .hub h off => (s.hub h).regs.changes ((hubFieldsAt off).filter (hubRefuses off)) v
    | _ => false

/-- A write of a command register that will report BUSY in a result field of its own, and to its writer (R13, R238, R358, R392). -/
def State.cmdBusy (s : State) (p : Place) (v : Nat) : Bool :=
  match p with
  | .md 0x760 => s.domBusy (MR.DOM_ACT.part v) (MR.DOM_NUM.part v)
  | .md 0x80C => decide (MR.RESET_GO.part v = 1) && s.resetBusy (MR.RESET_DOMAIN.part v) (MR.RESET_INDEX.part v)
  | .hub 0 off =>
    let slot := HR.CMD_SLOT.part v
    decide (off = HR.CMD.off) && ((decide (HR.CMD.part v = 1) && s.jobBusy slot) ||
      (decide (HR.CMD.part v = 2) && (s.jobBusy slot || (s.redSlot slot).isNone)))
  | _ => false

/-- A register word at a place written. -/
def State.wordWrite (s : State) (w : Writer) (p : Place) (v : Nat) : State :=
  match p with
  | .core n off => s.coreWrite n off v none
  | .region r off => s.regionRegWrite w r off v
  | .hub h off => s.hubWrite w h off v
  | .md off => s.mdWrite w off v
  | _ => s

/-! ### Accesses of the host and the MP (R31, R32, R60) -/

/-- What an access to device addresses answers: done, with the bytes read; refused with a cause of R31; refused with BUSY; an
uncorrectable block or word. -/
inductive DevRes where
  | ok (b : List Byte)
  | no (c : Cause)
  | busy
  | bad
  deriving DecidableEq, Repr

/-- The addresses of the register words that a byte range touches. -/
def devWords (a len : Nat) : List Nat :=
  if len = 0 then [] else (List.range ((a + len - 1) / 4 + 1 - a / 4)).map fun i => (a / 4 + i) * 4

/-- The first word of a range that the decoder refuses. -/
def State.devRefusal (s : State) (who : Requester) (a len : Nat) : Option (Nat × Cause) :=
  (devWords a len).findSome? fun x => match s.place who x with | .refuse c => some (x, c) | _ => none

/-- A range read. An access is refused as a whole, from the addresses alone; MOD_ADDR_FAULT then holds the first word that is
refused, or the start within it (R31, log 78). -/
def State.devRead (s : State) (w : Writer) (a len : Nat) : DevRes × State :=
  match s.devRefusal w.who a len with
  | some (x, c) => (.no c, s.addrFault (max a x) w.who c w.id)
  | none =>
    match s.place w.who a with
    | .hbm pa =>
      match s.mpRead pa len with
      | (some b, s1) => (.ok b, s1)
      | (none, s1) => (.bad, s1)
    | .spad n off =>
      match (s.core n).readSpad off len with
      | (.ok b, c) => (.ok b, s.setCore n c)
      | (.error _, c) => (.bad, s.setCore n c)
    | _ =>
      let go (r : List Byte × State) (x : Nat) : List Byte × State :=
        let y := r.2.wordRead (r.2.place w.who x)
        (r.1 ++ leBytes 4 y.1, y.2)
      let r := (devWords a len).foldl go ([], s)
      (.ok ((r.1.drop (a % 4)).take len), r.2)

/-- The value that a write of bytes at `a` gives the register word at `x`; bytes not written are as the word reads (log 29). -/
def State.wordValue (s : State) (who : Requester) (a : Nat) (b : List Byte) (x : Nat) : Nat :=
  let old := leBytes 4 (s.wordRead (s.place who x)).1
  leNat ((List.range 4).map fun i => if a ≤ x + i ∧ x + i < a + b.length then nth 0 b (x + i - a) else nth 0 old i)

/-- A range written. A word that refuses with BUSY refuses the access (R13, R60). -/
def State.devWrite (s : State) (w : Writer) (a : Nat) (b : List Byte) : DevRes × State :=
  match s.devRefusal w.who a b.length with
  | some (x, c) => (.no c, s.addrFault (max a x) w.who c w.id)
  | none =>
    match s.place w.who a with
    | .hbm pa =>
      match s.mpWrite pa b with
      | (ok, s1) => (if ok then .ok [] else .bad, s1.ringsLook)
    | .spad n off =>
      match (s.core n).writeSpad off b with
      | (none, c) => (.ok [], s.setCore n c)
      | (some _, c) => (.bad, s.setCore n c)
    | _ =>
      let ws := (devWords a b.length).map fun x => (x, s.wordValue w.who a b x)
      match ws.find? fun e => s.wordBusy (s.place w.who e.1) e.2 with
      | some e => (.busy, s.busyWrite w.who w.id e.1)
      | none =>
        let put (r : DevRes × State) (e : Nat × Nat) : DevRes × State :=
          let p := r.2.place w.who e.1
          (if r.2.cmdBusy p e.2 then .busy else r.1, r.2.wordWrite w p e.2)
        ws.foldl put (.ok [], s)

/-- What an access of the MP answers at once; BUSY has been told where the write was refused (R31, R60). -/
def State.mpAnswer (s : State) (who : BitVec 2) (r : DevRes) : State :=
  if who ≠ 2 then s
  else
    match r with
    | .no _ => s.emit (.mpStatus .refused)
    | .bad => s.emit (.mpStatus .uncorrectable)
    | _ => s

/-- Who makes an access by REGISTER_WRITE or RC_REGISTER_READ, coded 1 the host and 2 the MP. -/
def writerOf (who : BitVec 2) (id : Nat) : Writer := if who = 1 then ⟨.host, id, 1⟩ else ⟨.mp, id, 7⟩

/-- REGISTER_WRITE: a register word written by a thread of a core to its core-local address (`who` 0; `id` is 8 × core + thread), by
the host (1, with its queue pair) or by the MP (2) to its device address (R8). -/
def execRegisterWrite (who : BitVec 2) (id addr : Nat) (v : BitVec 32) (s : State) : Out :=
  .next <|
    if who = 0 then s.coreWrite (id / 8) (addr % 2 ^ 16) v.toNat (some (id % 8))
    else if addr < hbmSize then s
    else
      let r := s.devWrite (writerOf who id) (addr / 4 * 4) (leBytes 4 v.toNat)
      r.2.mpAnswer who r.1

/-- RC_REGISTER_READ: a register word read; the RC fields are cleared (R9). -/
def execRcRegisterRead (who : BitVec 2) (id addr : Nat) (s : State) : Out :=
  .next <|
    if who = 0 then
      let r := s.coreRead (id / 8) (addr % 2 ^ 16)
      r.2.emit (.readData r.1)
    else if addr < hbmSize then s
    else match s.devRead (writerOf who id) (addr / 4 * 4) 4 with
      | (.ok b, s1) => s1.emit (.readData (leNat b))
      | (r, s1) => s1.mpAnswer who r

end Sys2Proof.Machine
end

