-- ==== Sys2Proof/Machine/HostIf.lean ====
section
/-!
DEFINITION. The host attachment (R332 to R344): RoCEv2 at the bridge, DATA between the bridge and the members, ring notices, the ring
endpoint, and the raising of rates.
-/
namespace Sys2Proof.Machine

/-! ### Accesses of the host (R336) -/

/-- The NAK syndromes of R336. -/
def nakAccess : Nat := 0x62
/-- See `nakAccess`. -/
def nakInvalid : Nat := 0x61
/-- See `nakAccess`. -/
def nakOperational : Nat := 0x63
/-- An RNR NAK, without its timer code. -/
def nakRnr : Nat := 0x20

/-- Device addresses from here up are the windows of R28; below are virtual addresses. -/
def windowBase : Nat := 0x400000000000

/-- A translation that refuses a host access: recorded as R31 says, with its syndrome. -/
def State.hostRefused (s : State) (q va : Nat) (t : Trans) : Nat × State :=
  match t with
  | .uncorrectable => (nakOperational, s)
  | .notHbm => (nakAccess, s.addrFault va .host .notHbm q)
  | _ => (nakAccess, s.addrFault va .host .unmapped q)

/-- Bytes written by the host through queue pair `q`: done, or the syndrome of its failure. A write refused with BUSY completes (R60). -/
def State.hostWrite (s : State) (q va : Nat) (b : List Byte) (own : Nat := 0) : Option Nat × State :=
  if va < windowBase then
    match s.vCheck va b.length true true own with
    | (some t, s1) => let r := s1.hostRefused q va t; (some r.1, r.2)
    | (none, s1) =>
      match s1.vWrite va b true own with
      | (.ok _, s2) => (none, s2.ringsLook)
      | (_, s2) => (some nakOperational, s2.ringsLook)
  else
    match s.devWrite ⟨.host, q, 1⟩ va b with
    | (.ok _, s1) => (none, s1)
    | (.busy, s1) => (none, s1)
    | (.no _, s1) => (some nakAccess, s1)
    | (.bad, s1) => (some nakOperational, s1)

/-- Bytes read by the host. -/
def State.hostRead (s : State) (q va len : Nat) (own : Nat := 0) : Except Nat (List Byte) × State :=
  if va < windowBase then
    match s.vCheck va len false true own with
    | (some t, s1) => let r := s1.hostRefused q va t; (.error r.1, r.2)
    | (none, s1) =>
      match s1.vRead va len true own with
      | (.ok b, s2) => (.ok b, s2)
      | (_, s2) => (.error nakOperational, s2)
  else
    match s.devRead ⟨.host, q, 1⟩ va len with
    | (.ok b, s1) => (.ok b, s1)
    | (.no _, s1) => (.error nakAccess, s1)
    | (_, s1) => (.error nakOperational, s1)

/-- What a post to a ring by a SEND answers: done, or its syndrome. -/
def State.hostPost (s : State) (r tag : Nat) (b : List Byte) : Option Nat × State :=
  match s.ringPost r tag b with
  | (.ok, s1) => (none, s1)
  | (.full, s1) => (some nakRnr, s1)
  | (.refused, s1) =>
    let big := match s.ring r with | some g => g.valid && decide (2 ^ g.sizeLog / 2 < recordSize b.length) | none => false
    (some (if big then nakInvalid else nakAccess), s1)

/-! ### Requests at the bridge (R334, R337) -/

/-- CCLK in 50 µs. -/
def cnpGap : Nat := 52500

/-- A CNP for a CE-marked request, at most one per 50 µs (R334). -/
def State.ceMark (s : State) (q : Nat) : State :=
  match (s.qp q).cnpAt with
  | some t => if s.now < t + cnpGap then s else (s.updQp q fun x => { x with cnpAt := some s.now }).emit (.cnp (s.roceTo q))
  | none => (s.updQp q fun x => { x with cnpAt := some s.now }).emit (.cnp (s.roceTo q))

/-- A RoCEv2 packet for queue pair `q` at port `p`: discarded and counted unless this is the bridge, the port a host port, and the
entry VALID and of that port (R334, log 33). -/
def State.roce (s : State) (p q : Nat) (ce : Bool) (f : QpEnt → State → State) : State :=
  let hosts := s.rd MR.HOST_PORTS_LO + 2 ^ 32 * s.rd MR.HOST_PORTS_HI
  let drop : State := s.hubCount (p / 9) HR.ROCE_DROPPED 1
  if s.portRd p PR.LINK_UP = 0 then s
  else if s.rd MR.BRIDGE_EN = 0 || !hosts.testBit p then drop
  else match s.qpEnt q with
    | none => if q < s.rd MR.QP_COUNT then drop.noteTable (p / 9) (s.rd MR.QP_TABLE_LO + 2 ^ 32 * s.rd MR.QP_TABLE_HI + 64 * q) 64 else drop
    | some e => if e.port ≠ p then drop else f e (if ce then s.ceMark q else s)

/-- The request of a queue pair that holds a PSN. -/
def QpReq.covers (r : QpReq) (psn : Nat) : Bool := decide ((psn + 2 ^ 24 - r.psn) % 2 ^ 24 ≤ (r.last + 2 ^ 24 - r.psn) % 2 ^ 24)

/-- A request packet by its PSN: the expected one goes on; one ahead of it is answered with a PSN sequence error; one already seen is
`again`, unless its request is still open (log 33). -/
def State.psnGate (s : State) (q psn : Nat) (again go : State → State) : State :=
  let x := s.qp q
  let d := (psn + 2 ^ 24 - x.psn) % 2 ^ 24
  if d = 0 then go s
  else if d < 2 ^ 23 then s.emit (.roceAck (s.roceTo q) x.psn 0x60 x.msn)
  else if x.reqs.any fun r => r.covers psn then s
  else again s

/-- A message already carried out is acknowledged again. -/
def State.ackAgain (s : State) (q psn : Nat) : State := s.emit (.roceAck (s.roceTo q) psn 0 (s.qp q).msn)

/-- The last request of a queue pair changed. -/
def Qp.onLast (x : Qp) (f : QpReq → QpReq) : Qp :=
  match x.reqs.reverse with
  | [] => x
  | r :: l => { x with reqs := l.reverse ++ [f r] }

/-- A request fails: its own entry if one is open, else a new one, ends in a NAK; the queue pair answers what it can. -/
def State.qpFail (s : State) (q psn syn : Nat) (opened : Bool) (at_ : Nat) : State :=
  (s.updQp q fun x =>
    if opened then x.onLast fun r => { r with nak := some (syn, at_), last := psn }
    else { x with reqs := x.reqs ++ [⟨psn, psn, false, false, [], some (syn, at_), none⟩] }).qpRun q

/-- A message is in the middle of its packets. -/
def Qp.midMessage (x : Qp) : Bool := x.write.isSome || x.send.isSome

/-- Where an operation to a member goes: carried out here, sent to a node, or nowhere (R337). -/
def State.memberAt (s : State) (m : Nat) : Option (Option Nat) :=
  if m = s.md.regs.inForce MR.GROUP_INDEX then some none else (s.memberNode m).map some

/-- The remote address and key of a RETH pass the checks of R336. -/
def State.rethOk (s : State) (e : QpEnt) (va rkey : Nat) (perm : Bool) : Bool :=
  decide (rkey = e.rkey) && decide (va < 2 ^ 53) && (s.memberAt (va / 2 ^ 48)).isSome && perm &&
    (decide (va % 2 ^ 48 < windowBase) || e.regs)

/-- A request packet sent to a member as DATA of at most 4,072 bytes each; `flags` of the last (R333, R337). -/
def State.forward (s : State) (e : QpEnt) (q node op flags psn addr imm : Nat) (step : Bool) (b : List Byte) : State :=
  let n := max 1 ((b.length + 4071) / 4072)
  (List.range n).foldl (fun s i =>
    let part := (b.drop (4072 * i)).take 4072
    s.send (e.port / 9) node (0x1000 + q) ⟨0, 0, 0,
      dataBody op (if i + 1 = n then flags else 0) q psn (if step then addr + 4072 * i else addr) part.length imm part, none⟩) s

/-- The PSN of the packet that ends a message, or the next one. -/
def State.psnNext (s : State) (q psn k : Nat) : State := s.updQp q fun x => { x with psn := (psn + k) % 2 ^ 24 }

/-- The length of a packet fits its place in its message: a full PMTU for First and Middle. -/
def packetFits (e : QpEnt) (last : Bool) (len : Nat) : Bool := if last then decide (len ≤ e.pmtu) else decide (len = e.pmtu)

/-- ROCE_RDMA_WRITE: a WRITE packet, `op` 0 First, 1 Middle, 2 Last, 3 Only; the RETH counts in First and Only (R336, R337). -/
def execRoceRdmaWrite (p q : Nat) (psn : BitVec 24) (op : BitVec 2) (hasImm : Bool) (imm : BitVec 32) (ce : Bool) (va : BitVec 64)
    (rkey len : BitVec 32) (b : List Byte) (s : State) : Out :=
  let first := decide (op = 0) || decide (op = 3)
  let last := decide (op = 2) || decide (op = 3)
  let n := psn.toNat
  .next (s.roce p q ce fun e s => s.psnGate q n (fun s => s.ackAgain q n) fun s =>
    let x := s.qp q
    if first && x.midMessage then s.qpFail q n nakInvalid true n
    else if !first && x.write.isNone then s.qpFail q n nakInvalid x.midMessage n
    else if first && !s.rethOk e va.toNat rkey.toNat e.write then s.qpFail q n nakAccess false n
    else
      let cur : Nat × Nat × Nat := if first then (va.toNat % 2 ^ 48, len.toNat, va.toNat / 2 ^ 48) else x.write.getD (0, 0, 0)
      let fits := packetFits e last b.length && (if last then decide (b.length = cur.2.1) else decide (b.length < cur.2.1))
      let dest := (s.memberAt cur.2.2).getD none
      let s1 := if first then s.updQp q fun x => { x with reqs := x.reqs ++ [⟨n, n, false, false, [], none, dest⟩] } else s
      let s2 := s1.updQp q fun x => { x.onLast fun r => { r with last := n } with
        write := if last then none else some (cur.1 + b.length, cur.2.1 - b.length, cur.2.2) }
      if !fits then s2.qpFail q n nakInvalid true n
      else
        let s3 := s2.psnNext q n 1
        match dest with
        | some node =>
          s3.forward e q node 1 (b2n last + 2 * b2n (last && hasImm)) n cur.1 (if hasImm then imm.toNat else 0) true b
        | none =>
          match s3.hostWrite q cur.1 b (p / 9) with
          | (some syn, s4) => s4.qpFail q n syn true n
          | (none, s4) => if last then (s4.updQp q fun x => x.onLast fun r => { r with complete := true }).qpRun q else s4)

/-- ROCE_RDMA_READ: a READ request (R336, R337). -/
def execRoceRdmaRead (p q : Nat) (psn : BitVec 24) (ce : Bool) (va : BitVec 64) (rkey len : BitVec 32) (s : State) : Out :=
  let n := psn.toNat
  let a := va.toNat % 2 ^ 48
  let serve (e : QpEnt) (again : Bool) (s : State) : State :=
    let x := s.qp q
    if x.midMessage then s.qpFail q n nakInvalid true n
    else if !s.rethOk e va.toNat rkey.toNat e.read then s.qpFail q n nakAccess false n
    else
      let k := max 1 ((len.toNat + e.pmtu - 1) / e.pmtu)
      let dest := (s.memberAt (va.toNat / 2 ^ 48)).getD none
      let r : QpReq := ⟨n, (n + k - 1) % 2 ^ 24, true, false, [], none, dest⟩
      let put (s : State) (r : QpReq) : State :=
        s.updQp q fun x => { x with reqs := if again then r :: x.reqs else x.reqs ++ [r] }
      let s1 := if again then s else s.psnNext q n k
      match dest with
      | some node => (put s1 r).send (e.port / 9) node (0x1000 + q) ⟨0, 0, 0, dataBody 2 1 q n a len.toNat 0 [], none⟩
      | none =>
        match s1.hostRead q a len.toNat (p / 9) with
        | (.ok b, s2) => (put s2 { r with data := b, complete := true }).qpRun q
        | (.error syn, s2) => (put s2 { r with nak := some (syn, n) }).qpRun q
  .next (s.roce p q ce fun e s => s.psnGate q n (serve e true) (serve e false))

/-- ROCE_SEND: a SEND packet, coded as a WRITE's; the record is posted, or forwarded, when the last has come (R338). A failed post is
answered at the first PSN, so the host sends the message again (log 33). -/
def execRoceSend (p q : Nat) (psn : BitVec 24) (op : BitVec 2) (hasImm : Bool) (imm : BitVec 32) (ce : Bool) (b : List Byte)
    (s : State) : Out :=
  let first := decide (op = 0) || decide (op = 3)
  let last := decide (op = 2) || decide (op = 3)
  let n := psn.toNat
  let tag := if hasImm then imm.toNat else 0
  .next (s.roce p q ce fun e s => s.psnGate q n (fun s => s.ackAgain q n) fun s =>
    let x := s.qp q
    if first && x.midMessage then s.qpFail q n nakInvalid true n
    else if !first && x.send.isNone then s.qpFail q n nakInvalid x.midMessage n
    else if first && (!e.send || (s.memberAt e.member).isNone) then s.qpFail q n nakAccess false n
    else
      let dest := (s.memberAt e.member).getD none
      let all := (if first then [] else x.send.getD []) ++ b
      let s1 := if first then s.updQp q fun x => { x with reqs := x.reqs ++ [⟨n, n, false, false, [], none, dest⟩] } else s
      let s2 := s1.updQp q fun x => { x.onLast fun r => { r with last := n } with
        send := if last then none else some (if dest.isNone then all else []) }
      if !packetFits e last b.length then s2.qpFail q n nakInvalid true n
      else
        let s3 := s2.psnNext q n 1
        match dest with
        | some node => s3.forward e q node 4 (b2n last + 2 * b2n (last && hasImm)) n e.ring (if hasImm then imm.toNat else 0) false b
        | none =>
          if !last then s3
          else
            let from_ := match (s3.qp q).reqs.getLast? with | some r => r.psn | none => n
            match s3.hostPost e.ring tag all with
            | (some syn, s4) => s4.qpFail q n (if syn = nakRnr then syn + e.rnr else syn) true from_
            | (none, s4) => (s4.updQp q fun x => x.onLast fun r => { r with complete := true }).qpRun q)

/-- FRAME_DISCARD: a frame arrives at port `p` and is discarded, by its `kind` (R311, R334, R336; log 5): 1 has a bad FCS, 2 held a
codeword with errors that FEC does not correct, 3 held one that it corrects where it may (FEC_MODE 0), before the frame goes on as its own
command; 4 is a RoCEv2 packet of an unsupported opcode on queue pair `q`, answered with a NAK; 5 is a RoCEv2 packet with a bad ICRC; any
other is of no accepted kind. -/
def execFrameDiscard (frame : Nat × BitVec 3 × Nat × BitVec 24) (s : State) : Out :=
  match frame with
  | (p, kind, q, psn) =>
    let count (f : Fld) : State := s.hubCount (p / 9) (portFld p f) 1
    let n := psn.toNat
    .next <|
      if s.portRd p PR.LINK_UP = 0 then s
      else match kind.toNat with
        | 1 => count PR.FCS_ERR
        | 2 => count PR.FEC_UNCORR
        | 3 => count (if s.portRd p PR.FEC_MODE = 1 then PR.FEC_UNCORR else PR.FEC_CORR)
        | 4 => s.roce p q false fun _ s =>
          s.psnGate q n (fun s => s.ackAgain q n) fun s => s.qpFail q n nakInvalid (s.qp q).midMessage n
        | 5 => s
        | _ => s.discardFrame p

/-- ROCE_CNP: the READ responses of a queue pair are paced as a flow that sees congestion (R334, R325). -/
def execRoceCnp (p q : Nat) (s : State) : Out :=
  let u := s.hub (p / 9)
  let slow (x : Qp) : Qp :=
    if 2 * (s.now - x.cut) < u.raiseTime then { x with mark := s.now }
    else match u.cutRate x.rate x.alpha with | (r, a) => { x with rate := r, alpha := a, cut := s.now, mark := s.now }
  .next (s.roce p q false fun _ s => s.updQp q slow)

/-! ### DATA at a member (R333) -/

/-- The fields of a body of DATA. -/
structure DataMsg where
  op : Nat
  flags : Nat
  q : Nat
  psn : Nat
  addr : Nat
  len : Nat
  imm : Nat
  data : List Byte
  deriving DecidableEq, Repr

/-- The fields of a body; none where it is too short for its prefix or its LENGTH. -/
def DataMsg.ofBytes (b : List Byte) : Option DataMsg :=
  let n (a len : Nat) : Nat := leNat ((b.drop a).take len)
  let m : DataMsg := ⟨n 0 1, n 1 1, n 2 2, n 4 4 % 2 ^ 24, n 8 8, n 0x10 4, n 0x14 4, b.drop 24⟩
  if b.length < 24 || (decide (m.op ≠ 2) && decide (m.len ≠ m.data.length)) then none else some m

/-- OP of a delivered DATA message; a malformed one, or one with an OP that R333 does not list, is 1 and is dropped there (log 33). -/
def dataOp (b : List Byte) : Nat :=
  match DataMsg.ofBytes b with | some m => if m.op = 0 ∨ 7 < m.op then 1 else m.op | none => 1

/-- Message `i` at hub `h` is DATA with an OP: taken and given to `f` with the message. -/
def State.onData (s : State) (h i op : Nat) (f : RxMsg → DataMsg → State → State) : State :=
  match s.takeMsg h i fun m => decide (m.typ = 0) && decide (dataOp m.body = op) with
  | none => s
  | some (m, s1) =>
    match DataMsg.ofBytes m.body with
    | some d => if d.op = op then f m d s1 else s1
    | none => s1

/-- An answer to the bridge on the message's flow. -/
def State.dataReply (s : State) (h : Nat) (m : RxMsg) (body : List Byte) : State := s.send h m.node m.flow ⟨0, 0, 0, body, none⟩

/-- RESP_ERR with a syndrome. -/
def State.dataErr (s : State) (h : Nat) (m : RxMsg) (d : DataMsg) (syn : Nat) : State :=
  s.dataReply h m (dataBody 5 0 d.q d.psn d.addr 0 syn [])
/-- DONE. -/
def State.dataDone (s : State) (h : Nat) (m : RxMsg) (d : DataMsg) : State := s.dataReply h m (dataBody 6 0 d.q d.psn d.addr 0 0 [])

/-- LAST. -/
def DataMsg.last (d : DataMsg) : Bool := bitOf d.flags 0

/-- DATA_WRITE: a member carries out a host WRITE (R333). -/
def execDataWrite (h i : Nat) (s : State) : Out :=
  .next (s.onData h i 1 fun m d s =>
    match s.hostWrite d.q (d.addr % 2 ^ 48) d.data h with
    | (some syn, s1) => s1.dataErr h m d syn
    | (none, s1) => if d.last then s1.dataDone h m d else s1)

/-- DATA_READ_REQ: a member answers with READ_RESP packets in address order (R333). -/
def execDataReadReq (h i : Nat) (s : State) : Out :=
  .next (s.onData h i 2 fun m d s =>
    match s.hostRead d.q (d.addr % 2 ^ 48) d.len h with
    | (.error syn, s1) => s1.dataErr h m d syn
    | (.ok b, s1) =>
      let n := max 1 ((b.length + 4071) / 4072)
      (List.range n).foldl (fun s k =>
        let part := (b.drop (4072 * k)).take 4072
        s.dataReply h m (dataBody 3 (b2n (decide (k + 1 = n))) d.q d.psn (d.addr + 4072 * k) part.length 0 part)) s1)

/-- DATA_SEND: a member gathers the packets of a SEND and posts it as one record; TAG is the immediate, or 0 (R338). -/
def execDataSend (h i : Nat) (s : State) : Out :=
  .next (s.onData h i 4 fun m d s =>
    let all := ((s.qp d.q).send.getD []) ++ d.data
    if !d.last then s.updQp d.q fun x => { x with send := some all }
    else
      let s1 := s.updQp d.q fun x => { x with send := none }
      match s1.hostPost (d.addr % 2 ^ 18) (if bitOf d.flags 1 then d.imm else 0) all with
      | (some syn, s2) => s2.dataErr h m d syn
      | (none, s2) => s2.dataDone h m d)

/-! ### DATA at the bridge (R336, R337, R343) -/

/-- Requests of a queue pair changed, where this is the bridge; then the queue pair answers what it can. -/
def State.onReqs (s : State) (q : Nat) (f : QpReq → QpReq) : State :=
  if s.rd MR.BRIDGE_EN = 0 then s else (s.updQp q fun x => { x with reqs := x.reqs.map f }).qpRun q

/-- DATA_READ_RESP: data of a READ (R337). -/
def execDataReadResp (h i : Nat) (s : State) : Out :=
  .next (s.onData h i 3 fun _ d s => s.onReqs d.q fun r =>
    if r.read && decide (r.psn = d.psn) && !r.complete then { r with data := r.data ++ d.data, complete := d.last } else r)

/-- DATA_RESP_ERR: a member's failure; an RNR NAK carries the entry's RNR_TIMER, and a SEND is answered at its first PSN (R336). -/
def execDataRespErr (h i : Nat) (s : State) : Out :=
  .next (s.onData h i 5 fun _ d s =>
    let rnr := match s.qpEnt d.q with | some e => e.rnr | none => 0
    let syn := if d.imm = nakRnr then d.imm + rnr else d.imm
    s.onReqs d.q fun r =>
      if r.covers d.psn && !r.complete then { r with nak := some (syn, if d.imm = nakRnr then r.psn else d.psn) } else r)

/-- DATA_DONE: a member has carried out a WRITE or a SEND (R337). -/
def execDataDone (h i : Nat) (s : State) : Out :=
  .next (s.onData h i 6 fun _ d s => s.onReqs d.q fun r =>
    if !r.read && decide (r.last = d.psn) then { r with complete := true } else r)

/-- DATA_NOTIFY: a member's ring notice, sent to the host (R343). -/
def execDataNotify (h i : Nat) (s : State) : Out :=
  .next (s.onData h i 7 fun _ d s => if s.rd MR.BRIDGE_EN = 0 then s else s.sendNotice d.q (d.addr % 2 ^ 32))

/-! ### Ring notices (R343) -/

/-- Notice `k` of the list changed, or dropped. -/
def State.updNotice (s : State) (k : Nat) (f : Notice → Option Notice) : State :=
  s.updMd fun m => { m with notices := m.notices.take k ++ ((m.notices.drop k).take 1).filterMap f ++ m.notices.drop (k + 1) }

/-- ROCE_NOTICE_RESPONSE: the host's ACK takes the oldest notice of queue pair `q`; an RNR NAK leaves it for the retry timer. -/
def execRoceNoticeResponse (q : Nat) (ack : Bool) (s : State) : Out :=
  .next <| match s.md.notices.findIdx? fun n => decide (n.qp = q) with
  | none => s
  | some k => s.updNotice k fun n => if ack then none else some { n with rnr := true }

/-- CCLK in 1 ms. -/
def noticeSpan : Nat := 1050000

/-- NOTICE_RETRY_EXPIRY: the oldest notice of queue pair `q` that met RNR is sent again, or dropped after 1 ms of retries. -/
def execNoticeRetryExpiry (q : Nat) (s : State) : Out :=
  .next <| match s.md.notices.findIdx? fun n => decide (n.qp = q) && n.rnr with
  | none => s
  | some k =>
    let n := s.md.notices[k]?.getD ⟨q, 0, 0, true⟩
    if n.since + noticeSpan ≤ s.now then s.updNotice k fun _ => none
    else (s.updNotice k fun n => some { n with rnr := false }).emit (.notice (s.roceTo n.qp) n.imm)

/-! ### The ring endpoint (R344) -/

/-- RING_ENDPOINT_TOKEN: the block at edge port `k` of hub `h` is for an endpoint with bit 15 set: a token for endpoint 0x8000 is
posted to its ring, waits where it is while the ring is full, or is sunk and counted. -/
def execRingEndpointToken (h k : Nat) (s : State) : Out :=
  .next <| match takeCd (Sparse.get [] (s.hub h).edgeIn k) with
  | none => s
  | some (x, row, l) =>
    let b := row.toBytes
    let ring := leNat (b.take 4) % 2 ^ 18
    let len := leNat ((b.drop 4).take 2)
    let took (s : State) : State := s.edgeTook h k l
    if !x.endpoint.testBit 15 then s
    else if x.endpoint ≠ 0x8000 ∨ x.signal ∨ ring / 2 ^ 16 ≠ h ∨ 56 < len then (took s).endpointBad h
    else match s.ringPost ring x.src ((b.drop 8).take len) with
      | (.full, _) => s
      | (_, s1) => took s1

/-! ### Rates (R325, R334) -/

/-- RATE_RAISE: RAISE_US has passed at hub `h`: flows without a mark in that time raise their rate, and so do the READ responses
of the queue pairs of its ports (R325, R334). -/
def execRateRaise (h : Nat) (s : State) : Out :=
  let u := s.hub h
  let flow (f : TxFlow) : TxFlow :=
    if f.flow ≤ 1 ∨ s.now - f.mark < u.raiseTime then f
    else match u.raiseRate f.rate f.alpha (s.macRate f.port) with | (r, a) => { f with rate := r, alpha := a }
  let qp (e : Nat × Qp) : Nat × Qp :=
    match s.qpEnt e.1 with
    | none => e
    | some x =>
      if x.port / 9 ≠ h ∨ s.now - e.2.mark < u.raiseTime then e
      else match u.raiseRate e.2.rate e.2.alpha (s.macRate x.port) with | (r, a) => (e.1, { e.2 with rate := r, alpha := a })
  .next ((s.updHub h fun u => { u with tx := u.tx.map flow }).updMd fun m => { m with qps := m.qps.map qp })

end Sys2Proof.Machine
end

