-- ==== Sys2Proof/Machine/Idle.lean ====
section
/-!
DEFINITION. The core watchdog (R82), and the CCLK that passes while no command waits (log 2).
-/
namespace Sys2Proof.Machine

/-! ### The core watchdog (R82) -/

/-- The limit of the watchdog in CCLK. -/
def Core.wdogLimit (c : Core) : Nat := 2 ^ clampTo 12 28 (c.regs.inForce CR.CORE_WDOG_LOG2)

/-- CORE_WATCHDOG_EXPIRY: the count of core `n` reaches its limit: FLT_CORE_WATCHDOG with the lowest-numbered WAITING thread and its
pc; where no thread waits, both are free values (log 34). The thread goes on waiting (DESIGN CHOICE, log 34). -/
def execCoreWatchdogExpiry (n : Nat) (s : State) : Out :=
  let c := s.core n
  let s1 := s.updCore n fun c => c.wr CR.WDOG_COUNT c.wdogLimit
  .next <|
    if !c.inSection || c.wdogHolds then s
    else match (List.range 8).find? fun t => decide ((c.thread t).status = .waiting) with
      | some t =>
        let th := c.thread t
        let insn := bits th.fetchBuf.toNat (8 * (th.pc.toNat % 8) + 31) (8 * (th.pc.toNat % 8))
        s1.unitFault n ⟨0, t, fltCoreWatchdog, th.pc.toNat, 0, false, insn⟩
      | none =>
        let t := s1.fresh 3
        let pc := t.2.fresh 32
        pc.2.unitFault n ⟨0, t.1.toNat, fltCoreWatchdog, pc.1.toNat, 0, false, 0⟩

/-! ### A CCLK (log 2) -/

/-- The core waits for its next context (R41). -/
def Core.ctxWaits (c : Core) : Bool :=
  match c.next with
  | some x => decide (c.sec = .idle) && decide ((c.slot x.slot).state ≠ .ready)
  | none => false

/-- Outgoing traffic is held behind a bezel notice (R107). -/
def Core.outHeld (c : Core) : Bool := c.noticesOut && (decide (c.inBuf 0 0 ≠ []) || decide (c.heldArr ≠ []))

/-- A memory request waits for the share (R204). -/
def Core.shareWaits (c : Core) (n : Nat) : Bool :=
  decide (c.balance < shareCost) && (decide (c.memWait ≠ []) || (c.ctxReq n).isSome || c.dma.hasRow)

/-- What a CCLK counts at a core. -/
def Core.clock (c : Core) (n : Nat) : Core :=
  let c1 := if c.inSection && !c.wdogHolds then c.count CR.WDOG_COUNT 1 else c
  let c2 := if c.ctxWaits then c1.count CR.CTX_WAIT_CYCLES 1 else c1
  let c3 := if c.outHeld then c2.count CR.BZ_HOLD_CYCLES 1 else c2
  if c.shareWaits n then c3.count CR.SHARE_WAIT_CYCLES 1 else c3

/-- One CCLK passes: the time advances, and the cores whose CORE domain is on count it. -/
def State.clock (s : State) : State :=
  let go (e : Nat × Core) : Nat × Core :=
    if s.dom (4 * regionOf e.1) = domOn ∧ !e.2.gated then (e.1, e.2.clock e.1) else e
  { s with now := s.now + 1, cores := s.cores.map go }

end Sys2Proof.Machine
end

