-- ==== Sys2Proof/Machine/Memory.lean ====
section
/-!
DEFINITION. Narrow loads and stores and row accesses of threads (R73, R90), the scrubber and the write-back of corrected words (R99 to
R101).
-/
namespace Sys2Proof.Machine

/-- Where a narrow access of `len` bytes leads (R73). -/
inductive NarrowTo where
  | misaligned | spad | reg (off : Nat) | unmapped
  deriving DecidableEq, Repr

/-- See `NarrowTo`; `word`: a ld.w or st.w, which alone reach registers. -/
def narrowTo (a len : Nat) (word : Bool) : NarrowTo :=
  if a % len ≠ 0 then .misaligned
  else if a + len ≤ spadSize then .spad
  else if word && decide (0xF0000 ≤ a) && decide (a < 0x100000) then .reg (a - 0xF0000)
  else .unmapped

/-- A narrow load of `len` bytes by thread `t` of core `n`, or a row load: `put` gives the thread what was read. -/
def narrowLoad (n : Nat) (t : BitVec 3) (a : BitVec 5) (imm : BitVec 16) (insn len : Nat) (word : Bool) (put : List Byte → Thread → Thread)
    (s : State) : State :=
  issue n t insn (fun s1 =>
    let at_ := narrowAddr ((s1.core n).thread t.toNat) a imm
    match narrowTo at_ len word with
    | .misaligned => s1.threadFault n t.toNat fltMisaligned at_ false insn
    | .unmapped => s1.threadFault n t.toNat fltLocalAddr at_ false insn
    | .reg off => let r := s1.coreRead n off; r.2.retire n t.toNat (put (leBytes 4 r.1))
    | .spad =>
      match (s1.core n).readSpad at_ len with
      | (.ok b, c) => (s1.setCore n c).retire n t.toNat (put b)
      | (.error w, c) => (s1.setCore n c).threadFault n t.toNat fltSpadUncorrectable (8 * w) false insn) s

/-- A narrow or row store of the bytes `get` takes from the thread. -/
def narrowStore (n : Nat) (t : BitVec 3) (a : BitVec 5) (imm : BitVec 16) (insn len : Nat) (word : Bool) (get : Thread → List Byte)
    (s : State) : State :=
  issue n t insn (fun s1 =>
    let th := (s1.core n).thread t.toNat
    let at_ := narrowAddr th a imm
    match narrowTo at_ len word with
    | .misaligned => s1.threadFault n t.toNat fltMisaligned at_ false insn
    | .unmapped => s1.threadFault n t.toNat fltLocalAddr at_ false insn
    | .reg off => (s1.coreWrite n off (leNat (get th)) (some t.toNat)).retire n t.toNat id
    | .spad =>
      match (s1.core n).writeSpad at_ (get th) with
      | (none, c) => (s1.setCore n c).retire n t.toNat id
      | (some w, c) => (s1.setCore n c).threadFault n t.toNat fltSpadUncorrectable (8 * w) false insn) s

/-- ld.b: g[d] ← sext(byte). -/
def execLdB (n : Nat) (t : BitVec 3) (d a : BitVec 5) (imm : BitVec 16) (s : State) : Out :=
  .next (narrowLoad n t a imm (wordI 0x10 d.toNat a.toNat imm.toNat) 1 false
    (fun b th => th.wg d ((BitVec.ofNat 8 (leNat b)).signExtend 32)) s)
/-- ld.bu: g[d] ← zext(byte). -/
def execLdBu (n : Nat) (t : BitVec 3) (d a : BitVec 5) (imm : BitVec 16) (s : State) : Out :=
  .next (narrowLoad n t a imm (wordI 0x11 d.toNat a.toNat imm.toNat) 1 false
    (fun b th => th.wg d (BitVec.ofNat 32 (leNat b))) s)
/-- ld.h: g[d] ← sext(halfword). -/
def execLdH (n : Nat) (t : BitVec 3) (d a : BitVec 5) (imm : BitVec 16) (s : State) : Out :=
  .next (narrowLoad n t a imm (wordI 0x12 d.toNat a.toNat imm.toNat) 2 false
    (fun b th => th.wg d ((BitVec.ofNat 16 (leNat b)).signExtend 32)) s)
/-- ld.hu: g[d] ← zext(halfword). -/
def execLdHu (n : Nat) (t : BitVec 3) (d a : BitVec 5) (imm : BitVec 16) (s : State) : Out :=
  .next (narrowLoad n t a imm (wordI 0x13 d.toNat a.toNat imm.toNat) 2 false
    (fun b th => th.wg d (BitVec.ofNat 32 (leNat b))) s)
/-- ld.w: g[d] ← the word, or the register. -/
def execLdW (n : Nat) (t : BitVec 3) (d a : BitVec 5) (imm : BitVec 16) (s : State) : Out :=
  .next (narrowLoad n t a imm (wordI 0x14 d.toNat a.toNat imm.toNat) 4 true
    (fun b th => th.wg d (BitVec.ofNat 32 (leNat b))) s)
/-- ld.d: g[d], g[d + 1] ← 8 bytes; an odd d is illegal. -/
def execLdD (n : Nat) (t : BitVec 3) (d a : BitVec 5) (imm : BitVec 16) (s : State) : Out :=
  .next (if oddReg d then issueIllegal n t (wordI 0x15 d.toNat a.toNat imm.toNat) s
    else narrowLoad n t a imm (wordI 0x15 d.toNat a.toNat imm.toNat) 8 false
      (fun b th => th.wgPair d (BitVec.ofNat 64 (leNat b))) s)
/-- st.b: the byte ← g[d][7:0]. -/
def execStB (n : Nat) (t : BitVec 3) (d a : BitVec 5) (imm : BitVec 16) (s : State) : Out :=
  .next (narrowStore n t a imm (wordI 0x16 d.toNat a.toNat imm.toNat) 1 false (fun th => leBytes 1 (th.rg d).toNat) s)
/-- st.h: the halfword ← g[d][15:0]. -/
def execStH (n : Nat) (t : BitVec 3) (d a : BitVec 5) (imm : BitVec 16) (s : State) : Out :=
  .next (narrowStore n t a imm (wordI 0x17 d.toNat a.toNat imm.toNat) 2 false (fun th => leBytes 2 (th.rg d).toNat) s)
/-- st.w: the word, or the register, ← g[d]. -/
def execStW (n : Nat) (t : BitVec 3) (d a : BitVec 5) (imm : BitVec 16) (s : State) : Out :=
  .next (narrowStore n t a imm (wordI 0x18 d.toNat a.toNat imm.toNat) 4 true (fun th => leBytes 4 (th.rg d).toNat) s)
/-- st.d: 8 bytes ← g[d], g[d + 1]; an odd d is illegal. -/
def execStD (n : Nat) (t : BitVec 3) (d a : BitVec 5) (imm : BitVec 16) (s : State) : Out :=
  .next (if oddReg d then issueIllegal n t (wordI 0x19 d.toNat a.toNat imm.toNat) s
    else narrowStore n t a imm (wordI 0x19 d.toNat a.toNat imm.toNat) 8 false (fun th => leBytes 8 (th.rgPair d).toNat) s)
/-- vld: v[d] ← the row. -/
def execVld (n : Nat) (t : BitVec 3) (d : BitVec 4) (a : BitVec 5) (imm : BitVec 16) (s : State) : Out :=
  .next (narrowLoad n t a imm (wordI 0x1E d.toNat a.toNat imm.toNat) 64 false (fun b th => th.wv d (Row.ofBytes b)) s)
/-- vst: the row ← v[d]. -/
def execVst (n : Nat) (t : BitVec 3) (d : BitVec 4) (a : BitVec 5) (imm : BitVec 16) (s : State) : Out :=
  .next (narrowStore n t a imm (wordI 0x1F d.toNat a.toNat imm.toNat) 64 false (fun th => (th.rv d).toBytes) s)

/-! ### The error code at work (R99, R101) -/

/-- The next row of the sweep is read: its correctable words are corrected and counted, its uncorrectable words are counted and the
first is recorded if the record is free. -/
def Core.scrubRow (c : Core) : Core :=
  let row := c.rd CR.SCRUB_ROW
  let ws := wordsOf (64 * row) 64
  let one := ws.filter fun w => c.single.contains w
  let two := ws.filter fun w => c.double.contains w
  let c1 := c.countSat CR.CE_COUNT CR.CE_SAT one.length
  let c2 := { c1 with writebacks := c1.writebacks ++ one.filter fun w => !c.writebacks.contains w }
  let c3 := match two with | w :: _ => c2.noteUe w two.length true | [] => c2
  if row + 1 < 2560 then c3.wr CR.SCRUB_ROW (row + 1)
  else (c3.wr CR.SCRUB_ROW 0).countSat CR.SCRUB_SWEEPS CR.SWEEP_SAT 1

/-- SCRATCHPAD_SCRUB: the scrubber's period of core `n` expires (R101). It runs with SCRUB_EN in force. -/
def execScratchpadScrub (n : Nat) (s : State) : Out :=
  .next (if (s.core n).regs.inForce CR.SCRUB_EN = 1 then s.updCore n Core.scrubRow else s)

/-- ECC_WRITEBACK: the oldest corrected word of core `n` that waits is written back (R99). -/
def execEccWriteback (n : Nat) (s : State) : Out :=
  .next <| match (s.core n).writebacks with
  | [] => s
  | w :: ws => s.updCore n fun c => { c with writebacks := ws, single := c.single.filter fun x => decide (x ≠ w) }

end Sys2Proof.Machine
end

