-- ==== Sys2Proof/Machine/Mgmt.lean ====
section
/-!
DEFINITION. The management interface: MCTP over SMBus (R439 to R441).
-/
namespace Sys2Proof.Machine

/-- A bit of ALERT_CAUSE is set and not masked; bits 5 and 9 cannot be masked (R439). -/
def State.alertPin (s : State) : Bool :=
  let cause := s.mdWord 0xF48
  (List.range 11).any fun b => cause.testBit b && (decide (b = 5) || decide (b = 9) || !(s.rd MR.ALERT_MASK).testBit b)

/-- A response: CMD with bit 7 set, the TAG, STATUS, CAUSE and the data (R440, log 31). -/
def State.mgmtReply (s : State) (cmd : Nat) (tag : BitVec 8) (status cause : Nat) (b : List Byte) : State :=
  s.emit (.mctp (leBytes 1 (cmd + 0x80) ++ leBytes 1 tag.toNat ++ leBytes 1 status ++ leBytes 1 cause ++ b))

/-- A byte range lies in the module window. -/
def inModuleWindow (a len : Nat) : Bool := decide (0x7FFF00000000 ≤ a) && decide (a + len ≤ 0x7FFF00010000)

/-- Stage 3 has not ended OK (R441). -/
def State.notReady (s : State) : Bool := !s.isReady && decide (s.rd MR.STAGE ≤ 3)

/-- MOD_STATE is RECOVERY. -/
def State.inRecovery (s : State) : Bool := decide (s.rd MR.MOD_STATE = 2)

/-- Management accesses pass through the MP with requester class MP. -/
def mgmtWriter : Writer := ⟨.mp, 0, 2⟩

/-- The answer to an access: OK with the data, REFUSED with the cause of R31, BUSY, or REFUSED for an uncorrectable block (log 31). -/
def State.devReply (s : State) (cmd : Nat) (tag : BitVec 8) (r : DevRes) : State :=
  match r with
  | .ok b => s.mgmtReply cmd tag 0 0 b
  | .no c => s.mgmtReply cmd tag 1 c.code []
  | .busy => s.mgmtReply cmd tag 4 0 []
  | .bad => s.mgmtReply cmd tag 1 0 []

/-- LEN and ADDR as R440 lays them out. -/
def devFieldsOk (addr len : Nat) : Bool := decide (addr < 2 ^ 48) && decide (4 ≤ len) && decide (len ≤ 32) && decide (len % 4 = 0)

/-- READ_DEV (R440, R441). -/
def execReadDev (tag : BitVec 8) (addr : BitVec 64) (len : BitVec 8) (s : State) : Out :=
  .next <|
    if !devFieldsOk addr.toNat len.toNat then s.mgmtReply 1 tag 3 0 []
    else if s.notReady && !inModuleWindow addr.toNat len.toNat then s.mgmtReply 1 tag 2 0 []
    else
      let r := s.devRead mgmtWriter addr.toNat len.toNat
      r.2.devReply 1 tag r.1

/-- WRITE_DEV of the bytes given (R440, R441). -/
def execWriteDev (tag : BitVec 8) (addr : BitVec 64) (b : List Byte) (s : State) : Out :=
  .next <|
    if s.inRecovery then s.mgmtReply 2 tag 2 0 []
    else if !devFieldsOk addr.toNat b.length then s.mgmtReply 2 tag 3 0 []
    else if s.notReady && !inModuleWindow addr.toNat b.length then s.mgmtReply 2 tag 2 0 []
    else
      let r := s.devWrite mgmtWriter addr.toNat b
      r.2.devReply 2 tag r.1

/-- READ_LOG: the record at SEQ mod 1,024 (R440). -/
def execReadLog (tag : BitVec 8) (seq : BitVec 32) (s : State) : Out :=
  .next (s.mgmtReply 3 tag 0 0 (s.logBytes (seq.toNat % 1024)))

/-- DBG_PUT: 32 bytes of the response buffer written (R440). -/
def execDbgPut (tag : BitVec 8) (off : BitVec 16) (b : List Byte) (s : State) : Out :=
  .next <|
    if s.inRecovery then s.mgmtReply 4 tag 2 0 []
    else if off.toNat % 32 ≠ 0 ∨ 0xCE0 < off.toNat ∨ b.length ≠ 32 then s.mgmtReply 4 tag 3 0 []
    else (s.respPut off.toNat b).mgmtReply 4 tag 0 0 []

/-- GET_FM: the latest STATUS (3) or RESET_REPORT (4) body; REFUSED if none has been made (R440). -/
def execGetFm (tag typ : BitVec 8) (s : State) : Out :=
  let body := if typ = 3 then s.md.fmStatus else s.md.fmReset
  .next <|
    if s.inRecovery then s.mgmtReply 5 tag 2 0 []
    else if typ ≠ 3 ∧ typ ≠ 4 then s.mgmtReply 5 tag 3 0 []
    else if body = [] then s.mgmtReply 5 tag 1 0 []
    else s.mgmtReply 5 tag 0 0 body

/-- MCTP_CONTROL: a control message is answered (R440, log 32). -/
def execMctpControl (b : List Byte) (s : State) : Out := .next (s.emit (.mctpControl b))

/-- SMBUS_ALERT_RESPONSE: the module answers the Alert Response Address with its own (R439). -/
def execSmbusAlertResponse (s : State) : Out := .next (s.emit (.alertAddress (0x68 + Config.straps.toNat)))

end Sys2Proof.Machine
end

