-- ==== Sys2Proof/Machine/SpecialFn.lean ====
section
/-!
DEFINITION. The special functions (R140): each result is the exact mathematical value rounded once to nearest even.
The irrational values are computed in fixed point with far more bits than FP32 keeps and passed to `roundTo` with a
sticky low bit (DEDUCED, log 13).
-/
namespace Sys2Proof.Machine

/-- Integer square root by digits: the largest r with r² ≤ n that the bits below `fuel` can form. -/
def isqrtAux (n : Nat) : Nat → Nat → Nat
  | 0, r => r
  | k + 1, r =>
    let r' := r + 2 ^ k
    isqrtAux n k (if r' * r' ≤ n then r' else r)

def isqrt (n : Nat) : Nat := isqrtAux n (Nat.log2 n / 2 + 1) 0

/-- A positive non-dyadic value known to lie strictly between q × 2^e and (q + 1) × 2^e. -/
def sticky (neg : Bool) (q : Nat) (e : Int) : FV := .fin neg (2 * q + 1) (e - 1)

/-! Fixed point with `P` fraction bits. -/

/-- Σ t^k / k! for k below the fuel, from term `k`. -/
def expSeries (P t : Nat) : Nat → Nat → Nat → Nat → Nat
  | 0, _, _, acc => acc
  | fuel + 1, k, term, acc => expSeries P t fuel (k + 1) (term * t / 2 ^ P / (k + 1)) (acc + term)

/-- Σ z^(2k+1) / (2k+1). -/
def atanhSeries (P zz : Nat) : Nat → Nat → Nat → Nat → Nat
  | 0, _, _, acc => acc
  | fuel + 1, k, pow, acc => atanhSeries P zz fuel (k + 1) (pow * zz / 2 ^ P) (acc + pow / (2 * k + 1))

/-- ln m for 1 ≤ m < 2, m = a / 2^P. -/
def lnFixed (P a : Nat) : Nat :=
  let z := (a - 2 ^ P) * 2 ^ P / (a + 2 ^ P)
  2 * atanhSeries P (z * z / 2 ^ P) 96 0 z 0

/-- ln 2. -/
def ln2 (P : Nat) : Nat :=
  let z := 2 ^ P / 3
  2 * atanhSeries P (z * z / 2 ^ P) 96 0 z 0

/-- Σ (-1)^k z^(2k+1) / (2k+1). -/
def atanSeries (P zz : Nat) : Nat → Nat → Int → Int → Int
  | 0, _, _, acc => acc
  | fuel + 1, k, pow, acc =>
    atanSeries P zz fuel (k + 1) (-(pow * zz / 2 ^ P)) (acc + pow / (2 * k + 1))

/-- π by Machin's formula. -/
def piFixed (P : Nat) : Nat :=
  let at' (n fuel : Nat) : Int := atanSeries P (2 ^ P / (n * n)) fuel 0 ((2 ^ P / n : Nat) : Int) 0
  (16 * at' 5 130 - 4 * at' 239 45).toNat

/-- The alternating series of sine (from t) or cosine (from 1): each term is the last times -tt / (j (j + 1)). -/
def trigSeries (P tt : Nat) : Nat → Nat → Int → Int → Int
  | 0, _, _, acc => acc
  | fuel + 1, j, term, acc =>
    trigSeries P tt fuel (j + 2) (-(term * tt / 2 ^ P / (j * (j + 1)))) (acc + term)

/-- Σ (-1)^n x^(2n+1) / (n! (2n+1)). -/
def erfSeries (P xx : Nat) : Nat → Nat → Int → Int → Int
  | 0, _, _, acc => acc
  | fuel + 1, n, term, acc =>
    erfSeries P xx fuel (n + 1) (-(term * xx / 2 ^ P / (n + 1))) (acc + term / (2 * n + 1))

/-! The functions on exact values: the exact result, or a value that rounds as it does. -/

/-- 2^x. -/
def exp2V (x : FV) : FV :=
  match x with
  | .nan => .nan
  | .inf neg => if neg then .fin false 0 0 else .inf false
  | .fin neg m e =>
    if m = 0 then .fin false 1 0
    else if 0 ≤ x.log2 ∧ 8 ≤ x.log2 then (if neg then .fin false 1 (-400) else .fin false 1 400)
    else
      let P : Nat := 256
      -- x = n + f with 0 ≤ f < 1, as an integer over 2^P (every FP32 value below 256 is a multiple of 2^-149)
      let xs : Int := x.atExp (if e < -256 then e else -256)
      let n := xs / 2 ^ P
      let f := (xs % 2 ^ P).toNat
      if f = 0 then .fin false 1 n
      else sticky false (expSeries P (f * ln2 P / 2 ^ P) 80 0 (2 ^ P) 0) (n - P)

/-- log2 x. -/
def log2V (x : FV) : FV :=
  match x with
  | .nan => .nan
  | .inf neg => if neg then .nan else .inf false
  | .fin neg m _ =>
    if m = 0 then .inf true
    else if neg then .nan
    else
      let P : Nat := 256
      let k := Nat.log2 m
      let ex := x.log2
      if m = 2 ^ k then FV.ofInt ex 0
      else
        let l : Int := (lnFixed P (m * 2 ^ P / 2 ^ k) * 2 ^ P / ln2 P : Nat)
        let v := ex * 2 ^ P + l
        if 0 ≤ v then sticky false v.toNat (-P) else sticky true (-v - 1).toNat (-P)

/-- 1 / x. -/
def rcpV (x : FV) : FV :=
  match x with
  | .nan => .nan
  | .inf neg => .fin neg 0 0
  | .fin neg m e =>
    if m = 0 then .inf neg
    else
      let k : Nat := 128
      let q := 2 ^ k / m
      if q * m = 2 ^ k then .fin neg q (-e - k) else sticky neg q (-e - k)

/-- 1 / sqrt x. -/
def rsqrtV (x : FV) : FV :=
  match x with
  | .nan => .nan
  | .inf neg => if neg then .nan else .fin false 0 0
  | .fin neg m e =>
    if m = 0 then .inf neg
    else if neg then .nan
    else
      -- make the exponent even, then 1/sqrt(m 2^e) = sqrt(2^(2k) / m) 2^(-k - e/2)
      let m' := if e % 2 = 0 then m else 2 * m
      let e' := if e % 2 = 0 then e else e - 1
      let k : Nat := 160
      let d := 2 ^ (2 * k) / m'
      let q := isqrt d
      if q * q * m' = 2 ^ (2 * k) then .fin false q (-e' / 2 - k) else sticky false q (-e' / 2 - k)

/-- sin x (`cosine` false) or cos x (true), in radians. -/
def trigV (cosine : Bool) (x : FV) : FV :=
  match x with
  | .nan => .nan
  | .inf _ => .nan
  | .fin neg m e =>
    if m = 0 then (if cosine then .fin false 1 0 else .fin neg 0 0)
    else
      let P : Nat := 512
      let a : Nat := ((FV.fin false m e).atExp (-P)).toNat
      let halfPi := piFixed P / 2
      let k := a / halfPi
      let r := a % halfPi
      let quad := (if cosine then k + 1 else k) % 4
      let rr := r * r / 2 ^ P
      let sinR := trigSeries P rr 60 2 r 0
      let cosR := trigSeries P rr 60 1 ((2 ^ P : Nat) : Int) 0
      let v := if quad % 2 = 0 then sinR else cosR
      let flip := decide (2 ≤ quad)
      let s := if cosine then flip else flip != neg
      sticky s v.toNat (-P)

/-- erf x. -/
def erfV (x : FV) : FV :=
  match x with
  | .nan => .nan
  | .inf neg => .fin neg 1 0
  | .fin neg m e =>
    if m = 0 then .fin neg 0 0
    else if 3 ≤ x.log2 then .fin neg (2 ^ 400 - 1) (-400)
    else
      let P : Nat := 512
      let a : Nat := ((FV.fin false m e).atExp (-P)).toNat
      let s := (erfSeries P (a * a / 2 ^ P) 420 0 a 0).toNat
      -- 2 / sqrt(π)
      let c := 2 * 2 ^ P * 2 ^ P / isqrt (piFixed P * 2 ^ P)
      sticky neg (s * c / 2 ^ P) (-P)

/-- One special function on one lane, by its fn code (R69): the FP32 result and its events (R140, R142). -/
def specialFn (g : FV → FV) (a : Word) : Word × Events :=
  match g (fpv a) with
  | .nan => (nanW, if (fpv a).isNan then {} else { nan := 1 })
  | y => toFp32 false y

end Sys2Proof.Machine
end

