-- ==== Sys2Proof/Machine/Vector.lean ====
section
/-!
DEFINITION. Vector, exchange, compensated-sum, special-function and conversion instructions (R69 OP 0x20 to 0x24, R134
to R142), and the random words of OP 0x2F.
-/
namespace Sys2Proof.Machine

/-! ### Lanes under a mask (R68) -/

/-- Sixteen lanes, each new where its mask bit is 1 and old where it is 0. -/
def maskLanes (mask : BitVec 16) (old : Row) (f : Nat → Word) : Row :=
  Row.ofLanes fun i => if mask.getLsbD i then f i else old.lane i

/-- Sixteen predicate bits under a mask. -/
def maskBits (mask old : BitVec 16) (f : Nat → Bool) : BitVec 16 :=
  BitVec.ofNat 16 ((List.range 16).foldl (fun a i => a + b2n (if mask.getLsbD i then f i else old.getLsbD i) * 2 ^ i) 0)

/-- The events of the lanes that are not masked (R142). -/
def laneEvents (mask : BitVec 16) (f : Nat → Events) : Events :=
  Events.sum ((List.range 16).map fun i => if mask.getLsbD i then f i else Events.zero)

/-- A vector instruction: `f` gives the thread after it and the numeric events it counts. -/
def issueV (n : Nat) (t : BitVec 3) (insn : Nat) (f : Thread → Thread × Events) (s : State) : State :=
  issue n t insn (fun s1 => s1.updCore n fun c =>
    (c.retire t.toNat fun th => (f th).1).countEvents (f (c.thread t.toNat)).2) s

/-- A vector instruction that writes lanes of v[d] and counts their events. -/
def lanesE (th : Thread) (d : BitVec 4) (pg : BitVec 3) (f : Nat → Word × Events) : Thread × Events :=
  (th.wv d (maskLanes (th.rp pg) (th.rv d) fun i => (f i).1), laneEvents (th.rp pg) fun i => (f i).2)

/-- A vector instruction that writes lanes of v[d] and counts nothing. -/
def lanesQ (th : Thread) (d : BitVec 4) (pg : BitVec 3) (f : Nat → Word) : Thread × Events :=
  (th.wv d (maskLanes (th.rp pg) (th.rv d) f), Events.zero)

/-- The pairwise tree of vred: at each of the four stages neighbours combine (R69). -/
def treeStep {α : Type} (g : α → α → α × Events) : List α → List α × Events
  | a :: b :: l => let r := g a b; let q := treeStep g l; (r.1 :: q.1, r.2.add q.2)
  | l => (l, Events.zero)

/-- Four stages of the tree. -/
def tree4 {α : Type} (g : α → α → α × Events) : Nat → List α → List α × Events
  | 0, l => (l, Events.zero)
  | k + 1, l => let r := treeStep g l; let q := tree4 g k r.1; (q.1, r.2.add q.2)

/-- The sixteen lanes of a vector as a list. -/
def lanesOf (v : Row) : List Word := (List.range 16).map v.lane

/-- A vector whose lane 0 is `w` and whose other lanes are 0. -/
def lane0 (w : Word) : Row := Row.ofLanes fun i => if i = 0 then w else 0

/-! ### Vector, OP 0x20, form V -/

/-- vadd: FP32 add, rounded once. -/
def execVadd (n : Nat) (t : BitVec 3) (d : BitVec 4) (a : BitVec 4) (b : BitVec 4) (pg : BitVec 3) (s : State) : Out :=
  .next (issueV n t (wordV 0x20 d.toNat a.toNat b.toNat 0 pg.toNat 0x01)
    (fun th => lanesE th d pg fun i => fpAdd ((th.rv a).lane i) ((th.rv b).lane i)) s)
/-- vsub: FP32 subtract. -/
def execVsub (n : Nat) (t : BitVec 3) (d : BitVec 4) (a : BitVec 4) (b : BitVec 4) (pg : BitVec 3) (s : State) : Out :=
  .next (issueV n t (wordV 0x20 d.toNat a.toNat b.toNat 0 pg.toNat 0x02)
    (fun th => lanesE th d pg fun i => fpSub ((th.rv a).lane i) ((th.rv b).lane i)) s)
/-- vmul: FP32 multiply. -/
def execVmul (n : Nat) (t : BitVec 3) (d : BitVec 4) (a : BitVec 4) (b : BitVec 4) (pg : BitVec 3) (s : State) : Out :=
  .next (issueV n t (wordV 0x20 d.toNat a.toNat b.toNat 0 pg.toNat 0x03)
    (fun th => lanesE th d pg fun i => fpMul ((th.rv a).lane i) ((th.rv b).lane i)) s)
/-- vfma: a × b + c rounded once. -/
def execVfma (n : Nat) (t : BitVec 3) (d : BitVec 4) (a : BitVec 4) (b : BitVec 4) (c : BitVec 4) (pg : BitVec 3) (s : State) : Out :=
  .next (issueV n t (wordV 0x20 d.toNat a.toNat b.toNat c.toNat pg.toNat 0x04)
    (fun th => lanesE th d pg fun i => fpFma ((th.rv a).lane i) ((th.rv b).lane i) ((th.rv c).lane i)) s)
/-- vmax: FP32 maximum; NaN if either is NaN. -/
def execVmax (n : Nat) (t : BitVec 3) (d : BitVec 4) (a : BitVec 4) (b : BitVec 4) (pg : BitVec 3) (s : State) : Out :=
  .next (issueV n t (wordV 0x20 d.toNat a.toNat b.toNat 0 pg.toNat 0x05)
    (fun th => lanesQ th d pg fun i => fpMax ((th.rv a).lane i) ((th.rv b).lane i)) s)
/-- vmin: FP32 minimum; NaN if either is NaN. -/
def execVmin (n : Nat) (t : BitVec 3) (d : BitVec 4) (a : BitVec 4) (b : BitVec 4) (pg : BitVec 3) (s : State) : Out :=
  .next (issueV n t (wordV 0x20 d.toNat a.toNat b.toNat 0 pg.toNat 0x06)
    (fun th => lanesQ th d pg fun i => fpMin ((th.rv a).lane i) ((th.rv b).lane i)) s)
/-- vabs: bit 31 cleared. -/
def execVabs (n : Nat) (t : BitVec 3) (d : BitVec 4) (a : BitVec 4) (pg : BitVec 3) (s : State) : Out :=
  .next (issueV n t (wordV 0x20 d.toNat a.toNat 0 0 pg.toNat 0x07)
    (fun th => lanesQ th d pg fun i => (th.rv a).lane i &&& 0x7FFFFFFF) s)
/-- vneg: bit 31 inverted. -/
def execVneg (n : Nat) (t : BitVec 3) (d : BitVec 4) (a : BitVec 4) (pg : BitVec 3) (s : State) : Out :=
  .next (issueV n t (wordV 0x20 d.toNat a.toNat 0 0 pg.toNat 0x08)
    (fun th => lanesQ th d pg fun i => (th.rv a).lane i ^^^ 0x80000000) s)
/-- vcmp.lt: lane compare into p[d]; false if either is NaN. -/
def execVcmpLt (n : Nat) (t : BitVec 3) (d : BitVec 3) (a : BitVec 4) (b : BitVec 4) (pg : BitVec 3) (s : State) : Out :=
  .next (issueV n t (wordV 0x20 d.toNat a.toNat b.toNat 0 pg.toNat 0x09)
    (fun th => (th.wp d (maskBits (th.rp pg) (th.rp d) fun i => fpLt ((th.rv a).lane i) ((th.rv b).lane i)), Events.zero)) s)
/-- vcmp.le: lane compare into p[d]; false if either is NaN. -/
def execVcmpLe (n : Nat) (t : BitVec 3) (d : BitVec 3) (a : BitVec 4) (b : BitVec 4) (pg : BitVec 3) (s : State) : Out :=
  .next (issueV n t (wordV 0x20 d.toNat a.toNat b.toNat 0 pg.toNat 0x0A)
    (fun th => (th.wp d (maskBits (th.rp pg) (th.rp d) fun i => fpLe ((th.rv a).lane i) ((th.rv b).lane i)), Events.zero)) s)
/-- vcmp.eq: lane compare into p[d]; false if either is NaN. -/
def execVcmpEq (n : Nat) (t : BitVec 3) (d : BitVec 3) (a : BitVec 4) (b : BitVec 4) (pg : BitVec 3) (s : State) : Out :=
  .next (issueV n t (wordV 0x20 d.toNat a.toNat b.toNat 0 pg.toNat 0x0B)
    (fun th => (th.wp d (maskBits (th.rp pg) (th.rp d) fun i => fpEq ((th.rv a).lane i) ((th.rv b).lane i)), Events.zero)) s)
/-- vsel: lane select by p[c]. -/
def execVsel (n : Nat) (t : BitVec 3) (d : BitVec 4) (a : BitVec 4) (b : BitVec 4) (c : BitVec 3) (pg : BitVec 3) (s : State) : Out :=
  .next (issueV n t (wordV 0x20 d.toNat a.toNat b.toNat c.toNat pg.toNat 0x0C)
    (fun th => lanesQ th d pg fun i => if (th.rp c).getLsbD i then (th.rv a).lane i else (th.rv b).lane i) s)
/-- vred.add: pairwise tree sum into lane 0, other lanes 0. -/
def execVredAdd (n : Nat) (t : BitVec 3) (d : BitVec 4) (a : BitVec 4) (s : State) : Out :=
  .next (issueV n t (wordV 0x20 d.toNat a.toNat 0 0 0 0x0D)
    (fun th => let r := tree4 fpAdd 4 (lanesOf (th.rv a)); (th.wv d (lane0 (nth 0 r.1 0)), r.2)) s)
/-- vred.max: pairwise tree maximum into lane 0. -/
def execVredMax (n : Nat) (t : BitVec 3) (d : BitVec 4) (a : BitVec 4) (s : State) : Out :=
  .next (issueV n t (wordV 0x20 d.toNat a.toNat 0 0 0 0x0E)
    (fun th => (th.wv d (lane0 (nth 0 (tree4 (fun x y => (fpMax x y, Events.zero)) 4 (lanesOf (th.rv a))).1 0)), Events.zero)) s)
/-- vand: bitwise AND. -/
def execVand (n : Nat) (t : BitVec 3) (d : BitVec 4) (a : BitVec 4) (b : BitVec 4) (pg : BitVec 3) (s : State) : Out :=
  .next (issueV n t (wordV 0x20 d.toNat a.toNat b.toNat 0 pg.toNat 0x0F)
    (fun th => lanesQ th d pg fun i => (th.rv a).lane i &&& (th.rv b).lane i) s)
/-- vor: bitwise OR. -/
def execVor (n : Nat) (t : BitVec 3) (d : BitVec 4) (a : BitVec 4) (b : BitVec 4) (pg : BitVec 3) (s : State) : Out :=
  .next (issueV n t (wordV 0x20 d.toNat a.toNat b.toNat 0 pg.toNat 0x10)
    (fun th => lanesQ th d pg fun i => (th.rv a).lane i ||| (th.rv b).lane i) s)
/-- vxor: bitwise XOR. -/
def execVxor (n : Nat) (t : BitVec 3) (d : BitVec 4) (a : BitVec 4) (b : BitVec 4) (pg : BitVec 3) (s : State) : Out :=
  .next (issueV n t (wordV 0x20 d.toNat a.toNat b.toNat 0 pg.toNat 0x11)
    (fun th => lanesQ th d pg fun i => (th.rv a).lane i ^^^ (th.rv b).lane i) s)
/-- viadd: 32-bit integer add. -/
def execViadd (n : Nat) (t : BitVec 3) (d : BitVec 4) (a : BitVec 4) (b : BitVec 4) (pg : BitVec 3) (s : State) : Out :=
  .next (issueV n t (wordV 0x20 d.toNat a.toNat b.toNat 0 pg.toNat 0x12)
    (fun th => lanesQ th d pg fun i => (th.rv a).lane i + (th.rv b).lane i) s)
/-- vperm: lane i takes lane vb.i[3:0] of va. -/
def execVperm (n : Nat) (t : BitVec 3) (d : BitVec 4) (a : BitVec 4) (b : BitVec 4) (s : State) : Out :=
  .next (issueV n t (wordV 0x20 d.toNat a.toNat b.toNat 0 0 0x13)
    (fun th => (th.wv d (Row.ofLanes fun i => (th.rv a).lane (((th.rv b).lane i).setWidth 4).toNat), Events.zero)) s)
/-- vmov: register move. -/
def execVmov (n : Nat) (t : BitVec 3) (d : BitVec 4) (a : BitVec 4) (pg : BitVec 3) (s : State) : Out :=
  .next (issueV n t (wordV 0x20 d.toNat a.toNat 0 0 pg.toNat 0x14)
    (fun th => lanesQ th d pg fun i => (th.rv a).lane i) s)

/-! ### Exchange, OP 0x21, form G -/

/-- vbcast: every lane of v[d] ← g[a]. -/
def execVbcast (n : Nat) (t : BitVec 3) (d : BitVec 4) (a : BitVec 5) (pg : BitVec 3) (s : State) : Out :=
  .next (issueGT n t pg (wordG 0x21 d.toNat a.toNat 0 pg.toNat 0x01) (fun th => th.wv d (Row.ofLanes fun _ => th.rg a)) s)
/-- vext: g[d] ← v[a].(g[b][3:0]). -/
def execVext (n : Nat) (t : BitVec 3) (d : BitVec 5) (a : BitVec 4) (b : BitVec 5) (pg : BitVec 3) (s : State) : Out :=
  .next (issueGT n t pg (wordG 0x21 d.toNat a.toNat b.toNat pg.toNat 0x02)
    (fun th => th.wg d ((th.rv a).lane ((th.rg b).setWidth 4).toNat)) s)
/-- vins: v[d].(g[b][3:0]) ← g[a]. -/
def execVins (n : Nat) (t : BitVec 3) (d : BitVec 4) (a b : BitVec 5) (pg : BitVec 3) (s : State) : Out :=
  .next (issueGT n t pg (wordG 0x21 d.toNat a.toNat b.toNat pg.toNat 0x03)
    (fun th => th.wv d (Row.ofLanes fun i => if i = ((th.rg b).setWidth 4).toNat then th.rg a else (th.rv d).lane i)) s)

/-! ### Compensated sums, OP 0x22, form V -/

/-- The pair of lane `i` of registers v[r], v[r + 1]. -/
def pairLane (th : Thread) (r : BitVec 4) (i : Nat) : Word × Word := ((th.rv r).lane i, (th.rv (r + 1)).lane i)

/-- A pair result under the mask: a masked lane keeps both registers; events are counted on hi only (R141). -/
def lanesPair (th : Thread) (d : BitVec 4) (pg : BitVec 3) (f : Nat → (Word × Word) × Events) : Thread × Events :=
  let m := th.rp pg
  ((th.wv d (maskLanes m (th.rv d) fun i => (f i).1.1)).wv (d + 1) (maskLanes m (th.rv (d + 1)) fun i => (f i).1.2),
    laneEvents m fun i => (f i).2)

/-- A compensated-sum instruction whose registers that name pairs are `odd` if one of them is odd: an illegal encoding
(R67). -/
def issueCs (n : Nat) (t : BitVec 3) (odd : Bool) (insn : Nat) (f : Thread → Thread × Events) (s : State) : State :=
  if odd then issueIllegal n t insn s else issueV n t insn f s

/-- cs.tsum: twosum(va, vb) (R141). -/
def execCsTsum (n : Nat) (t : BitVec 3) (d : BitVec 4) (a : BitVec 4) (b : BitVec 4) (pg : BitVec 3) (s : State) : Out :=
  .next (issueCs n t (oddReg d) (wordV 0x22 d.toNat a.toNat b.toNat 0 pg.toNat 0x01)
    (fun th => lanesPair th d pg fun i => twoSum ((th.rv a).lane i) ((th.rv b).lane i)) s)
/-- cs.tprod: twoprod(va, vb) (R141). -/
def execCsTprod (n : Nat) (t : BitVec 3) (d : BitVec 4) (a : BitVec 4) (b : BitVec 4) (pg : BitVec 3) (s : State) : Out :=
  .next (issueCs n t (oddReg d) (wordV 0x22 d.toNat a.toNat b.toNat 0 pg.toNat 0x02)
    (fun th => lanesPair th d pg fun i => twoProd ((th.rv a).lane i) ((th.rv b).lane i)) s)
/-- cs.padd: pair add (R141). -/
def execCsPadd (n : Nat) (t : BitVec 3) (d : BitVec 4) (a : BitVec 4) (b : BitVec 4) (pg : BitVec 3) (s : State) : Out :=
  .next (issueCs n t (oddReg d || oddReg a || oddReg b) (wordV 0x22 d.toNat a.toNat b.toNat 0 pg.toNat 0x03)
    (fun th => lanesPair th d pg fun i => csPadd (pairLane th a i) (pairLane th b i)) s)
/-- cs.pmul: pair times lane (R141). -/
def execCsPmul (n : Nat) (t : BitVec 3) (d : BitVec 4) (a : BitVec 4) (b : BitVec 4) (pg : BitVec 3) (s : State) : Out :=
  .next (issueCs n t (oddReg d || oddReg a) (wordV 0x22 d.toNat a.toNat b.toNat 0 pg.toNat 0x04)
    (fun th => lanesPair th d pg fun i => csPmul (pairLane th a i) ((th.rv b).lane i)) s)
/-- cs.norm: pair renormalised (R141). -/
def execCsNorm (n : Nat) (t : BitVec 3) (d : BitVec 4) (a : BitVec 4) (pg : BitVec 3) (s : State) : Out :=
  .next (issueCs n t (oddReg d || oddReg a) (wordV 0x22 d.toNat a.toNat 0 0 pg.toNat 0x05)
    (fun th => lanesPair th d pg fun i => let p := pairLane th a i; twoSum p.1 p.2) s)
/-- cs.round: RNE(hi + lo) (R141). -/
def execCsRound (n : Nat) (t : BitVec 3) (d : BitVec 4) (a : BitVec 4) (pg : BitVec 3) (s : State) : Out :=
  .next (issueCs n t (oddReg a) (wordV 0x22 d.toNat a.toNat 0 0 pg.toNat 0x06)
    (fun th => lanesE th d pg fun i => let p := pairLane th a i; fpAdd p.1 p.2) s)
/-- cs.pred: pair tree sum into lane 0, other lanes +0 (R141). -/
def execCsPred (n : Nat) (t : BitVec 3) (d : BitVec 4) (a : BitVec 4) (s : State) : Out :=
  .next (issueCs n t (oddReg d || oddReg a) (wordV 0x22 d.toNat a.toNat 0 0 0 0x07)
    (fun th => let r := tree4 csPadd 4 ((List.range 16).map (pairLane th a)); let p := nth (0, 0) r.1 0
      ((th.wv d (lane0 p.1)).wv (d + 1) (lane0 p.2), r.2)) s)

/-! ### Special functions, OP 0x23 (R140) -/

/-- sf.exp2: the exact function rounded once, per lane. -/
def execSfExp2 (n : Nat) (t : BitVec 3) (d : BitVec 4) (a : BitVec 4) (pg : BitVec 3) (s : State) : Out :=
  .next (issueV n t (wordV 0x23 d.toNat a.toNat 0 0 pg.toNat 0x01)
    (fun th => lanesE th d pg fun i => specialFn exp2V ((th.rv a).lane i)) s)
/-- sf.log2: the exact function rounded once, per lane. -/
def execSfLog2 (n : Nat) (t : BitVec 3) (d : BitVec 4) (a : BitVec 4) (pg : BitVec 3) (s : State) : Out :=
  .next (issueV n t (wordV 0x23 d.toNat a.toNat 0 0 pg.toNat 0x02)
    (fun th => lanesE th d pg fun i => specialFn log2V ((th.rv a).lane i)) s)
/-- sf.rcp: the exact function rounded once, per lane. -/
def execSfRcp (n : Nat) (t : BitVec 3) (d : BitVec 4) (a : BitVec 4) (pg : BitVec 3) (s : State) : Out :=
  .next (issueV n t (wordV 0x23 d.toNat a.toNat 0 0 pg.toNat 0x03)
    (fun th => lanesE th d pg fun i => specialFn rcpV ((th.rv a).lane i)) s)
/-- sf.rsqrt: the exact function rounded once, per lane. -/
def execSfRsqrt (n : Nat) (t : BitVec 3) (d : BitVec 4) (a : BitVec 4) (pg : BitVec 3) (s : State) : Out :=
  .next (issueV n t (wordV 0x23 d.toNat a.toNat 0 0 pg.toNat 0x04)
    (fun th => lanesE th d pg fun i => specialFn rsqrtV ((th.rv a).lane i)) s)
/-- sf.sin: the exact function rounded once, per lane. -/
def execSfSin (n : Nat) (t : BitVec 3) (d : BitVec 4) (a : BitVec 4) (pg : BitVec 3) (s : State) : Out :=
  .next (issueV n t (wordV 0x23 d.toNat a.toNat 0 0 pg.toNat 0x05)
    (fun th => lanesE th d pg fun i => specialFn (trigV false) ((th.rv a).lane i)) s)
/-- sf.cos: the exact function rounded once, per lane. -/
def execSfCos (n : Nat) (t : BitVec 3) (d : BitVec 4) (a : BitVec 4) (pg : BitVec 3) (s : State) : Out :=
  .next (issueV n t (wordV 0x23 d.toNat a.toNat 0 0 pg.toNat 0x06)
    (fun th => lanesE th d pg fun i => specialFn (trigV true) ((th.rv a).lane i)) s)
/-- sf.erf: the exact function rounded once, per lane. -/
def execSfErf (n : Nat) (t : BitVec 3) (d : BitVec 4) (a : BitVec 4) (pg : BitVec 3) (s : State) : Out :=
  .next (issueV n t (wordV 0x23 d.toNat a.toNat 0 0 pg.toNat 0x07)
    (fun th => lanesE th d pg fun i => specialFn erfV ((th.rv a).lane i)) s)

/-! ### Conversions, OP 0x24 (R134 to R138) -/

/-- The rounding of the j-th converted element of a vcvt: the thread's RMODE bit of VCVT_MODE, and under seeded rounding
the generator word of stream 0 at ec + j (R69, R138). -/
def cvtRnd (c : Core) (n : Nat) (t : BitVec 3) (ec : Word) (j : Nat) : Rnd :=
  if bitOf (c.rd CR.VCVT_MODE) (2 * t.toNat) then
    .seeded (gen (BitVec.ofNat 64 (c.rd CR.ROUND_SEED_LO + 2 ^ 32 * c.rd CR.ROUND_SEED_HI)) (BitVec.ofNat 64 c.secTick)
      n 0 (ec + BitVec.ofNat 32 j)).toNat
  else .rne

/-- The thread's FP8 overflow mode (VCVT_MODE bit 2t + 1). -/
def cvtIeee (c : Core) (t : BitVec 3) : Bool := bitOf (c.rd CR.VCVT_MODE) (2 * t.toNat + 1)

/-- One element converted from an FP32 word. -/
def cvtElem (f : Fmt) (c : Core) (n : Nat) (t : BitVec 3) (ec : Word) (j : Nat) (x : Word) : Nat × Events :=
  roundTo f (cvtRnd c n t ec j) (cvtIeee c t) (fpv x).isNan (fpv x)

/-- A narrowing conversion: `k` elements of `w` bytes from byte `base` of v[d], element j from `src j`. The mask acts on
the 32-bit lanes of the destination; ec advances by k whatever the mask and the mode (R69, log 9). -/
def issueNarrow (n : Nat) (t : BitVec 3) (insn : Nat) (f : Fmt) (d : BitVec 4) (pg : BitVec 3) (w base k : Nat)
    (src : Thread → Nat → Word) (s : State) : State :=
  issue n t insn (fun s1 => s1.updCore n fun c =>
    let th0 := c.thread t.toNat
    let es := (List.range k).map fun j => cvtElem f c n t th0.ec j (src th0 j)
    let old := (th0.rv d).toBytes
    let new := old.take base ++ es.flatMap (fun e => leBytes w e.1) ++ old.drop (base + k * w)
    let on (j : Nat) : Bool := (th0.rp pg).getLsbD ((base + j * w) / 4)
    let ev := Events.sum ((List.range k).map fun j => if on j then (nth (0, Events.zero) es j).2 else Events.zero)
    (c.retire t.toNat fun th =>
      { th.wv d (maskLanes (th.rp pg) (th.rv d) fun i => (Row.ofBytes new).lane i) with
        ec := th.ec + BitVec.ofNat 32 k }).countEvents ev) s

/-- A widening conversion of element 16k + i of va, `w` bytes each, exact (R69). -/
def issueWiden (n : Nat) (t : BitVec 3) (insn : Nat) (f : Fmt) (d a : BitVec 4) (pg : BitVec 3) (w k : Nat) (s : State) :
    State :=
  issueV n t insn (fun th => lanesQ th d pg fun i =>
    (toFp32 true (f.decode (bits (th.rv a).toNat (8 * w * (16 * k + i) + 8 * w - 1) (8 * w * (16 * k + i))))).1) s

/-- vcvt.bf16: bytes 0-31 from va, 32-63 from vb. -/
def execVcvtBf16 (n : Nat) (t : BitVec 3) (d a b : BitVec 4) (pg : BitVec 3) (s : State) : Out :=
  .next (issueNarrow n t (wordV 0x24 d.toNat a.toNat b.toNat 0 pg.toNat 0x01) .bf16 d pg 2 0 32
    (fun th j => if j < 16 then (th.rv a).lane j else (th.rv b).lane (j - 16)) s)
/-- vcvt.f16: bytes 0-31 from va, 32-63 from vb. -/
def execVcvtF16 (n : Nat) (t : BitVec 3) (d a b : BitVec 4) (pg : BitVec 3) (s : State) : Out :=
  .next (issueNarrow n t (wordV 0x24 d.toNat a.toNat b.toNat 0 pg.toNat 0x02) .fp16 d pg 2 0 32
    (fun th j => if j < 16 then (th.rv a).lane j else (th.rv b).lane (j - 16)) s)
/-- vcvt.e4m3: bytes 16k to 16k + 15 of v[d] from va, k = vc[1:0]; other bytes kept. -/
def execVcvtE4m3 (n : Nat) (t : BitVec 3) (d a : BitVec 4) (k : BitVec 2) (pg : BitVec 3) (s : State) : Out :=
  .next (issueNarrow n t (wordV 0x24 d.toNat a.toNat 0 k.toNat pg.toNat 0x03) .e4m3 d pg 1 (16 * k.toNat) 16
    (fun th j => (th.rv a).lane j) s)
/-- vcvt.e5m2: bytes 16k to 16k + 15 of v[d] from va, k = vc[1:0]; other bytes kept. -/
def execVcvtE5m2 (n : Nat) (t : BitVec 3) (d a : BitVec 4) (k : BitVec 2) (pg : BitVec 3) (s : State) : Out :=
  .next (issueNarrow n t (wordV 0x24 d.toNat a.toNat 0 k.toNat pg.toNat 0x04) .e5m2 d pg 1 (16 * k.toNat) 16
    (fun th j => (th.rv a).lane j) s)
/-- vcvt.x.bf16: elements 16k to 16k + 15 of va widened to FP32. -/
def execVcvtXBf16 (n : Nat) (t : BitVec 3) (d a : BitVec 4) (k : BitVec 1) (pg : BitVec 3) (s : State) : Out :=
  .next (issueWiden n t (wordV 0x24 d.toNat a.toNat 0 k.toNat pg.toNat 0x05) .bf16 d a pg 2 k.toNat s)
/-- vcvt.x.f16: elements 16k to 16k + 15 of va widened to FP32. -/
def execVcvtXF16 (n : Nat) (t : BitVec 3) (d a : BitVec 4) (k : BitVec 1) (pg : BitVec 3) (s : State) : Out :=
  .next (issueWiden n t (wordV 0x24 d.toNat a.toNat 0 k.toNat pg.toNat 0x06) .fp16 d a pg 2 k.toNat s)
/-- vcvt.x.e4m3: elements 16k to 16k + 15 of va widened to FP32. -/
def execVcvtXE4m3 (n : Nat) (t : BitVec 3) (d a : BitVec 4) (k : BitVec 2) (pg : BitVec 3) (s : State) : Out :=
  .next (issueWiden n t (wordV 0x24 d.toNat a.toNat 0 k.toNat pg.toNat 0x07) .e4m3 d a pg 1 k.toNat s)
/-- vcvt.x.e5m2: elements 16k to 16k + 15 of va widened to FP32. -/
def execVcvtXE5m2 (n : Nat) (t : BitVec 3) (d a : BitVec 4) (k : BitVec 2) (pg : BitVec 3) (s : State) : Out :=
  .next (issueWiden n t (wordV 0x24 d.toNat a.toNat 0 k.toNat pg.toNat 0x08) .e5m2 d a pg 1 k.toNat s)
/-- vcvt.f.i32: FP32 of the INT32 lane, nearest even. -/
def execVcvtFI32 (n : Nat) (t : BitVec 3) (d : BitVec 4) (a : BitVec 4) (pg : BitVec 3) (s : State) : Out :=
  .next (issueV n t (wordV 0x24 d.toNat a.toNat 0 0 pg.toNat 0x09)
    (fun th => lanesE th d pg fun i => toFp32 false (FV.ofInt ((th.rv a).lane i).toInt 0)) s)
/-- vcvt.i32.f: INT32 of the lane, nearest even, saturating; NaN gives 0. -/
def execVcvtI32F (n : Nat) (t : BitVec 3) (d : BitVec 4) (a : BitVec 4) (pg : BitVec 3) (s : State) : Out :=
  .next (issueV n t (wordV 0x24 d.toNat a.toNat 0 0 pg.toNat 0x0A)
    (fun th => lanesE th d pg fun i => let r := toI32 (fpv ((th.rv a).lane i)); (BitVec.ofNat 32 r.1, r.2)) s)

/-! ### Random words, OP 0x2F (R137, R138) -/

/-- The generator word of a stream for element `e` at this core. -/
def Core.genWord (c : Core) (n stream : Nat) (e : Word) : Word :=
  Machine.gen (BitVec.ofNat 64 (c.rd CR.ROUND_SEED_LO + 2 ^ 32 * c.rd CR.ROUND_SEED_HI)) (BitVec.ofNat 64 c.secTick) n stream e

/-- rnd.ec: ec ← g[a]. -/
def execRndEc (n : Nat) (t : BitVec 3) (a : BitVec 5) (pg : BitVec 3) (s : State) : Out :=
  .next (issueGT n t pg (wordG 0x2F 0 a.toNat 0 pg.toNat 0x01) (fun th => { th with ec := th.rg a }) s)

/-- rnd.u32: g[d] ← the word of stream b at ec; ec ← ec + 1; b = 0 is illegal. -/
def execRndU32 (n : Nat) (t : BitVec 3) (d b : BitVec 5) (pg : BitVec 3) (s : State) : Out :=
  let w := wordG 0x2F d.toNat 0 b.toNat pg.toNat 0x02
  .next (if b = 0 then issueIllegal n t w s
    else issueG n t pg w (fun s1 => s1.updCore n fun c => c.retire t.toNat fun th =>
      { th.wg d (c.genWord n b.toNat th.ec) with ec := th.ec + 1 }) s)

/-- vrnd: v[d].i ← the word of stream b at ec + i; ec ← ec + 16; b = 0 is illegal. -/
def execVrnd (n : Nat) (t : BitVec 3) (d : BitVec 4) (b : BitVec 5) (pg : BitVec 3) (s : State) : Out :=
  let w := wordG 0x2F d.toNat 0 b.toNat pg.toNat 0x03
  .next (if b = 0 then issueIllegal n t w s
    else issueG n t pg w (fun s1 => s1.updCore n fun c => c.retire t.toNat fun th =>
      { th.wv d (Row.ofLanes fun i => c.genWord n b.toNat (th.ec + BitVec.ofNat 32 i)) with ec := th.ec + 16 }) s)

end Sys2Proof.Machine
end

