-- ==== Sys2Proof/Machine/Dispatch.lean ====
section
/-!
DEFINITION. The meaning of each command.
-/
namespace Sys2Proof.Machine

/-- A command's effect on everything but the queue. -/
def exec (i : Instr) (s : State) : Host.Outcome State Fault Refusal :=
  match i with
  | .registerWrite who id addr v => Sys2Proof.Machine.execRegisterWrite who id addr v s
  | .rcRegisterRead who id addr => Sys2Proof.Machine.execRcRegisterRead who id addr s
  | .contextSlotWrite who id n k off v => Sys2Proof.Machine.execContextSlotWrite who id n k off v s
  | .load => Sys2Proof.Machine.execLoad s
  | .start => Sys2Proof.Machine.execStart s
  | .preempt => Sys2Proof.Machine.execPreempt s
  | .planBaseWrite hi v => Sys2Proof.Machine.execPlanBaseWrite hi v s
  | .planCheckDone => Sys2Proof.Machine.execPlanCheckDone s
  | .sectionStart n => Sys2Proof.Machine.execSectionStart n s
  | .sectionClose n => Sys2Proof.Machine.execSectionClose n s
  | .epochTimeout n => Sys2Proof.Machine.execEpochTimeout n s
  | .contextLoadReply n port => Sys2Proof.Machine.execContextLoadReply n port s
  | .ryudonTick h j => Sys2Proof.Machine.execRyudonTick h j s
  | .localTickTimer => Sys2Proof.Machine.execLocalTickTimer s
  | .groupTickTimer => Sys2Proof.Machine.execGroupTickTimer s
  | .regionTick r => Sys2Proof.Machine.execRegionTick r s
  | .coreTick n => Sys2Proof.Machine.execCoreTick n s
  | .coreDone n => Sys2Proof.Machine.execCoreDone n s
  | .regionDone r => Sys2Proof.Machine.execRegionDone r s
  | .tickWatchdogExpiry => Sys2Proof.Machine.execTickWatchdogExpiry s
  | .sectionAbort => Sys2Proof.Machine.execSectionAbort s
  | .regionSectionAbort r => Sys2Proof.Machine.execRegionSectionAbort r s
  | .coreSectionAbort n => Sys2Proof.Machine.execCoreSectionAbort n s
  | .abortAppliedReport r => Sys2Proof.Machine.execAbortAppliedReport r s
  | .tokenArrival n port => Sys2Proof.Machine.execTokenArrival n port s
  | .tokenLanding n port => Sys2Proof.Machine.execTokenLanding n port s
  | .combiningContribution n port => Sys2Proof.Machine.execCombiningContribution n port s
  | .signalArrival n port => Sys2Proof.Machine.execSignalArrival n port s
  | .illegalInsn n t w => Sys2Proof.Machine.execIllegalInsn n t w s
  | .add n t d a b pg => Sys2Proof.Machine.execAdd n t d a b pg s
  | .sub n t d a b pg => Sys2Proof.Machine.execSub n t d a b pg s
  | .and n t d a b pg => Sys2Proof.Machine.execAnd n t d a b pg s
  | .or n t d a b pg => Sys2Proof.Machine.execOr n t d a b pg s
  | .xor n t d a b pg => Sys2Proof.Machine.execXor n t d a b pg s
  | .sll n t d a b pg => Sys2Proof.Machine.execSll n t d a b pg s
  | .srl n t d a b pg => Sys2Proof.Machine.execSrl n t d a b pg s
  | .sra n t d a b pg => Sys2Proof.Machine.execSra n t d a b pg s
  | .slt n t d a b pg => Sys2Proof.Machine.execSlt n t d a b pg s
  | .sltu n t d a b pg => Sys2Proof.Machine.execSltu n t d a b pg s
  | .mul n t d a b pg => Sys2Proof.Machine.execMul n t d a b pg s
  | .mulh n t d a b pg => Sys2Proof.Machine.execMulh n t d a b pg s
  | .mulhu n t d a b pg => Sys2Proof.Machine.execMulhu n t d a b pg s
  | .min n t d a b pg => Sys2Proof.Machine.execMin n t d a b pg s
  | .max n t d a b pg => Sys2Proof.Machine.execMax n t d a b pg s
  | .minu n t d a b pg => Sys2Proof.Machine.execMinu n t d a b pg s
  | .maxu n t d a b pg => Sys2Proof.Machine.execMaxu n t d a b pg s
  | .clz n t d a pg => Sys2Proof.Machine.execClz n t d a pg s
  | .popc n t d a pg => Sys2Proof.Machine.execPopc n t d a pg s
  | .slli n t d a b pg => Sys2Proof.Machine.execSlli n t d a b pg s
  | .srli n t d a b pg => Sys2Proof.Machine.execSrli n t d a b pg s
  | .srai n t d a b pg => Sys2Proof.Machine.execSrai n t d a b pg s
  | .addi n t d a imm => Sys2Proof.Machine.execAddi n t d a imm s
  | .andi n t d a imm => Sys2Proof.Machine.execAndi n t d a imm s
  | .ori n t d a imm => Sys2Proof.Machine.execOri n t d a imm s
  | .xori n t d a imm => Sys2Proof.Machine.execXori n t d a imm s
  | .slti n t d a imm => Sys2Proof.Machine.execSlti n t d a imm s
  | .sltiu n t d a imm => Sys2Proof.Machine.execSltiu n t d a imm s
  | .lui n t d imm => Sys2Proof.Machine.execLui n t d imm s
  | .br n t p sv off => Sys2Proof.Machine.execBr n t p sv off s
  | .jal n t d off => Sys2Proof.Machine.execJal n t d off s
  | .jalr n t d a imm => Sys2Proof.Machine.execJalr n t d a imm s
  | .thrEnd n t pg => Sys2Proof.Machine.execThrEnd n t pg s
  | .fence n t pg => Sys2Proof.Machine.execFence n t pg s
  | .thrId n t d pg => Sys2Proof.Machine.execThrId n t d pg s
  | .dbgBrk n t pg => Sys2Proof.Machine.execDbgBrk n t pg s
  | .cmpEq n t d a b pg => Sys2Proof.Machine.execCmpEq n t d a b pg s
  | .cmpNe n t d a b pg => Sys2Proof.Machine.execCmpNe n t d a b pg s
  | .cmpLt n t d a b pg => Sys2Proof.Machine.execCmpLt n t d a b pg s
  | .cmpGe n t d a b pg => Sys2Proof.Machine.execCmpGe n t d a b pg s
  | .cmpLtu n t d a b pg => Sys2Proof.Machine.execCmpLtu n t d a b pg s
  | .cmpGeu n t d a b pg => Sys2Proof.Machine.execCmpGeu n t d a b pg s
  | .pAnd n t d a b pg => Sys2Proof.Machine.execPAnd n t d a b pg s
  | .pOr n t d a b pg => Sys2Proof.Machine.execPOr n t d a b pg s
  | .pXor n t d a b pg => Sys2Proof.Machine.execPXor n t d a b pg s
  | .pAndn n t d a b pg => Sys2Proof.Machine.execPAndn n t d a b pg s
  | .pSetg n t d a pg => Sys2Proof.Machine.execPSetg n t d a pg s
  | .pGetg n t d a pg => Sys2Proof.Machine.execPGetg n t d a pg s
  | .pAny n t d a pg => Sys2Proof.Machine.execPAny n t d a pg s
  | .pAll n t d a pg => Sys2Proof.Machine.execPAll n t d a pg s
  | .ldB n t d a imm => Sys2Proof.Machine.execLdB n t d a imm s
  | .ldBu n t d a imm => Sys2Proof.Machine.execLdBu n t d a imm s
  | .ldH n t d a imm => Sys2Proof.Machine.execLdH n t d a imm s
  | .ldHu n t d a imm => Sys2Proof.Machine.execLdHu n t d a imm s
  | .ldW n t d a imm => Sys2Proof.Machine.execLdW n t d a imm s
  | .ldD n t d a imm => Sys2Proof.Machine.execLdD n t d a imm s
  | .stB n t d a imm => Sys2Proof.Machine.execStB n t d a imm s
  | .stH n t d a imm => Sys2Proof.Machine.execStH n t d a imm s
  | .stW n t d a imm => Sys2Proof.Machine.execStW n t d a imm s
  | .stD n t d a imm => Sys2Proof.Machine.execStD n t d a imm s
  | .fldW n t d a imm => Sys2Proof.Machine.execFldW n t d a imm s
  | .fldD n t d a imm => Sys2Proof.Machine.execFldD n t d a imm s
  | .fstW n t d a imm => Sys2Proof.Machine.execFstW n t d a imm s
  | .fstD n t d a imm => Sys2Proof.Machine.execFstD n t d a imm s
  | .vld n t d a imm => Sys2Proof.Machine.execVld n t d a imm s
  | .vst n t d a imm => Sys2Proof.Machine.execVst n t d a imm s
  | .vadd n t d a b pg => Sys2Proof.Machine.execVadd n t d a b pg s
  | .vsub n t d a b pg => Sys2Proof.Machine.execVsub n t d a b pg s
  | .vmul n t d a b pg => Sys2Proof.Machine.execVmul n t d a b pg s
  | .vfma n t d a b c pg => Sys2Proof.Machine.execVfma n t d a b c pg s
  | .vmax n t d a b pg => Sys2Proof.Machine.execVmax n t d a b pg s
  | .vmin n t d a b pg => Sys2Proof.Machine.execVmin n t d a b pg s
  | .vabs n t d a pg => Sys2Proof.Machine.execVabs n t d a pg s
  | .vneg n t d a pg => Sys2Proof.Machine.execVneg n t d a pg s
  | .vcmpLt n t d a b pg => Sys2Proof.Machine.execVcmpLt n t d a b pg s
  | .vcmpLe n t d a b pg => Sys2Proof.Machine.execVcmpLe n t d a b pg s
  | .vcmpEq n t d a b pg => Sys2Proof.Machine.execVcmpEq n t d a b pg s
  | .vsel n t d a b c pg => Sys2Proof.Machine.execVsel n t d a b c pg s
  | .vredAdd n t d a => Sys2Proof.Machine.execVredAdd n t d a s
  | .vredMax n t d a => Sys2Proof.Machine.execVredMax n t d a s
  | .vand n t d a b pg => Sys2Proof.Machine.execVand n t d a b pg s
  | .vor n t d a b pg => Sys2Proof.Machine.execVor n t d a b pg s
  | .vxor n t d a b pg => Sys2Proof.Machine.execVxor n t d a b pg s
  | .viadd n t d a b pg => Sys2Proof.Machine.execViadd n t d a b pg s
  | .vperm n t d a b => Sys2Proof.Machine.execVperm n t d a b s
  | .vmov n t d a pg => Sys2Proof.Machine.execVmov n t d a pg s
  | .vbcast n t d a pg => Sys2Proof.Machine.execVbcast n t d a pg s
  | .vext n t d a b pg => Sys2Proof.Machine.execVext n t d a b pg s
  | .vins n t d a b pg => Sys2Proof.Machine.execVins n t d a b pg s
  | .csTsum n t d a b pg => Sys2Proof.Machine.execCsTsum n t d a b pg s
  | .csTprod n t d a b pg => Sys2Proof.Machine.execCsTprod n t d a b pg s
  | .csPadd n t d a b pg => Sys2Proof.Machine.execCsPadd n t d a b pg s
  | .csPmul n t d a b pg => Sys2Proof.Machine.execCsPmul n t d a b pg s
  | .csNorm n t d a pg => Sys2Proof.Machine.execCsNorm n t d a pg s
  | .csRound n t d a pg => Sys2Proof.Machine.execCsRound n t d a pg s
  | .csPred n t d a => Sys2Proof.Machine.execCsPred n t d a s
  | .sfExp2 n t d a pg => Sys2Proof.Machine.execSfExp2 n t d a pg s
  | .sfLog2 n t d a pg => Sys2Proof.Machine.execSfLog2 n t d a pg s
  | .sfRcp n t d a pg => Sys2Proof.Machine.execSfRcp n t d a pg s
  | .sfRsqrt n t d a pg => Sys2Proof.Machine.execSfRsqrt n t d a pg s
  | .sfSin n t d a pg => Sys2Proof.Machine.execSfSin n t d a pg s
  | .sfCos n t d a pg => Sys2Proof.Machine.execSfCos n t d a pg s
  | .sfErf n t d a pg => Sys2Proof.Machine.execSfErf n t d a pg s
  | .vcvtBf16 n t d a b pg => Sys2Proof.Machine.execVcvtBf16 n t d a b pg s
  | .vcvtF16 n t d a b pg => Sys2Proof.Machine.execVcvtF16 n t d a b pg s
  | .vcvtE4m3 n t d a k pg => Sys2Proof.Machine.execVcvtE4m3 n t d a k pg s
  | .vcvtE5m2 n t d a k pg => Sys2Proof.Machine.execVcvtE5m2 n t d a k pg s
  | .vcvtXBf16 n t d a k pg => Sys2Proof.Machine.execVcvtXBf16 n t d a k pg s
  | .vcvtXF16 n t d a k pg => Sys2Proof.Machine.execVcvtXF16 n t d a k pg s
  | .vcvtXE4m3 n t d a k pg => Sys2Proof.Machine.execVcvtXE4m3 n t d a k pg s
  | .vcvtXE5m2 n t d a k pg => Sys2Proof.Machine.execVcvtXE5m2 n t d a k pg s
  | .vcvtFI32 n t d a pg => Sys2Proof.Machine.execVcvtFI32 n t d a pg s
  | .vcvtI32F n t d a pg => Sys2Proof.Machine.execVcvtI32F n t d a pg s
  | .mxRun n t a pg => Sys2Proof.Machine.execMxRun n t a pg s
  | .mxOut n t a pg => Sys2Proof.Machine.execMxOut n t a pg s
  | .mxClr n t pg => Sys2Proof.Machine.execMxClr n t pg s
  | .mxCfg n t a pg => Sys2Proof.Machine.execMxCfg n t a pg s
  | .mxWait n t pg => Sys2Proof.Machine.execMxWait n t pg s
  | .mxStat n t d pg => Sys2Proof.Machine.execMxStat n t d pg s
  | .czCfg n t a pg => Sys2Proof.Machine.execCzCfg n t a pg s
  | .czFlush n t pg => Sys2Proof.Machine.execCzFlush n t pg s
  | .czHist n t a pg => Sys2Proof.Machine.execCzHist n t a pg s
  | .czStat n t d pg => Sys2Proof.Machine.execCzStat n t d pg s
  | .rndEc n t a pg => Sys2Proof.Machine.execRndEc n t a pg s
  | .rndU32 n t d b pg => Sys2Proof.Machine.execRndU32 n t d b pg s
  | .vrnd n t d b pg => Sys2Proof.Machine.execVrnd n t d b pg s
  | .chSend n t d a pg => Sys2Proof.Machine.execChSend n t d a pg s
  | .chSendg n t d a pg => Sys2Proof.Machine.execChSendg n t d a pg s
  | .chRecv n t d b pg => Sys2Proof.Machine.execChRecv n t d b pg s
  | .chRecvg n t d b pg => Sys2Proof.Machine.execChRecvg n t d b pg s
  | .chClose n t b pg => Sys2Proof.Machine.execChClose n t b pg s
  | .chCount n t d b pg => Sys2Proof.Machine.execChCount n t d b pg s
  | .bzOpen n t d a b pg => Sys2Proof.Machine.execBzOpen n t d a b pg s
  | .bzClose n t d pg => Sys2Proof.Machine.execBzClose n t d pg s
  | .bzClosea n t d a pg => Sys2Proof.Machine.execBzClosea n t d a pg s
  | .bzPut n t d a b pg => Sys2Proof.Machine.execBzPut n t d a b pg s
  | .bzCount n t d a pg => Sys2Proof.Machine.execBzCount n t d a pg s
  | .sigT n t d pg => Sys2Proof.Machine.execSigT n t d pg s
  | .sigWait n t pg => Sys2Proof.Machine.execSigWait n t pg s
  | .sigCnt n t d a pg => Sys2Proof.Machine.execSigCnt n t d a pg s
  | .sigTest n t d pg => Sys2Proof.Machine.execSigTest n t d pg s
  | .clArr n t d pg => Sys2Proof.Machine.execClArr n t d pg s
  | .clWait n t d pg => Sys2Proof.Machine.execClWait n t d pg s
  | .clTest n t d a pg => Sys2Proof.Machine.execClTest n t d a pg s
  | .dmaPost n t d a pg => Sys2Proof.Machine.execDmaPost n t d a pg s
  | .dmaWait n t a pg => Sys2Proof.Machine.execDmaWait n t a pg s
  | .dmaTest n t d a pg => Sys2Proof.Machine.execDmaTest n t d a pg s
  | .csrR n t d imm => Sys2Proof.Machine.execCsrR n t d imm s
  | .csrW n t d a imm => Sys2Proof.Machine.execCsrW n t d a imm s
  | .csrS n t d a imm => Sys2Proof.Machine.execCsrS n t d a imm s
  | .csrC n t d a imm => Sys2Proof.Machine.execCsrC n t d a imm s
  | .hmFoldWrite n t v => Sys2Proof.Machine.execHmFoldWrite n t v s
  | .engineRunCmd n => Sys2Proof.Machine.execEngineRunCmd n s
  | .engineOutCmd n => Sys2Proof.Machine.execEngineOutCmd n s
  | .engineClrCmd n => Sys2Proof.Machine.execEngineClrCmd n s
  | .engineCfgCmd n => Sys2Proof.Machine.execEngineCfgCmd n s
  | .czCfgCmd n => Sys2Proof.Machine.execCzCfgCmd n s
  | .czFlushCmd n => Sys2Proof.Machine.execCzFlushCmd n s
  | .czHistCmd n => Sys2Proof.Machine.execCzHistCmd n s
  | .scratchpadScrub n => Sys2Proof.Machine.execScratchpadScrub n s
  | .eccWriteback n => Sys2Proof.Machine.execEccWriteback n s
  | .bezelNotice n d => Sys2Proof.Machine.execBezelNotice n d s
  | .bezelNoticeAck n d => Sys2Proof.Machine.execBezelNoticeAck n d s
  | .bezelWrite n => Sys2Proof.Machine.execBezelWrite n s
  | .bezelRejection n d => Sys2Proof.Machine.execBezelRejection n d s
  | .meshBlockReceive hub n k err bad => Sys2Proof.Machine.execMeshBlockReceive hub n k err bad s
  | .meshReplayTimeout hub n k bad => Sys2Proof.Machine.execMeshReplayTimeout hub n k bad s
  | .blockForward n out => Sys2Proof.Machine.execBlockForward n out s
  | .progressWatchdog n port => Sys2Proof.Machine.execProgressWatchdog n port s
  | .boostEpoch => Sys2Proof.Machine.execBoostEpoch s
  | .boostMessage r => Sys2Proof.Machine.execBoostMessage r s
  | .claspArrive n d => Sys2Proof.Machine.execClaspArrive n d s
  | .claspRelease n d => Sys2Proof.Machine.execClaspRelease n d s
  | .claspLeaseExpiry n k => Sys2Proof.Machine.execClaspLeaseExpiry n k s
  | .jobLoad write => Sys2Proof.Machine.execJobLoad write s
  | .jobUnload write => Sys2Proof.Machine.execJobUnload write s
  | .reduceStart h k => Sys2Proof.Machine.execReduceStart h k s
  | .reduceContribRead slot b => Sys2Proof.Machine.execReduceContribRead slot b s
  | .expRecord h j => Sys2Proof.Machine.execExpRecord h j s
  | .expmaxRecord h j => Sys2Proof.Machine.execExpmaxRecord h j s
  | .dataRecord h j => Sys2Proof.Machine.execDataRecord h j s
  | .thinRecord h j => Sys2Proof.Machine.execThinRecord h j s
  | .gatherRecord h j => Sys2Proof.Machine.execGatherRecord h j s
  | .checkReturn h k => Sys2Proof.Machine.execCheckReturn h k s
  | .reduceLeaseExpiry slot => Sys2Proof.Machine.execReduceLeaseExpiry slot s
  | .memoryRequest h k => Sys2Proof.Machine.execMemoryRequest h k s
  | .pageWalk h j => Sys2Proof.Machine.execPageWalk h j s
  | .demandMapDone j => Sys2Proof.Machine.execDemandMapDone j s
  | .resolveRetry => Sys2Proof.Machine.execResolveRetry s
  | .resolveDeny => Sys2Proof.Machine.execResolveDeny s
  | .invalidate => Sys2Proof.Machine.execInvalidate s
  | .invalidateDone => Sys2Proof.Machine.execInvalidateDone s
  | .hbmRead h j => Sys2Proof.Machine.execHbmRead h j s
  | .hbmWrite h j => Sys2Proof.Machine.execHbmWrite h j s
  | .farReply n port => Sys2Proof.Machine.execFarReply n port s
  | .farStoreAck n port => Sys2Proof.Machine.execFarStoreAck n port s
  | .dmaDescriptorStart n => Sys2Proof.Machine.execDmaDescriptorStart n s
  | .dmaRowIssue n => Sys2Proof.Machine.execDmaRowIssue n s
  | .dmaLoadReply n port => Sys2Proof.Machine.execDmaLoadReply n port s
  | .dmaStoreAck n port => Sys2Proof.Machine.execDmaStoreAck n port s
  | .fillCopyDone n => Sys2Proof.Machine.execFillCopyDone n s
  | .patrolScrub h j => Sys2Proof.Machine.execPatrolScrub h j s
  | .hbmRefresh h j => Sys2Proof.Machine.execHbmRefresh h j s
  | .refreshManagement h j bank => Sys2Proof.Machine.execRefreshManagement h j bank s
  | .retrainTimer h j c => Sys2Proof.Machine.execRetrainTimer h j c s
  | .retrainDone h j ok => Sys2Proof.Machine.execRetrainDone h j ok s
  | .ryudonData p ce b => Sys2Proof.Machine.execRyudonData p ce b s
  | .ryudonAck p ce b => Sys2Proof.Machine.execRyudonAck p ce b s
  | .ryudonNak p ce b => Sys2Proof.Machine.execRyudonNak p ce b s
  | .retransmitTimeout h node flow seq => Sys2Proof.Machine.execRetransmitTimeout h node flow seq s
  | .ackDelayExpiry h node flow => Sys2Proof.Machine.execAckDelayExpiry h node flow s
  | .rateRaise h => Sys2Proof.Machine.execRateRaise h s
  | .flowContextIdle h sending node flow => Sys2Proof.Machine.execFlowContextIdle h sending node flow s
  | .tickReport h j => Sys2Proof.Machine.execTickReport h j s
  | .missingReportExpiry member tick => Sys2Proof.Machine.execMissingReportExpiry member tick s
  | .reportWindowExpiry => Sys2Proof.Machine.execReportWindowExpiry s
  | .mgmt h j => Sys2Proof.Machine.execMgmt h j s
  | .mgmtRingWaitExpiry h j => Sys2Proof.Machine.execMgmtRingWaitExpiry h j s
  | .dataWrite h j => Sys2Proof.Machine.execDataWrite h j s
  | .dataReadReq h j => Sys2Proof.Machine.execDataReadReq h j s
  | .dataReadResp h j => Sys2Proof.Machine.execDataReadResp h j s
  | .dataSend h j => Sys2Proof.Machine.execDataSend h j s
  | .dataRespErr h j => Sys2Proof.Machine.execDataRespErr h j s
  | .dataDone h j => Sys2Proof.Machine.execDataDone h j s
  | .dataNotify h j => Sys2Proof.Machine.execDataNotify h j s
  | .roceSend p q psn op hasImm imm ce b => Sys2Proof.Machine.execRoceSend p q psn op hasImm imm ce b s
  | .roceRdmaWrite p q psn op hasImm imm ce va rkey len b => Sys2Proof.Machine.execRoceRdmaWrite p q psn op hasImm imm ce va rkey len b s
  | .roceRdmaRead p q psn ce va rkey len => Sys2Proof.Machine.execRoceRdmaRead p q psn ce va rkey len s
  | .roceCnp p q => Sys2Proof.Machine.execRoceCnp p q s
  | .ringEndpointToken h k => Sys2Proof.Machine.execRingEndpointToken h k s
  | .arpRequest p mac sender target => Sys2Proof.Machine.execArpRequest p mac sender target s
  | .neighborSolicitation p mac sender target => Sys2Proof.Machine.execNeighborSolicitation p mac sender target s
  | .frameDiscard frame => Sys2Proof.Machine.execFrameDiscard frame s
  | .linkTrainingDone p ok lanes => Sys2Proof.Machine.execLinkTrainingDone p ok lanes s
  | .linkDown p => Sys2Proof.Machine.execLinkDown p s
  | .cablePresentChange c present => Sys2Proof.Machine.execCablePresentChange c present s
  | .refSourceReqWrite req port => Sys2Proof.Machine.execRefSourceReqWrite req port s
  | .refSettleExpiry => Sys2Proof.Machine.execRefSettleExpiry s
  | .sourceChangeStep => Sys2Proof.Machine.execSourceChangeStep s
  | .dividerUpdate => Sys2Proof.Machine.execDividerUpdate s
  | .domainOn host id d => Sys2Proof.Machine.execDomainOn host id d s
  | .domainOff host id d => Sys2Proof.Machine.execDomainOff host id d s
  | .domainRampDone d => Sys2Proof.Machine.execDomainRampDone d s
  | .domainRegulationTimeout d => Sys2Proof.Machine.execDomainRegulationTimeout d s
  | .railSample rails pin => Sys2Proof.Machine.execRailSample rails pin s
  | .powerCapWrite v => Sys2Proof.Machine.execPowerCapWrite v s
  | .capSlewUpdate => Sys2Proof.Machine.execCapSlewUpdate s
  | .fillerUpdate r => Sys2Proof.Machine.execFillerUpdate r s
  | .fillerDuty n => Sys2Proof.Machine.execFillerDuty n s
  | .sensorSample u ts => Sys2Proof.Machine.execSensorSample u ts s
  | .thermalStep r => Sys2Proof.Machine.execThermalStep r s
  | .eclipseWrite hi v => Sys2Proof.Machine.execEclipseWrite hi v s
  | .eclipseApply r => Sys2Proof.Machine.execEclipseApply r s
  | .stagePower ok pll => Sys2Proof.Machine.execStagePower ok pll s
  | .stageImage readOk => Sys2Proof.Machine.execStageImage readOk s
  | .stageHubs fail h => Sys2Proof.Machine.execStageHubs fail h s
  | .stageRegions fail dead => Sys2Proof.Machine.execStageRegions fail dead s
  | .stageNeighbour silent verdicts => Sys2Proof.Machine.execStageNeighbour silent verdicts s
  | .stageDefects saved => Sys2Proof.Machine.execStageDefects saved s
  | .stageTrain fail stack channel => Sys2Proof.Machine.execStageTrain fail stack channel s
  | .helloTimer p => Sys2Proof.Machine.execHelloTimer p s
  | .hello p b => Sys2Proof.Machine.execHello p b s
  | .helloAck p b => Sys2Proof.Machine.execHelloAck p b s
  | .topoExpectWrite off v => Sys2Proof.Machine.execTopoExpectWrite off v s
  | .bootScan => Sys2Proof.Machine.execBootScan s
  | .resetCoreCmd cause id n => Sys2Proof.Machine.execResetCoreCmd cause id n s
  | .resetRegionCmd cause id r => Sys2Proof.Machine.execResetRegionCmd cause id r s
  | .resetHubCmd cause id h => Sys2Proof.Machine.execResetHubCmd cause id h s
  | .resetModuleCmd cause id => Sys2Proof.Machine.execResetModuleCmd cause id s
  | .resetRelease region index => Sys2Proof.Machine.execResetRelease region index s
  | .srRead own r l off => Sys2Proof.Machine.execSrRead own r l off s
  | .srWrite own r l off v => Sys2Proof.Machine.execSrWrite own r l off v s
  | .srStop own r l ack => Sys2Proof.Machine.execSrStop own r l ack s
  | .srFlush own r l => Sys2Proof.Machine.execSrFlush own r l s
  | .srResetCore own r l => Sys2Proof.Machine.execSrResetCore own r l s
  | .srGate own r l => Sys2Proof.Machine.execSrGate own r l s
  | .srLiveness own r l => Sys2Proof.Machine.execSrLiveness own r l s
  | .livenessAdvance n => Sys2Proof.Machine.execLivenessAdvance n s
  | .livenessSweep sweep => Sys2Proof.Machine.execLivenessSweep sweep s
  | .stopAckTimeout r => Sys2Proof.Machine.execStopAckTimeout r s
  | .regionHeartbeat r => Sys2Proof.Machine.execRegionHeartbeat r s
  | .heartbeatTimeout r => Sys2Proof.Machine.execHeartbeatTimeout r s
  | .modWdogPet => Sys2Proof.Machine.execModWdogPet s
  | .mpWatchdogExpiry => Sys2Proof.Machine.execMpWatchdogExpiry s
  | .fmStatus h j => Sys2Proof.Machine.execFmStatus h j s
  | .fmResetReport h j => Sys2Proof.Machine.execFmResetReport h j s
  | .fmDefect h j => Sys2Proof.Machine.execFmDefect h j s
  | .peerReset h j => Sys2Proof.Machine.execPeerReset h j s
  | .memberLost h j => Sys2Proof.Machine.execMemberLost h j s
  | .setMaster h j => Sys2Proof.Machine.execSetMaster h j s
  | .fmCommandRecord => Sys2Proof.Machine.execFmCommandRecord s
  | .recoveryWrite mac src b busy => Sys2Proof.Machine.execRecoveryWrite mac src b busy s
  | .recoveryCommit mac src b busy readOk => Sys2Proof.Machine.execRecoveryCommit mac src b busy readOk s
  | .recoveryStatus mac src port b => Sys2Proof.Machine.execRecoveryStatus mac src port b s
  | .fwUpdate => Sys2Proof.Machine.execFwUpdate s
  | .ucalUpdate => Sys2Proof.Machine.execUcalUpdate s
  | .rollbackCommit => Sys2Proof.Machine.execRollbackCommit s
  | .bootcfgUpdate => Sys2Proof.Machine.execBootcfgUpdate s
  | .updateWriteDone ok => Sys2Proof.Machine.execUpdateWriteDone ok s
  | .attestationRequest => Sys2Proof.Machine.execAttestationRequest s
  | .attestationWritten => Sys2Proof.Machine.execAttestationWritten s
  | .dbgChallenge => Sys2Proof.Machine.execDbgChallenge s
  | .dbgSubmit => Sys2Proof.Machine.execDbgSubmit s
  | .dbgClose => Sys2Proof.Machine.execDbgClose s
  | .jtagDbgAuth b => Sys2Proof.Machine.execJtagDbgAuth b s
  | .jtagInstruction j => Sys2Proof.Machine.execJtagInstruction j s
  | .islandUp => Sys2Proof.Machine.execIslandUp s
  | .inrushStart => Sys2Proof.Machine.execInrushStart s
  | .powerGood => Sys2Proof.Machine.execPowerGood s
  | .inputSample mv ma => Sys2Proof.Machine.execInputSample mv ma s
  | .powerFailHoldEnd => Sys2Proof.Machine.execPowerFailHoldEnd s
  | .contactSample ts => Sys2Proof.Machine.execContactSample ts s
  | .coolantSample inlet outlet => Sys2Proof.Machine.execCoolantSample inlet outlet s
  | .refLoss => Sys2Proof.Machine.execRefLoss s
  | .refReturn long => Sys2Proof.Machine.execRefReturn long s
  | .readDev tag addr len => Sys2Proof.Machine.execReadDev tag addr len s
  | .writeDev tag addr b => Sys2Proof.Machine.execWriteDev tag addr b s
  | .readLog tag seq => Sys2Proof.Machine.execReadLog tag seq s
  | .dbgPut tag off b => Sys2Proof.Machine.execDbgPut tag off b s
  | .getFm tag typ => Sys2Proof.Machine.execGetFm tag typ s
  | .mctpControl b => Sys2Proof.Machine.execMctpControl b s
  | .smbusAlertResponse => Sys2Proof.Machine.execSmbusAlertResponse s
  | .coreWatchdogExpiry n => Sys2Proof.Machine.execCoreWatchdogExpiry n s
  | .loadComplete => Sys2Proof.Machine.execLoadComplete s
  | .scanComplete silent verdicts saved => Sys2Proof.Machine.execScanComplete silent verdicts saved s
  | .jobCheckDone => Sys2Proof.Machine.execJobCheckDone s
  | .dbgCheckDone => Sys2Proof.Machine.execDbgCheckDone s
  | .rollbackCommitDone => Sys2Proof.Machine.execRollbackCommitDone s
  | .shareBalanceGain => Sys2Proof.Machine.execShareBalanceGain s
  | .regionControllerReply r => Sys2Proof.Machine.execRegionControllerReply r s
  | .roceNoticeResponse q ack => Sys2Proof.Machine.execRoceNoticeResponse q ack s
  | .noticeRetryExpiry q => Sys2Proof.Machine.execNoticeRetryExpiry q s
  | .mpDebugPortInput b => Sys2Proof.Machine.execMpDebugPortInput b s

end Sys2Proof.Machine
end

