-- ==== Sys2Proof/Machine/Step.lean ====
section
/-!
DEFINITION. One step: the command at the front of the queue, or a CCLK that passes while none waits.
-/
namespace Sys2Proof.Machine

/-- The commands that wait, without the first. -/
def State.popped (s : State) (rest : List Instr) : State := { s with pending := rest }

/-- One step of the machine (log 1, log 2). -/
def step (s : State) : Host.Outcome State Fault Refusal :=
  match s.pending with
  | [] => .next s.clock
  | c :: rest => exec c (s.popped rest)

/-- The state with a command put at the front of its queue; a word of the table spells none. -/
def State.withFetchWord (s : State) (nbits w : Nat) : State :=
  match decodeTableWord nbits w with
  | some c => { s with pending := c :: s.pending }
  | none => s

end Sys2Proof.Machine
end

