-- ==== Sys2Proof/Safety.lean ====
section
/-!
DEFINITION. What counts as a safe run, and the terms that the claims use: the canonical form that every step keeps, when an
instruction can run, and what an instruction leaves alone.
-/
namespace Sys2Proof.Machine

/-- The memory keeps its canonical form: addresses strictly rising, no listed byte equal to what an unlisted one reads as. -/
def Memory.wf (m : Sparse Byte) : Bool := Sparse.wf 0 m

/-- A state whose HBM is in canonical form. -/
def State.safe (s : State) : Bool := Memory.wf s.hbm

/-! ### When an instruction can run -/

/-- Thread `t` of core `n` can issue, and the fetch of its next instruction succeeds (R70, R74). -/
def State.canRun (s : State) (n : Nat) (t : BitVec 3) : Bool :=
  ((s.core n).thread t.toNat).canIssue && (s.fetch n t.toNat).2

/-- The same for a G-form instruction whose guard holds (R68). -/
def State.canRunIf (s : State) (n : Nat) (t pg : BitVec 3) : Bool :=
  s.canRun n t && (((s.core n).thread t.toNat).rp pg).getLsbD 0

/-- Thread `t` of core `n`. -/
def State.thr (s : State) (n : Nat) (t : BitVec 3) : Thread := (s.core n).thread t.toNat

/-! ### What an instruction leaves alone -/

/-- The registers of a core but for those named. -/
def Core.keepsRegs (c c' : Core) (written : List Fld) : Prop :=
  ∀ f : Fld, (∀ g ∈ written, f.key ≠ g.key) → c'.rd f = c.rd f

/-- Everything outside core `n`: every other core, the regions, the hubs, the module, HBM, what was sent, the queue. -/
def State.keepsOutside (s s' : State) (n : Nat) : Prop :=
  { s' with cores := s.cores } = s ∧ ∀ m, m ≠ n → s'.core m = s.core m

/-- Every thread of a core but one. -/
def Core.keepsOthers (c c' : Core) (t : BitVec 3) : Prop := ∀ u, u ≠ t.toNat → c'.thread u = c.thread u

/-- A core with the parts of another that every instruction may change: its threads, its registers, the note of who issued last,
and the words due for write-back after a correction. -/
def Core.restored (c' c : Core) : Core :=
  { c' with threads := c.threads, regs := c.regs, lastIssued := c.lastIssued, writebacks := c.writebacks }

/-- The registers that count what an instruction's fetch and reads corrected, and the watchdog's count (R82, R99). -/
def issueRegs : List Fld := [CR.WDOG_COUNT, CR.CE_COUNT, CR.CE_SAT]

/-- The frame of an instruction of thread `t` of core `n` that touches no memory and no unit: outside the core nothing changes,
inside it the thread, the note of who issued last, the watchdog's count, and what its fetch corrected (R74, R82, R99). -/
def State.onlyThread (s s' : State) (n : Nat) (t : BitVec 3) : Prop :=
  s.keepsOutside s' n ∧ (s'.core n).restored (s.core n) = s.core n ∧
  (s.core n).keepsOthers (s'.core n) t ∧ (s.core n).keepsRegs (s'.core n) issueRegs

/-- A thread that has gone on to its next instruction, with nothing changed but its registers and fetch buffer. -/
def Thread.advanced (th th' : Thread) : Prop :=
  th' = { th with g := th'.g, v := th'.v, p := th'.p, ec := th'.ec, fetchAddr := th'.fetchAddr, fetchBuf := th'.fetchBuf,
                  status := .ready, wait := .none, pc := th.pc + 4 }

/-- No g register but `d` changes. -/
def Thread.onlyG (th th' : Thread) (d : BitVec 5) : Prop :=
  (∀ e, e ≠ d → th'.rg e = th.rg e) ∧ th'.v = th.v ∧ th'.p = th.p ∧ th'.ec = th.ec

/-- An instruction of thread `t` whose one result is `x` in g[d]; g0 stays 0. -/
def State.setsG (s s' : State) (n : Nat) (t : BitVec 3) (d : BitVec 5) (x : Word) : Prop :=
  s.onlyThread s' n t ∧ (s.thr n t).advanced (s'.thr n t) ∧ (s.thr n t).onlyG (s'.thr n t) d ∧
  (s'.thr n t).rg d = if d = 0 then 0 else x

/-- An instruction of thread `t` whose one result is `x` in p[d]; p0 stays 0xFFFF. -/
def State.setsP (s s' : State) (n : Nat) (t : BitVec 3) (d : BitVec 3) (x : BitVec 16) : Prop :=
  s.onlyThread s' n t ∧ (s.thr n t).advanced (s'.thr n t) ∧
  ((∀ e, e ≠ d → (s'.thr n t).rp e = (s.thr n t).rp e) ∧ (s'.thr n t).g = (s.thr n t).g ∧
    (s'.thr n t).v = (s.thr n t).v ∧ (s'.thr n t).ec = (s.thr n t).ec) ∧
  (s'.thr n t).rp d = if d = 0 then 0xFFFF else x

/-- The frame of an instruction that counts numeric events too (R142). -/
def State.onlyThreadEvents (s s' : State) (n : Nat) (t : BitVec 3) : Prop :=
  s.keepsOutside s' n ∧ (s'.core n).restored (s.core n) = s.core n ∧
  (s.core n).keepsOthers (s'.core n) t ∧ (s.core n).keepsRegs (s'.core n) (issueRegs ++
    [CR.NAN_COUNT, CR.NAN_SAT, CR.OVF_COUNT, CR.OVF_SAT, CR.CLAMP_COUNT, CR.CLAMP_SAT, CR.UNF_COUNT, CR.UNF_SAT])

/-- An instruction of thread `t` that changes nothing but one unit of core `n`, which `undo` puts back, and the registers named. -/
def State.onlyUnit (s s' : State) (n : Nat) (t : BitVec 3) (undo : Core → Core → Core) (regs : List Fld) : Prop :=
  s.keepsOutside s' n ∧ undo ((s'.core n).restored (s.core n)) (s.core n) = s.core n ∧
  (s.core n).keepsOthers (s'.core n) t ∧ (s.core n).keepsRegs (s'.core n) (issueRegs ++ regs)

/-- A thread that has gone on, its registers as they were. -/
def State.wentOn (s s' : State) (n : Nat) (t : BitVec 3) : Prop :=
  (s.thr n t).advanced (s'.thr n t) ∧ (s'.thr n t).g = (s.thr n t).g ∧ (s'.thr n t).v = (s.thr n t).v ∧
  (s'.thr n t).p = (s.thr n t).p ∧ (s'.thr n t).ec = (s.thr n t).ec

/-- A vector instruction of thread `t` whose one result is v[d], lane `i` of it `f i` where bit `i` of `m` is 1 and as it was
where it is 0 (R68). -/
def State.setsV (s s' : State) (n : Nat) (t : BitVec 3) (d : BitVec 4) (m : BitVec 16) (f : Nat → Word) : Prop :=
  s.onlyThreadEvents s' n t ∧ (s.thr n t).advanced (s'.thr n t) ∧
  ((∀ e, e ≠ d → (s'.thr n t).rv e = (s.thr n t).rv e) ∧ (s'.thr n t).g = (s.thr n t).g ∧
    (s'.thr n t).p = (s.thr n t).p ∧ (s'.thr n t).ec = (s.thr n t).ec) ∧
  ∀ i, i < 16 → ((s'.thr n t).rv d).lane i = if m.getLsbD i then f i else ((s.thr n t).rv d).lane i

/-! ### Bytes of the scratchpad -/

/-- A byte of a core's scratchpad. -/
def Core.byteAt (c : Core) (a : Nat) : Byte := Sparse.get 0 c.spad a

/-- No 8-byte word of a range is uncorrectable (R99). -/
def Core.cleanAt (c : Core) (a len : Nat) : Bool := (wordsOf a len).all fun w => !c.double.contains w

end Sys2Proof.Machine
end

