-- ==== Sys2Proof/Certificates/Slice0/Obligations.lean ====
section
/-!
DEFINITION. The statements for the provers. A statement that covers several families is the conjunction of its parts, each a
definition of its own under `Sys2Proof.Claims`; the definitions before them are the terms they are written in.
-/
namespace Sys2Proof.Machine
/-! ### Integer, immediate, branch, control, compare and predicate instructions -/

/-- The three-register integer instructions of R69 and their results. -/
def intOps : List ((Nat → BitVec 3 → BitVec 5 → BitVec 5 → BitVec 5 → BitVec 3 → Instr) × (Word → Word → Word)) :=
  [(.add, fun x y => BitVec.ofNat 32 (x.toNat + y.toNat)), (.sub, fun x y => BitVec.ofInt 32 ((x.toNat : Int) - y.toNat)),
   (.and, fun x y => x &&& y), (.or, fun x y => x ||| y), (.xor, fun x y => x ^^^ y),
   (.sll, fun x y => BitVec.ofNat 32 (x.toNat * 2 ^ (y.toNat % 32))), (.srl, fun x y => BitVec.ofNat 32 (x.toNat / 2 ^ (y.toNat % 32))),
   (.sra, fun x y => BitVec.ofInt 32 (x.toInt / 2 ^ (y.toNat % 32))),
   (.slt, fun x y => if x.toInt < y.toInt then 1 else 0), (.sltu, fun x y => if x.toNat < y.toNat then 1 else 0),
   (.mul, fun x y => BitVec.ofNat 32 (x.toNat * y.toNat)), (.mulh, fun x y => BitVec.ofInt 32 (x.toInt * y.toInt / 2 ^ 32)),
   (.mulhu, fun x y => BitVec.ofNat 32 (x.toNat * y.toNat / 2 ^ 32)),
   (.min, fun x y => BitVec.ofInt 32 (min x.toInt y.toInt)), (.max, fun x y => BitVec.ofInt 32 (max x.toInt y.toInt)),
   (.minu, fun x y => BitVec.ofNat 32 (min x.toNat y.toNat)), (.maxu, fun x y => BitVec.ofNat 32 (max x.toNat y.toNat))]

/-- The shifts by a field of R69 and their results. -/
def shiftOps : List ((Nat → BitVec 3 → BitVec 5 → BitVec 5 → BitVec 5 → BitVec 3 → Instr) × (Word → Nat → Word)) :=
  [(.slli, fun x k => BitVec.ofNat 32 (x.toNat * 2 ^ k)), (.srli, fun x k => BitVec.ofNat 32 (x.toNat / 2 ^ k)),
   (.srai, fun x k => BitVec.ofInt 32 (x.toInt / 2 ^ k))]

/-- The immediate instructions of R69 and their results, of a register and the 16-bit immediate. -/
def immOps : List ((Nat → BitVec 3 → BitVec 5 → BitVec 5 → BitVec 16 → Instr) × (Word → BitVec 16 → Word)) :=
  [(.addi, fun x i => BitVec.ofInt 32 (x.toInt + i.toInt)), (.andi, fun x i => x &&& BitVec.ofNat 32 i.toNat),
   (.ori, fun x i => x ||| BitVec.ofNat 32 i.toNat), (.xori, fun x i => x ^^^ BitVec.ofNat 32 i.toNat),
   (.slti, fun x i => if x.toInt < i.toInt then 1 else 0),
   (.sltiu, fun x i => if x.toNat < (BitVec.ofInt 32 i.toInt).toNat then 1 else 0)]

/-- The compares of R69. -/
def cmpOps : List ((Nat → BitVec 3 → BitVec 3 → BitVec 5 → BitVec 5 → BitVec 3 → Instr) × (Word → Word → Bool)) :=
  [(.cmpEq, fun x y => decide (x = y)), (.cmpNe, fun x y => decide (x ≠ y)), (.cmpLt, fun x y => decide (x.toInt < y.toInt)),
   (.cmpGe, fun x y => decide (y.toInt ≤ x.toInt)), (.cmpLtu, fun x y => decide (x.toNat < y.toNat)),
   (.cmpGeu, fun x y => decide (y.toNat ≤ x.toNat))]

/-- The predicate instructions of R69 on two predicates. -/
def predOps : List ((Nat → BitVec 3 → BitVec 3 → BitVec 3 → BitVec 3 → BitVec 3 → Instr) × (BitVec 16 → BitVec 16 → BitVec 16)) :=
  [(.pAnd, fun x y => x &&& y), (.pOr, fun x y => x ||| y), (.pXor, fun x y => x ^^^ y), (.pAndn, fun x y => x &&& ~~~y)]
/-! ### Guards, vectors, random words -/

/-- Core, thread and guard of a G-form instruction (R66); a random word of stream 0 is an illegal encoding (R69). -/
def guardOf (i : Instr) : Option (Nat × BitVec 3 × BitVec 3) :=
  match i with
  | .add n t _ _ _ pg | .sub n t _ _ _ pg | .and n t _ _ _ pg | .or n t _ _ _ pg | .xor n t _ _ _ pg | .sll n t _ _ _ pg
  | .srl n t _ _ _ pg | .sra n t _ _ _ pg | .slt n t _ _ _ pg | .sltu n t _ _ _ pg | .mul n t _ _ _ pg | .mulh n t _ _ _ pg
  | .mulhu n t _ _ _ pg | .min n t _ _ _ pg | .max n t _ _ _ pg | .minu n t _ _ _ pg | .maxu n t _ _ _ pg | .clz n t _ _ pg
  | .popc n t _ _ pg | .slli n t _ _ _ pg | .srli n t _ _ _ pg | .srai n t _ _ _ pg | .thrEnd n t pg | .fence n t pg
  | .thrId n t _ pg | .dbgBrk n t pg | .cmpEq n t _ _ _ pg | .cmpNe n t _ _ _ pg | .cmpLt n t _ _ _ pg | .cmpGe n t _ _ _ pg
  | .cmpLtu n t _ _ _ pg | .cmpGeu n t _ _ _ pg | .pAnd n t _ _ _ pg | .pOr n t _ _ _ pg | .pXor n t _ _ _ pg
  | .pAndn n t _ _ _ pg | .pSetg n t _ _ pg | .pGetg n t _ _ pg | .pAny n t _ _ pg | .pAll n t _ _ pg | .vbcast n t _ _ pg
  | .vext n t _ _ _ pg | .vins n t _ _ _ pg | .mxRun n t _ pg | .mxOut n t _ pg | .mxClr n t pg | .mxCfg n t _ pg
  | .mxWait n t pg | .mxStat n t _ pg | .czCfg n t _ pg | .czFlush n t pg | .czHist n t _ pg | .czStat n t _ pg
  | .rndEc n t _ pg | .chSend n t _ _ pg | .chSendg n t _ _ pg | .chRecv n t _ _ pg | .chRecvg n t _ _ pg | .chClose n t _ pg
  | .chCount n t _ _ pg | .bzOpen n t _ _ _ pg | .bzClose n t _ pg | .bzClosea n t _ _ pg | .bzPut n t _ _ _ pg
  | .bzCount n t _ _ pg | .sigT n t _ pg | .sigWait n t pg | .sigCnt n t _ _ pg | .sigTest n t _ pg | .clArr n t _ pg
  | .clWait n t _ pg | .clTest n t _ _ pg | .dmaPost n t _ _ pg | .dmaWait n t _ pg | .dmaTest n t _ _ pg => some (n, t, pg)
  | .rndU32 n t _ b pg | .vrnd n t _ b pg => if b = 0 then none else some (n, t, pg)
  | _ => none

/-- The lane instructions of R69 on two vectors, with the lane's result. -/
def laneOps2 : List ((Nat → BitVec 3 → BitVec 4 → BitVec 4 → BitVec 4 → BitVec 3 → Instr) × (Word → Word → Word)) :=
  [(.vadd, fun x y => (toFp32 ((fpv x).isNan || (fpv y).isNan) ((fpv x).add (fpv y))).1),
   (.vsub, fun x y => (toFp32 ((fpv x).isNan || (fpv y).isNan) ((fpv x).add (fpv y).neg)).1),
   (.vmul, fun x y => (toFp32 ((fpv x).isNan || (fpv y).isNan) ((fpv x).mul (fpv y))).1),
   (.vmax, fpMax), (.vmin, fpMin), (.vand, fun x y => x &&& y), (.vor, fun x y => x ||| y), (.vxor, fun x y => x ^^^ y),
   (.viadd, fun x y => BitVec.ofNat 32 (x.toNat + y.toNat))]

/-- The lane instructions of R69 on one vector, with the lane's result: the special functions are the exact function of R140
rounded once, the conversions to and from INT32 round to nearest even. -/
def laneOps1 : List ((Nat → BitVec 3 → BitVec 4 → BitVec 4 → BitVec 3 → Instr) × (Word → Word)) :=
  [(.vabs, fun x => BitVec.ofNat 32 (x.toNat % 2 ^ 31)), (.vneg, fun x => BitVec.ofNat 32 (x.toNat + 2 ^ 31)), (.vmov, fun x => x),
   (.sfExp2, fun x => (specialFn exp2V x).1), (.sfLog2, fun x => (specialFn log2V x).1), (.sfRcp, fun x => (specialFn rcpV x).1),
   (.sfRsqrt, fun x => (specialFn rsqrtV x).1), (.sfSin, fun x => (specialFn (trigV false) x).1),
   (.sfCos, fun x => (specialFn (trigV true) x).1), (.sfErf, fun x => (specialFn erfV x).1),
   (.vcvtFI32, fun x => (toFp32 false (FV.ofInt x.toInt 0)).1), (.vcvtI32F, fun x => BitVec.ofNat 32 (toI32 (fpv x)).1)]

/-- The lane compares of R69. -/
def laneCmps : List ((Nat → BitVec 3 → BitVec 3 → BitVec 4 → BitVec 4 → BitVec 3 → Instr) × (Word → Word → Bool)) :=
  [(.vcmpLt, fun x y => (fpv x).lt (fpv y)), (.vcmpLe, fun x y => (fpv x).lt (fpv y) || (fpv x).eq (fpv y)),
   (.vcmpEq, fun x y => (fpv x).eq (fpv y))]

/-- A vector instruction of thread `t` that writes the pair v[d], v[d + 1] under a mask (R141). -/
def State.setsPair (s s' : State) (n : Nat) (t : BitVec 3) (d : BitVec 4) (m : BitVec 16) (f : Nat → Word × Word) : Prop :=
  s.onlyThreadEvents s' n t ∧ (s.thr n t).advanced (s'.thr n t) ∧
  ((∀ e, e ≠ d → e ≠ d + 1 → (s'.thr n t).rv e = (s.thr n t).rv e) ∧ (s'.thr n t).g = (s.thr n t).g ∧
    (s'.thr n t).p = (s.thr n t).p ∧ (s'.thr n t).ec = (s.thr n t).ec) ∧
  ∀ i, i < 16 → ((s'.thr n t).rv d).lane i = (if m.getLsbD i then (f i).1 else ((s.thr n t).rv d).lane i) ∧
    ((s'.thr n t).rv (d + 1)).lane i = if m.getLsbD i then (f i).2 else ((s.thr n t).rv (d + 1)).lane i

/-- A pair of lanes of a thread's registers. -/
def Thread.pairAt (th : Thread) (a : BitVec 4) (i : Nat) : Word × Word := ((th.rv a).lane i, (th.rv (a + 1)).lane i)

/-- The narrowing conversions of R69: constructor with its operands, format, bytes of an element, first byte, elements, source. -/
def narrowOps (d a b : BitVec 4) (k : BitVec 2) : List ((Nat → BitVec 3 → BitVec 3 → Instr) × Fmt × Nat × Nat × Nat × (Thread → Nat → Word)) :=
  let two (th : Thread) (j : Nat) : Word := if j < 16 then (th.rv a).lane j else (th.rv b).lane (j - 16)
  let one (th : Thread) (j : Nat) : Word := (th.rv a).lane j
  [(fun n t pg => .vcvtBf16 n t d a b pg, .bf16, 2, 0, 32, two), (fun n t pg => .vcvtF16 n t d a b pg, .fp16, 2, 0, 32, two),
   (fun n t pg => .vcvtE4m3 n t d a k pg, .e4m3, 1, 16 * k.toNat, 16, one),
   (fun n t pg => .vcvtE5m2 n t d a k pg, .e5m2, 1, 16 * k.toNat, 16, one)]

/-- The widening conversions of R69: constructor with its operands, format, bytes of an element, group of 16 elements. -/
def widenOps (d a : BitVec 4) (k1 : BitVec 1) (k2 : BitVec 2) : List ((Nat → BitVec 3 → BitVec 3 → Instr) × Fmt × Nat × Nat) :=
  [(fun n t pg => .vcvtXBf16 n t d a k1 pg, .bf16, 2, k1.toNat), (fun n t pg => .vcvtXF16 n t d a k1 pg, .fp16, 2, k1.toNat),
   (fun n t pg => .vcvtXE4m3 n t d a k2 pg, .e4m3, 1, k2.toNat), (fun n t pg => .vcvtXE5m2 n t d a k2 pg, .e5m2, 1, k2.toNat)]

/-- Element `j` of `w` bytes from byte `b` of a row. -/
def elemAt (r : Row) (b w j : Nat) : Nat := r.toNat / 2 ^ (8 * (b + j * w)) % 2 ^ (8 * w)

/-! ### Memory and control registers -/

/-- The narrow loads of R69: size in bytes and the result from the bytes' value. -/
def loadOps : List ((Nat → BitVec 3 → BitVec 5 → BitVec 5 → BitVec 16 → Instr) × Nat × (Nat → Word)) :=
  [(.ldB, 1, fun v => BitVec.ofInt 32 (BitVec.ofNat 8 v).toInt), (.ldBu, 1, fun v => BitVec.ofNat 32 v),
   (.ldH, 2, fun v => BitVec.ofInt 32 (BitVec.ofNat 16 v).toInt), (.ldHu, 2, fun v => BitVec.ofNat 32 v),
   (.ldW, 4, fun v => BitVec.ofNat 32 v)]

/-- The narrow stores of R69: size in bytes. -/
def storeOps : List ((Nat → BitVec 3 → BitVec 5 → BitVec 5 → BitVec 16 → Instr) × Nat) :=
  [(.stB, 1), (.stH, 2), (.stW, 4)]

/-- The little-endian value of `len` bytes of a core's scratchpad (R7). -/
def Core.valueAt (c : Core) (a len : Nat) : Nat := leNat ((List.range len).map fun i => c.byteAt (a + i))

/-- The address of a narrow access: g[a] + sext(imm), modulo 2^32 (R69). -/
def Thread.narrow (th : Thread) (a : BitVec 5) (imm : BitVec 16) : Nat := (BitVec.ofInt 32 ((th.rg a).toInt + imm.toInt)).toNat

/-- The access is aligned and lies in the scratchpad (R73). -/
def reaches (at_ len : Nat) : Prop := at_ % len = 0 ∧ at_ + len ≤ spadSize

/-- A load completes: only its thread changes, and what its read corrected is counted (R99). -/
def State.loads (s s' : State) (n : Nat) (t : BitVec 3) : Prop := s.onlyThread s' n t ∧ (s.thr n t).advanced (s'.thr n t)

/-- A store of `len` bytes of the value `v` at `at_` completes: those bytes change and no others, no register of the thread
changes, and words written get fresh check bits (R99). -/
def State.stores (s s' : State) (n : Nat) (t : BitVec 3) (at_ len v : Nat) : Prop :=
  s.onlyUnit s' n t (fun c' c => { c' with spad := c.spad, single := c.single, double := c.double }) [] ∧ s.wentOn s' n t ∧
  (s'.core n).valueAt at_ len = v % 2 ^ (8 * len) ∧
  ∀ a, ¬ (at_ ≤ a ∧ a < at_ + len) → (s'.core n).byteAt a = (s.core n).byteAt a

/-- A narrow or row access: constructor with its operands and alignment (R73). -/
def accesses (d a : BitVec 5) (v : BitVec 4) (imm : BitVec 16) : List ((Nat → BitVec 3 → Instr) × Nat × Bool) :=
  [(fun n t => .ldH n t d a imm, 2, false), (fun n t => .ldHu n t d a imm, 2, false), (fun n t => .ldW n t d a imm, 4, true),
   (fun n t => .ldD n t d a imm, 8, false), (fun n t => .stH n t d a imm, 2, false), (fun n t => .stW n t d a imm, 4, true),
   (fun n t => .stD n t d a imm, 8, false), (fun n t => .vld n t v a imm, 64, false), (fun n t => .vst n t v a imm, 64, false),
   (fun n t => .ldB n t d a imm, 1, false), (fun n t => .ldBu n t d a imm, 1, false), (fun n t => .stB n t d a imm, 1, false)]

/-- What a core's fault record holds (R81). -/
def faultRecord : List Fld :=
  [CR.FAULT_VALID, CR.FAULT_THREAD, CR.FAULT_UNIT, CR.FAULT_CODE, CR.FAULT_PC, CR.FAULT_ADDR_LO, CR.FAULT_ADDR_DEV,
   CR.FAULT_ADDR_HI, CR.FAULT_INSN, CR.FAULT_INDEX]
/-- The registers of a core that a fault writes (R81). -/
def faultRegs : List Fld := faultRecord ++ [CR.FAULT_COUNT, CR.FAULT_SAT]
/-- SECTION_ABORT with the cause `a` waits at region controller `r` to be sent to H0 (R51, R181). -/
def State.abortSent (s s' : State) (r : Nat) (a : AbortMsg) : Prop :=
  (s'.region r).ctrlOut = (s.region r).ctrlOut ++ [⟨2, 0, 0x7FF00 + r, (s.region r).ctrlGen, .cause a⟩]
/-- A core has counted a fault, and recorded it if its record was free (R81). -/
def Core.recorded (c c' : Core) (n unit thread code pc addr : Nat) : Prop :=
  c'.faulted = true ∧ c'.rd CR.FAULT_COUNT = satAdd 16 (c.rd CR.FAULT_COUNT) 1 ∧
  (c.rd CR.FAULT_VALID = 0 → c'.rd CR.FAULT_VALID = 1 ∧ c'.rd CR.FAULT_CODE = code ∧ c'.rd CR.FAULT_UNIT = unit ∧
    c'.rd CR.FAULT_THREAD = thread ∧ c'.rd CR.FAULT_ADDR_LO = addr % 2 ^ 32 ∧ c'.rd CR.FAULT_ADDR_HI = addr / 2 ^ 32 % 2 ^ 16 ∧
    c'.rd CR.FAULT_PC = pc % 2 ^ 32 ∧ c'.rd CR.FAULT_INDEX = n % 2 ^ 19) ∧
  (c.rd CR.FAULT_VALID ≠ 0 → ∀ f ∈ faultRecord, c'.rd f = c.rd f)
/-- A fault of thread `t` of core `n` (R51, R81): the thread stops at the faulting instruction with its registers as they were, the
fault is counted, and recorded if the record was free, and SECTION_ABORT goes from the region's controller to H0 with the core and
the code. Nothing else changes but one unit of the core, which `undo` puts back, and what the fetch and the watchdog count. -/
def State.faultsIn (s s' : State) (n : Nat) (t : BitVec 3) (undo : Core → Core → Core) (code addr : Nat) : Prop :=
  s'.thr n t = { s.thr n t with status := .stopped, wait := .none, fetchAddr := (s'.thr n t).fetchAddr,
                                fetchBuf := (s'.thr n t).fetchBuf } ∧
  (s.core n).recorded (s'.core n) n 0 t.toNat code (s.thr n t).pc.toNat addr ∧
  { s' with cores := s.cores } = s.sendAbort ⟨regionOf n, code, 0, n⟩ ∧ (regionOf n < 56 → s.abortSent s' (regionOf n) ⟨regionOf n, code, 0, n⟩) ∧
  (∀ m, m ≠ n → s'.core m = s.core m) ∧ (s.core n).keepsOthers (s'.core n) t ∧
  { undo ((s'.core n).restored (s.core n)) (s.core n) with faulted := (s.core n).faulted } = s.core n ∧
  (s.core n).keepsRegs (s'.core n) (issueRegs ++ faultRegs)
/-- A fault that changes no unit. -/
def State.faults (s s' : State) (n : Nat) (t : BitVec 3) (code addr : Nat) : Prop := s.faultsIn s' n t (fun c _ => c) code addr

/-- A local head block of a far access: the request that an instruction's memory access makes (R180). -/
def farReq (s : State) (n : Nat) (t : BitVec 3) (at_ insn : Nat) : MReq :=
  ⟨false, at_ / 64 * 64, n, t.toNat, 0, t.toNat, (s.core n).gen % 16, 0, 0, (s.thr n t).pc, insn⟩

/-- The far address: the 48-bit sum of the base in g[a], g[a + 1] and sext(imm) (R75). -/
def Thread.far (th : Thread) (a : BitVec 5) (imm : BitVec 16) : Nat :=
  (BitVec.ofInt 48 ((th.rg a).toNat + 2 ^ 32 * ((th.rg (a + 1)).toNat % 2 ^ 16 : Nat) + imm.toInt)).toNat

/-- The state in which thread `t` of core `n` has fetched its next instruction (R74). -/
def State.fetched (s : State) (n : Nat) (t : BitVec 3) : State := (s.fetch n t.toNat).1

/-! ### Engine, channels, bezels, signals, clasps, DMA -/

/-- Puts the engine back. -/
def undoEng (c' c : Core) : Core := { c' with eng := c.eng }
/-- Puts the router and the sequence numbers of the routes back. -/
def undoRouter (c' c : Core) : Core := { c' with router := c.router, routes := c.routes }
/-- Puts the queues back. -/
def undoQueues (c' c : Core) : Core := { c' with queues := c.queues }
/-- Puts the clasp nodes back. -/
def undoClasps (c' c : Core) : Core := { c' with clasps := c.clasps }
/-- Puts the DMA engine back. -/
def undoDma (c' c : Core) : Core := { c' with dma := c.dma }

/-- The commands that the engine owner queues, with the entry each makes of g[a] (R69, R119). -/
def queueOps : List ((Nat → BitVec 3 → BitVec 5 → BitVec 3 → Instr) × (Word → EngCmd) × Nat) :=
  [(.mxRun, fun x => .run x.toNat, 64), (.mxOut, fun x => .out x.toNat, 32), (fun n t _ pg => .mxClr n t pg, fun _ => .clr, 0),
   (.mxCfg, .cfg, 0), (.czCfg, .czCfg, 0), (fun n t _ pg => .czFlush n t pg, fun _ => .czFlush, 0),
   (.czHist, fun x => .czHist x.toNat, 0)]

/-- A block put at the end of the local input of a core's router, if it owes a copy somewhere (R179, R186). -/
def State.injected (s s' : State) (n cls : Nat) (p : Payload) : Prop :=
  (s'.core n).inBuf 0 cls = (s.core n).inBuf 0 cls ++
    (if outsOf s.md.remap n p = [] then [] else [⟨p, outsOf s.md.remap n p, none, s.now⟩])

/-- Signals of a thread after one more (R209, R210). -/
def nextSignal (v : Nat) : Nat := if v < 0xFFFF then v + 1 else v

/-- The 32 bytes of a descriptor at `a` as four 64-bit words (R299). -/
def Core.descAt (c : Core) (a poster : Nat) : DmaDesc :=
  { w0 := c.valueAt a 8, oaw := c.valueAt (a + 8) 8, w2 := c.valueAt (a + 16) 8, w3 := c.valueAt (a + 24) 8, poster := poster,
    started := false, issued := 0, outstanding := [], done := 0, pageRow := 0 }

/-! ### Registers, runs, sections, ticks, aborts, tokens -/

/-- Nothing but the module's own part changes. -/
def State.onlyMd (s s' : State) : Prop := { s' with md := s.md } = s
/-- Nothing but the module registers named changes. -/
def State.onlyMdRegs (s s' : State) (written : List Fld) : Prop :=
  { s' with md := { s'.md with regs := s.md.regs } } = s ∧ ∀ f : Fld, (∀ g ∈ written, f.key ≠ g.key) → s'.rd f = s.rd f
/-- Nothing but region controller `r` changes. -/
def State.onlyRegion (s s' : State) (r : Nat) : Prop :=
  { s' with regions := s.regions } = s ∧ ∀ q, q ≠ r → s'.region q = s.region q
/-- Nothing but hub `h` changes. -/
def State.onlyHub (s s' : State) (h : Nat) : Prop := { s' with hubs := s.hubs } = s ∧ ∀ k, k ≠ h → s'.hub k = s.hub k
/-- The device address of a module register (R28). -/
def mdAddr (f : Fld) : Nat := 0x7FFF00000000 + f.off
/-- Some registers of the module that fill a word and only store what is written. -/
def plainRegs : List Fld :=
  [MR.START_TICK_LO, MR.START_TICK_HI, MR.SNAP_BASE_LO, MR.HM_CHAIN_INIT, MR.STOP_TICK_LO, MR.STOP_TICK_HI, MR.INV_VA_LO]
/-- Some words of the module window that hold an event counter, which a read clears, and its saturation flag. -/
def counterRegs : List (Fld × Fld) :=
  [(MR.OVERRUN_COUNT, MR.OVERRUN_SAT), (MR.DUP_TICK_COUNT, MR.DUP_TICK_SAT), (MR.BUSY_COUNT, MR.BUSY_SAT)]

/-- Context slot `k` of core `n`. -/
def State.slotOf (s : State) (n k : Nat) : Slot := (s.core n).slot k

/-- How many blocks with the packet `p` wait at edge port `k` of hub `h` or are on the link from it. -/
def State.outbound (s : State) (h k : Nat) (p : Payload) : Nat :=
  (Sparse.get [] (s.hub h).edgeOut k).count p + ((s.link (.hub h k)).flight.filterMap LinkBlock.body).count p
/-- H0 has sent a control message to region controller `r` (R27, R48, R181): one more such block waits at or has left the edge port of the
controller's router, and the controller is as it was; where the path is cut, the message has come over the dedicated line. -/
def State.toldRegion (s s' : State) (r : Nat) (b : CtrlBody) (arrived : Region) : Prop :=
  if regionCut s.md.remap 0 r = true then s'.region r = arrived
  else s'.region r = s.region r ∧ ∃ k, edgePortFor s.md.remap 0 (controllerCore r) = some k ∧
    s'.outbound 0 k (.ctrl ⟨1, r, 0x7FFF0, (s.region r).ctrlGen, b⟩) =
      s.outbound 0 k (.ctrl ⟨1, r, 0x7FFF0, (s.region r).ctrlGen, b⟩) + 1
/-- H0 has distributed TICK `tick` as the one tick in progress (R46, R48). -/
def State.tickGoes (s s' : State) (tick : Nat) : Prop :=
  s'.rd MR.TICK_NUM_LO = tick % 2 ^ 32 ∧ s'.rd MR.TICK_NUM_HI = tick / 2 ^ 32 % 2 ^ 32 ∧ s'.md.tu.expected = tick + 1 ∧
  s'.md.tu.active = [⟨tick, [], [], []⟩] ∧ ∃ m : TickMsg, m.tick = tick ∧ (m.commit = true ↔ s.rd MR.COMMIT_HOLD = 0) ∧
    ∀ r, r < 56 → s.toldRegion s' r (.tick m) { s.region r with tickIn := (s.region r).tickIn ++ [m] }

/-- H0 has begun an abort for the cause `a`: RUN_STATE reads ABORTING, SECTION_ABORT is on its way to the 56 regions, the cause
counts against the newest tick in progress, and no slot of the reduction engines runs on (R51, R247). -/
def State.aborts (s s' : State) (a : AbortMsg) : Prop :=
  s'.rd MR.RUN_STATE = rsAborting ∧ s'.md.tu.abort.map Abort.unreported = some (List.range 56) ∧
  s'.md.tu.active.getLast?.map ActTick.causes = s.md.tu.active.getLast?.map (fun x => x.causes ++ [a]) ∧
  (∀ r, r < 56 → s.toldRegion s' r .abort { s.region r with abortIn := true }) ∧
  (∀ e ∈ s'.md.slots, e.2.running = false ∨ e.2.aborted = true) ∧
  s'.cores = s.cores ∧ (∀ h, h ≠ 0 → s'.hub h = s.hub h) ∧ s'.hbm = s.hbm

/-- A token or a signal taken from an input of a core by the epoch check or its queue: the copy that the local port was owed is
paid. -/
def State.taken (s s' : State) (n port : Nat) : Prop :=
  (s'.core n).inBuf port 0 = paidHead s.now 0 ((s.core n).inBuf port 0)
/-- What an event at a router's input leaves alone: everything outside the core and its region's report; the core's threads, engines
and clasps. -/
def State.onlyInput (s s' : State) (n : Nat) : Prop :=
  s'.hbm = s.hbm ∧ s'.hubs = s.hubs ∧ s'.md = s.md ∧ s'.outbox = s.outbox ∧ s'.pending = s.pending ∧
  (∀ r, r ≠ regionOf n → s'.region r = s.region r) ∧ (∀ m, m ≠ n → Sparse.get .reset s'.cores m = Sparse.get .reset s.cores m) ∧
  (∀ t, { (s'.core n).thread t with sig := 0 } = { (s.core n).thread t with sig := 0 }) ∧
  (s'.core n).eng = (s.core n).eng ∧ (s'.core n).clasps = (s.core n).clasps ∧ (s'.core n).slots = (s.core n).slots

/-! ### Queued commands, scratchpad upkeep, bezel lane, mesh, share, clasps -/

/-- A byte of a number, lowest first. -/
def byteOf (v k : Nat) : Byte := BitVec.ofNat 8 (v / 2 ^ (8 * k))
/-- A signed byte of the scratchpad. -/
def Core.sbyte (c : Core) (a : Nat) : Int := (c.byteAt a).toInt
/-- The address of element `p` of K step `i` of a dense INT8 operand in row mode: four vectors of sixteen bytes to a row (R93, R124). -/
def Oaw.int8At (o : Oaw) (i p : Nat) : Nat := (o.base / 64 + i / 4 * o.stride) * 64 + 16 * (i % 4) + p
/-- The sum of an integer over a range. -/
def sumTo (k : Nat) (f : Nat → Int) : Int := (List.range k).foldl (fun a i => a + f i) 0
/-- A core without the command at the front of its engine's queue. -/
def Core.popped (c : Core) : Core := { c with eng := { c.eng with queue := c.eng.queue.drop 1 } }
/-- The compressor has nothing open and nothing staged. -/
def Comp.quiet (z : Comp) : Bool :=
  decide (z.val.staged = []) && decide (z.info.staged = []) && decide (z.l1.staged = []) && decide (z.row.staged = []) &&
    decide (z.blockBits = []) && decide (z.l1Bits = []) && decide (z.rowBlk = 0) && decide (z.stretchElems = 0)
/-- The compressor after a flush: the numbering of its object restarts (R162). -/
def Comp.restarted (z : Comp) : Comp :=
  { z with elems := 0, rowNum := 0, rowBlk := 0, rowCount := 0, stretchElems := 0, stretchNz := 0 }
/-- The share balance of core `n` after one reference cycle's gain (R204). -/
def State.gained (s : State) (n : Nat) : Nat := min s.shareBurst ((s.core n).balance + s.shareGain (regionOf n))
/-- BOOST after an epoch in which `w` blocks wait (R205). -/
def State.nextBoost (s : State) (w : Nat) : Nat :=
  let b := s.rd MR.BOOST
  if s.md.regs.inForce MR.BOOST_EN = 0 then 16
  else if w < s.md.regs.inForce MR.BOOST_LOW then min 255 (b + 1)
  else if s.md.regs.inForce MR.BOOST_HIGH < w then max 16 (b - 4)
  else b

/-! ### Reduction and memory -/

/-- Nothing of a slot is ready to be written, and its round is not complete. -/
def RedSlot.settled (z : RedSlot) : Bool :=
  z.sums.all (fun e => z.written.contains e.1) && decide (z.due = []) && z.open_
/-- The record at the front of delivered message `i` of hub `h` belongs to the round in progress of a slot: the slot, its state,
the record, the block of its one unit, and the unit's bytes. -/
def State.recordFor (s : State) (kind h i slot : Nat) (z : RedSlot) (r : RedRec) (u : List Byte) : Prop :=
  ∃ m rest, (s.hub h).msgs[i]? = some m ∧ m.typ = 5 ∧ m.jobId = z.job.jobId ∧ m.jobGen = z.job.gen ∧
    ((s.hub h).msgs.take i).any (fun x => decide (x.node = m.node) && decide (x.flow = m.flow)) = false ∧
    parseRec m.body = some (r, rest) ∧ r.kind = kind ∧ r.round = z.round ∧ r.flags = b2n z.job.w48 ∧
    recUnits r.kind r.flags r.count r.body = some [u] ∧ r.member < z.job.members ∧
    (s.md.slots.find? fun (e : Nat × RedSlot) => decide (e.2.job.jobId = m.jobId) && decide (e.2.job.gen = m.jobGen) && !e.2.aborted) =
      some (slot, z) ∧ s.redSlot slot = some z ∧ z.round < 2 ^ 16
/-- What an event at the reduction engines leaves alone when it only adds to its slot. -/
def State.onlySlot (s s' : State) (slot : Nat) : Prop :=
  s'.hbm = s.hbm ∧ s'.cores = s.cores ∧ s'.regions = s.regions ∧ s'.md.regs = s.md.regs ∧ s'.md.tu = s.md.tu ∧
  ∀ k, k ≠ slot → s'.redSlot k = s.redSlot k
/-- The dedicated line of a region controller carries the answer to its request: the path through the mesh is cut (R27). -/
def State.byLine (s : State) (h : Nat) (q : MReq) : Prop := q.unit = 3 ∧ regionCut s.md.remap h (q.src % 256) = true
/-- An answer to the request has a way to leave hub `h`. -/
def State.answerable (s : State) (h : Nat) (q : MReq) : Prop := s.byLine h q ∨ (edgePortFor s.md.remap h q.router).isSome
/-- Hub `h` has answered a request: one more such block waits at the edge port that serves the requester's router or has left it, or the
region controller has the answer over its dedicated line. -/
def State.answers (s s' : State) (h : Nat) (q : MReq) (a : Reply) : Prop :=
  (s.byLine h q → (s'.region (q.src % 256)).replies = (s.region (q.src % 256)).replies ++ [(q, a)]) ∧
  (¬ s.byLine h q → ∃ k, edgePortFor s.md.remap h q.router = some k ∧
    s'.outbound h k (.mrsp q a) = s.outbound h k (.mrsp q a) + 1)
/-- A block of HBM that a request can read and write. -/
def State.goodBlock (s : State) (pa : Nat) : Bool := decide (s.readsFail (pa / 64) = 0) && !s.channelFailed pa
/-- No post to a message ring waits. -/
def State.noPosts (s : State) : Prop := s.md.ringWait = [] ∧ ∀ h, h < 4 → (s.hub h).mgmtWait = []

/-! ### Transport, reports, host -/

/-- Nothing but hub `h` and what was sent changes. -/
def State.onlyHubOut (s s' : State) (h : Nat) : Prop :=
  { s' with hubs := s.hubs, outbox := s.outbox } = s ∧ ∀ k, k ≠ h → s'.hub k = s.hub k
/-- A SEQ that an ACK covers: up to ACK_SEQ, or named by a SACK bit `i` as ACK_SEQ + 1 + i (R322). -/
def ackedBy (ack sack seq : Nat) : Bool :=
  decide ((ack + 2 ^ 32 - seq % 2 ^ 32) % 2 ^ 32 < 2 ^ 31) ||
    (List.range 64).any fun i => sack.testBit i && decide (seq % 2 ^ 32 = (ack + 1 + i) % 2 ^ 32)
/-- The blocks of a mask of one unacknowledged packet are sent again on its flow's port, with RETX set, and it has been re-sent
once more (R323); a report goes whole (R328). -/
def State.resends (s s' : State) (h : Nat) (f : TxFlow) (k : TxPkt) (mask : Nat) : Prop :=
  s.onlyHubOut s' h ∧
  (∃ x, s'.outbox = s.outbox ++ [.ryudon x] ∧ x.port = f.port ∧ x.payload[1]? = some 1 ∧
    x.payload[22]? = some (BitVec.ofNat 8 (let full := 2 ^ blockCount k.msg.body.length - 1
      if k.msg.typ = 4 then full else mask &&& full))) ∧
  ∃ f', s'.txFlow h f.node f.flow = some f' ∧ (f'.unacked.find? fun y => decide (y.seq = k.seq)).map (·.resent) = some (k.resent + 1)
/-- A flow to a node is open, nothing waits on it, and its window has room. -/
def State.flowReady (s : State) (h node flow : Nat) : Prop :=
  s.md.ringWait = [] ∧ ∃ f, s.txFlow h node flow = some f ∧ f.queue = [] ∧ f.unacked.length < 64
/-- A DATA message has left on a flow: it is its next packet, not acknowledged yet. -/
def State.sends (s s' : State) (h node flow : Nat) (body : List Byte) : Prop :=
  ∃ f f', s.txFlow h node flow = some f ∧ s'.txFlow h node flow = some f' ∧
    f'.unacked = f.unacked ++ [⟨f.nextSeq, ⟨0, 0, 0, body, none⟩, 0⟩] ∧ f'.queue = []
/-- TAIL of a ring after a record of `len` bytes: the pad to the end of the buffer where the record does not fit before it, and
the record (R340, R341). -/
def Ring.after (g : Ring) (len : Nat) : Nat :=
  let size := 2 ^ g.sizeLog
  g.tail + (if size < g.tail % size + recordSize len then size - g.tail % size else 0) + recordSize len
/-- TAIL of ring `r` as HBM holds it. -/
def State.tailIs (s s' : State) (r v : Nat) : Prop := s'.hbmPeek (s.ringAddr r + 16) 8 = leBytes 8 v
/-- Message `i` at hub `h` is DATA with an OP, and the first that waits of its flow (R333). -/
def State.dataIn (s : State) (h i op : Nat) (m : RxMsg) (d : DataMsg) : Prop :=
  (s.takeMsg h i fun m => decide (m.typ = 0) && decide (dataOp m.body = op)).map (·.1) = some m ∧
  DataMsg.ofBytes m.body = some d ∧ d.op = op
/-- The machine with that message taken. -/
def State.dataTaken (s : State) (h i : Nat) : State := s.updHub h fun u => { u with msgs := u.msgs.eraseIdx i }
/-- A range of the host within one block whose page the hub has cached, in a block that can be read and written and that the hub
`own` reaches. -/
def State.hostBlock (s : State) (own va len : Nat) (write : Bool) (pa : Nat) : Prop :=
  0 < len ∧ va / 64 = (va + len - 1) / 64 ∧ va < windowBase ∧ s.unreachable own pa = false ∧
  (s.hub (hubOf (va / 64 * 64))).lookup (va / 64 * 64) write true = some pa ∧ s.goodBlock pa = true
/-- Bytes written into the block of `pa` where a host range at `va` puts them. -/
def State.hostWrote (s s' : State) (va pa : Nat) (b : List Byte) : Prop :=
  ∀ a, Sparse.get 0 s'.hbm a =
    if a / 64 = pa / 64 ∧ va % 64 ≤ a % 64 ∧ a % 64 < va % 64 + b.length then nth 0 b (a % 64 - va % 64) else Sparse.get 0 s.hbm a
/-- A RoCEv2 packet of queue pair `q` passes at port `p` (R334). -/
def State.roceOk (s : State) (p q : Nat) (e : QpEnt) : Prop :=
  s.portRd p PR.LINK_UP ≠ 0 ∧ s.rd MR.BRIDGE_EN = 1 ∧ (s.rd MR.HOST_PORTS_LO + 2 ^ 32 * s.rd MR.HOST_PORTS_HI).testBit p = true ∧
  s.qpEnt q = some e ∧ e.port = p
/-- The queue pair expects this PSN and has nothing under way. -/
def Qp.idleAt (x : Qp) (psn : Nat) : Prop := x.psn = psn ∧ x.write = none ∧ x.send = none ∧ x.reqs = []
/-- The one request of the queue pair that waits for a member. -/
def Qp.waits (x : Qp) (r : QpReq) : Prop := x.reqs = [r] ∧ r.nak = none ∧ r.complete = false

/-! ### Clocks, domains, power, temperature, bring-up, resets -/

/-- One step of a divider toward another value (R352). -/
def divStep (d want : Nat) : Nat := if d < want then min want (d * 16 / 15) else max want ((d * 16 + 16) / 17)
/-- A divider after an update: a step toward its want once its dwell has passed (R352, R353). -/
def State.divided (s : State) (d want age : Nat) : Nat :=
  if d ≠ want ∧ clampTo 500 65535 (s.md.regs.inForce MR.DWELL_NS) ≤ (age + 1) * 1000 then divStep d want else d
/-- A of a region whose MCLK_D is `m`: the slowest divider that an automatic reduction takes (R353). -/
def Region.slowest (g : Region) (m : Nat) : Nat :=
  max (max 64 (g.regs.inForce RR.CCLK_TARGET_D)) (min (g.regs.inForce RR.CCLK_FLOOR_D) (2 * m))
/-- A bring-up has been counted, in BOOT_COUNT and in the flash's record of it (R413, log 86). -/
def State.bootCounted (s s' : State) : Prop :=
  s'.rd MR.BOOT_COUNT = (s.rd MR.BOOT_COUNT + 1) % 2 ^ 32 ∧
  s'.flashPeek (bootSlot (s.rd MR.BOOT_COUNT + 1)) 16 = bootRecord (s.rd MR.BOOT_COUNT + 1)
/-- The largest of some numbers. -/
def largest (l : List Nat) : Nat := l.foldl max 0
/-- The record that a command adds to the MP log first stands in the next slot. -/
def State.logged (s s' : State) (kind code result : Nat) : Prop :=
  ∃ e ∈ s'.md.log, e.1 = s.rd MR.LOG_WR % 1024 ∧ e.2.kind = kind ∧ e.2.code = code ∧ e.2.result = result
/-- A command register's write is refused with BUSY: counted, told to the MP where it wrote, and recorded for the host if the record is
free (R60). -/
def State.saysBusy (s s' : State) (host : Bool) (id : Nat) : Prop :=
  s'.rd MR.BUSY_COUNT = satAdd 16 (s.rd MR.BUSY_COUNT) 1 ∧
  (host = true → s.rd MR.BUSY_VALID = 0 → s'.rd MR.BUSY_VALID = 1 ∧ s'.rd MR.BUSY_REQ_CLASS = 1 ∧ s'.rd MR.BUSY_REQ_ID = id) ∧
  s'.outbox = s.outbox ++ if host then [] else [.mpStatus .busy]
/-- FILLER_DUTY of region `r` is `v`, and where that is new it has gone to the cores of the region (R366). -/
def Region.dutyGoes (g g' : Region) (r v : Nat) : Prop :=
  g'.rd RR.FILLER_DUTY = v ∧
  g'.duties = if g.rd RR.FILLER_DUTY = v then g.duties else g.duties ++ [(g.dutySent + 1, ⟨3, r, 0x7FF00 + r, 0, .duty v⟩)]
/-- A stage begins: BOOT_STATUS shows it in progress. -/
def State.atStage (s : State) (k : Nat) : Prop := s.rd MR.STAGE = k ∧ s.rd MR.STAGE_RESULT = 3
/-- A stage has FAILED with a DETAIL, and MOD_STATE is `v`. -/
def State.failedAt (s : State) (k detail v : Nat) : Prop :=
  s.rd MR.STAGE = k ∧ s.rd MR.STAGE_RESULT = 2 ∧ s.rd MR.DETAIL = detail % 2 ^ 16 ∧ s.rd MR.MOD_STATE = v ∧ s.rd MR.STAGE_FAILED = 1
/-- A link-local FM packet of a type passes its checks at port `p`, with its body (R388). -/
def State.linkLocalOk (s : State) (p typ : Nat) (b body : List Byte) : Prop :=
  s.portRd p PR.LINK_UP ≠ 0 ∧ 32 ≤ b.length ∧ leNat ((b.drop 28).take 4) = crc32c (b.take 28) ∧
  (Header.ofBytes b).ctlBody b = some body ∧ (Header.ofBytes b).typ = 7 ∧ (Header.ofBytes b).src = 0xFFFFFFFF ∧
  (Header.ofBytes b).dst = 0xFFFFFFFF ∧ leNat (body.take 1) = typ
/-- Port `p` has sent a link-local FM packet of a type. -/
def State.greets (s s' : State) (p typ : Nat) : Prop :=
  { s' with outbox := s.outbox, freeCount := s.freeCount } = s ∧
  ∃ k, s'.outbox = s.outbox ++ [.ryudon k] ∧ k.port = p ∧ (k.payload.drop 32).take 1 = leBytes 1 typ
/-- The last reset, as RESET_INFO shows it (R392). -/
def State.lastReset (s : State) (domain index cause : Nat) : Prop :=
  s.rd MR.LAST_DOMAIN = domain ∧ s.rd MR.LAST_INDEX = index % 2 ^ 19 ∧ s.rd MR.LAST_CAUSE = cause
/-- Core `n` as a reset leaves it: units and scratchpad empty, its generation one higher (R391). -/
def State.coreIsReset (s s' : State) (n : Nat) : Prop :=
  (s'.core n).threads = [] ∧ (s'.core n).slots = [] ∧ (s'.core n).eng = { (s.core n).eng with queue := [] } ∧
  (s'.core n).comp = (s.core n).comp ∧ (s'.core n).routes = (s.core n).routes ∧ (s'.core n).dma = .reset ∧
  (s'.core n).sec = .idle ∧ (s'.core n).gen = ((s.core n).gen + 1) % 16 ∧ ∀ a, (s'.core n).byteAt a = 0
/-- The module as its reset leaves it: STARTING at stage 2, HALTED, no tick, no job, HBM as it was (R391). -/
def State.moduleIsReset (s s' : State) : Prop :=
  s'.rd MR.MOD_STATE = 0 ∧ s'.atStage 2 ∧ s'.rd MR.RUN_STATE = rsHalted ∧ s'.md.tu = .reset ∧ s'.md.slots = [] ∧ s'.hbm = s.hbm ∧
  s'.md.remap = s.md.remap ∧ s'.rd MR.BOOT_COUNT = s.rd MR.BOOT_COUNT % 2 ^ 32
/-- An operation of the service ring on local core `l` of region `r` reaches core `n`: the TRANSIT domain of the region is ON (R395). -/
def State.srReaches (s : State) (r l n : Nat) : Prop :=
  l < 5184 ∧ coreIn r (l % 72) (l / 72) = n ∧ absentIn s.md.remap n = false ∧ s.dom (4 * r + 3) = domOn
/-- Core `n` is lost: SECTION_ABORT goes to H0, and the core is reset, gated, marked and on the defect list (R401). -/
def State.losesCore (s s' : State) (n : Nat) : Prop :=
  (s'.core n).lost = true ∧ (s'.core n).gated = true ∧ (0, n) ∈ s'.md.boot.held ∧ s.physOf n ∈ s'.md.unusable ∧
  (regionOf n < 56 → s.abortSent s' (regionOf n) ⟨regionOf n, logCoreLost, 1, n⟩)
/-- Message `i` at hub `h` is an FM message of a type, and the first that waits of its flow (R404). -/
def State.fmAt (s : State) (h i typ : Nat) (m : RxMsg) : Prop :=
  (s.hub h).msgs[i]? = some m ∧ ((s.hub h).msgs.take i).any (fun x => decide (x.node = m.node) && decide (x.flow = m.flow)) = false ∧
  m.typ = 7 ∧ leNat (m.body.take 1) = typ
/-- The machine with that message taken. -/
def State.msgTaken (s : State) (h i : Nat) : State := s.updHub h fun u => { u with msgs := u.msgs.eraseIdx i }
/-- The MP's answer to a command of the management interface (R440, log 31). -/
def State.mctpSays (s s' : State) (b : List Byte) : Prop :=
  { s' with outbox := s.outbox } = s ∧ s'.outbox = s.outbox ++ [.mctp b]
/-- The answer to a recovery packet: its OP with bit 7 set, a STATUS, the OFFSET and a code (R416). -/
def State.recoveryAnswered (s s' : State) (op : Byte) (status off code : Nat) : Prop :=
  ∃ k, s'.outbox = s.outbox ++ [.ryudon k] ∧ k.port = 0 ∧
    k.payload = op :: (leBytes 1 status ++ leBytes 2 0 ++ leBytes 4 off ++ leBytes 1 code)
/-- What answers an access of the management interface: STATUS, CAUSE and the data (R440, log 31). -/
def mgmtBytes : DevRes → List Byte
  | .ok b => [0, 0] ++ b
  | .no c => [1] ++ leBytes 1 c.code
  | .busy => [4, 0]
  | .bad => [1, 0]

end Sys2Proof.Machine

open Sys2Proof Sys2Proof.Machine

/-- A step with a command at the front of the queue carries it out on the state with the queue's rest (log 1). -/
def Obligations.StepRunsFront : Prop :=
  ∀ (c : Instr) (rest : List Instr) (s : State), step { s with pending := c :: rest } = exec c { s with pending := rest }

/-- With no command waiting one CCLK passes (the model's choice, log 2): the time advances, nothing but cores changes, and of these
none whose CORE domain is off or that is gated; threads and scratchpads stay as they are. -/
def Obligations.IdleStepPassesOneCycle : Prop :=
  ∀ s : State, s.pending = [] → ∃ s', step s = .next s' ∧ { s' with now := s.now, cores := s.cores } = s ∧ s'.now = s.now + 1 ∧
    ∀ n, (s.dom (4 * regionOf n) ≠ domOn ∨ (s.core n).gated = true → s'.core n = s.core n) ∧
      (s'.core n).threads = (s.core n).threads ∧ ∀ a, (s'.core n).byteAt a = (s.core n).byteAt a

/-- R8, R61, R378, R391: after reset every register holds the reset value of its table (REF_SETTLE_US and DEFECT_HASH show what an
erased flash gives, log 18), no section runs, no command waits, nothing has been sent, and memory lists nothing (what the spec
leaves open at reset is the model's choice, log 6). -/
def Obligations.ResetValues : Prop :=
  (∀ f : Fld, f.key ≠ MR.REF_SETTLE_US.key → (∀ i, i < 8 → f.key ≠ (MR.DEFECT_HASH.at (4 * i)).key) → State.reset.rd f = f.rst) ∧
  (∀ f : Fld, State.reset.md.regs.inForce f = f.rst) ∧
  (∀ (f : Fld) (h : Nat), (State.reset.hub h).rd f = f.rst) ∧ (∀ (f : Fld) (r : Nat), (State.reset.region r).rd f = f.rst) ∧
  (∀ (f : Fld) (n : Nat), (State.reset.core n).rd f = f.rst) ∧
  (∀ n, (State.reset.core n).inSection = false ∧ (State.reset.core n).sec = .idle) ∧
  State.reset.rd MR.MOD_STATE = 0 ∧ State.reset.atStage 1 ∧ State.reset.rd MR.RUN_STATE = rsHalted ∧
  State.reset.md.tu.active = [] ∧ State.reset.md.slots = [] ∧ State.reset.hbm = [] ∧ State.reset.pending = [] ∧ State.reset.outbox = []

/-- Every step keeps HBM in its canonical form, in every state. -/
def Obligations.StepKeepsMemoryForm : Prop :=
  ∀ s s' : State, s.safe = true → step s = .next s' → s'.safe = true

/-- HBM is in its canonical form after reset. -/
def Obligations.ResetHasMemoryForm : Prop :=
  State.reset.safe = true

/-- No command touches the queue or the time, takes back what was sent, or returns to an earlier free value (log 1, log 3). -/
def Obligations.CommandsKeepQueueAndTime : Prop :=
  ∀ (c : Instr) (s s' : State), exec c s = .next s' →
    s'.pending = s.pending ∧ s'.now = s.now ∧ s.outbox <+: s'.outbox ∧ s.freeCount ≤ s'.freeCount

/-- R19: the global coordinates of the core at local column `i` and row `j` of region (rx, ry); the remap never moves a row. -/
def Obligations.GlobalCoordinates : Prop :=
  ∀ rx ry i j : Nat, rx < 8 → ry < 7 → i < 72 → j < 72 →
    let n := coreIn (8 * ry + rx) i j
    coreX n = rx * 72 + i ∧ coreY n = ry * 72 + j ∧ regionOf n = 8 * ry + rx ∧
    ∀ s : State, (s.physOf n).region = 8 * ry + rx ∧ (s.physOf n).row = j

/-- R364: a write of POWER_CAP_W is never refused, and each microsecond CAP_EFF moves toward the written value, within the bounds of
both fields, by what CAP_SLEW_W watts per ms are in 1 µs. -/
def Obligations.PowerCapSlews : Prop :=
  ∀ s : State,
    (∀ v, ∃ s', exec (.powerCapWrite v) s = .next s' ∧ s.onlyMdRegs s' [MR.POWER_CAP_W] ∧ s'.rd MR.POWER_CAP_W = v.toNat) ∧
    ∃ s', exec .capSlewUpdate s = .next s' ∧ s.onlyMd s' ∧
      let want := 1000 * clampTo 5000 27000 (s.rd MR.POWER_CAP_W)
      let slew := clampTo 100 27000 (s.rd MR.CAP_SLEW_W)
      let cap := s.md.pw.capMilli
      s'.md.pw.capMilli = (if cap < want then min want (cap + slew) else max want (cap - slew)) ∧
      s'.rd MR.CAP_EFF_W = s'.md.pw.capMilli / 1000 % 2 ^ 16

/-- R417: ROLLBACK_LEVEL counts the consecutive set bits of ROLLBACK_FUSES from bit 0; ROLLBACK_COMMIT, HALTED and with something to
commit, programs the bits up to IMAGE_ROLLBACK and no other; cut short by a reset it leaves a lower level; the loading of an
image does not touch the fuses. -/
def Obligations.RollbackResult : Prop :=
  ∀ s : State,
    (s.rollbackLevel ≤ 64 ∧ (∀ i, i < s.rollbackLevel → s.md.sec.rollback.testBit i = true) ∧
      (s.rollbackLevel < 64 → s.md.sec.rollback.testBit s.rollbackLevel = false)) ∧
    (s.rd MR.UPD_BUSY = 0 →
      (s.rd MR.RUN_STATE ≠ rsHalted → ∃ s', exec .rollbackCommit s = .next s' ∧ s.onlyMdRegs s' [MR.UPD_RESULT] ∧
        s'.rd MR.UPD_RESULT = 8) ∧
      (s.rd MR.RUN_STATE = rsHalted → s.rd MR.IMAGE_ROLLBACK ≤ s.rollbackLevel → ∃ s', exec .rollbackCommit s = .next s' ∧
        s.onlyMdRegs s' [MR.UPD_RESULT] ∧ s'.rd MR.UPD_RESULT = 9) ∧
      (s.rd MR.RUN_STATE = rsHalted → s.rollbackLevel < s.rd MR.IMAGE_ROLLBACK → ∃ s', exec .rollbackCommit s = .next s' ∧ s.onlyMd s' ∧
        s'.rd MR.UPD_BUSY = 1 ∧ s'.md.sec.commit = true)) ∧
    (s.md.sec.commit = true → ∃ s', exec .rollbackCommitDone s = .next s' ∧ s.onlyMd s' ∧ s'.rd MR.UPD_BUSY = 0 ∧
      s'.rd MR.UPD_RESULT = 0 ∧ s'.md.sec.commit = false ∧
      ∀ i, s'.md.sec.rollback.testBit i = (s.md.sec.rollback.testBit i || decide (i < min 64 (s.rd MR.IMAGE_ROLLBACK)))) ∧
    (s.md.sec.commit = true → s.rollbackLevel ≤ s.rd MR.IMAGE_ROLLBACK → ∃ s' k, exec .mpWatchdogExpiry s = .next s' ∧
      s.rollbackLevel ≤ k ∧ k ≤ s.rd MR.IMAGE_ROLLBACK ∧
      ∀ i, s'.md.sec.rollback.testBit i = (s.md.sec.rollback.testBit i || decide (i < min 64 k))) ∧
    ∀ readOk, ∃ s', exec (.stageImage readOk) s = .next s' ∧ s'.md.sec.rollback = s.md.sec.rollback

/-- R330: without an ACK for either copy of its report when REPORT_WINDOW_NS has passed, the module records FLT_TICK_REPORT_LATE in
the LATE record with LATE_SELF = 1, counts it, and changes nothing else; with one, it records nothing. -/
def Obligations.LateReport : Prop :=
  ∀ (tick : Nat) (acked : Bool) (l : List (Nat × Bool)) (s : State), s.md.reportDue = (tick, acked) :: l →
    (acked = false → ∃ s', exec .reportWindowExpiry s = .next s' ∧
      { s' with md := { s'.md with regs := s.md.regs, log := s.md.log, reportDue := s.md.reportDue } } = s ∧ s'.md.reportDue = l ∧
      (∀ f : Fld, (∀ g ∈ [MR.REPORTS_LATE, MR.LATE_SAT, MR.LATE_VALID, MR.LATE_SELF, MR.LATE_MEMBER, MR.LATE_TICK,
        MR.LATE_ELAPSED_NS, MR.LOG_WR], f.key ≠ g.key) → s'.rd f = s.rd f) ∧
      s'.rd MR.REPORTS_LATE = satAdd 16 (s.rd MR.REPORTS_LATE) 1 ∧ s.logged s' 2 logTickReportLate 0 ∧
      (s.rd MR.LATE_VALID = 0 → s'.rd MR.LATE_VALID = 1 ∧ s'.rd MR.LATE_SELF = 1 ∧ s'.rd MR.LATE_TICK = tick % 2 ^ 32 ∧
        s'.rd MR.LATE_MEMBER = s.groupIndex % 2 ^ MR.LATE_MEMBER.w ∧ s'.rd MR.LATE_ELAPSED_NS = 0xFFFFFFFF) ∧
      (s.rd MR.LATE_VALID ≠ 0 → ∀ f ∈ [MR.LATE_VALID, MR.LATE_SELF, MR.LATE_MEMBER, MR.LATE_TICK, MR.LATE_ELAPSED_NS],
        s'.rd f = s.rd f)) ∧
    (acked = true → ∃ s', exec .reportWindowExpiry s = .next s' ∧
      { s' with md := { s'.md with reportDue := s.md.reportDue } } = s ∧ s'.md.reportDue = l)

/-- R69, integer: every three-register instruction of OP 0x00 completes with its result in g[d], and changes nothing else. -/
def Sys2Proof.Claims.IntegerResult : Prop :=
  ∀ e ∈ intOps, ∀ (n : Nat) (t : BitVec 3) (d a b : BitVec 5) (pg : BitVec 3) (s : State), s.canRunIf n t pg = true →
    ∃ s', exec (e.1 n t d a b pg) s = .next s' ∧
      s.setsG s' n t d (e.2 ((s.thr n t).rg a) ((s.thr n t).rg b))

/-- R69, integer: the shifts by a field, clz and popc. -/
def Sys2Proof.Claims.ShiftAndCountResult : Prop :=
  (∀ e ∈ shiftOps, ∀ (n : Nat) (t : BitVec 3) (d a b : BitVec 5) (pg : BitVec 3) (s : State), s.canRunIf n t pg = true →
    ∃ s', exec (e.1 n t d a b pg) s = .next s' ∧ s.setsG s' n t d (e.2 ((s.thr n t).rg a) b.toNat)) ∧
  ∀ (n : Nat) (t : BitVec 3) (d a : BitVec 5) (pg : BitVec 3) (s : State), s.canRunIf n t pg = true →
    (∃ s' k, exec (.clz n t d a pg) s = .next s' ∧ s.setsG s' n t d (BitVec.ofNat 32 k) ∧ k ≤ 32 ∧
      ((s.thr n t).rg a).toNat < 2 ^ (32 - k) ∧ (k < 32 → 2 ^ (31 - k) ≤ ((s.thr n t).rg a).toNat)) ∧
    (∃ s', exec (.popc n t d a pg) s = .next s' ∧ s.setsG s' n t d
      (BitVec.ofNat 32 ((List.range 32).filter fun i => ((s.thr n t).rg a).getLsbD i).length))

/-- R69, immediate: each completes with its result in g[d], and changes nothing else. -/
def Sys2Proof.Claims.ImmediateResult : Prop :=
  (∀ e ∈ immOps, ∀ (n : Nat) (t : BitVec 3) (d a : BitVec 5) (imm : BitVec 16) (s : State), s.canRun n t = true →
    ∃ s', exec (e.1 n t d a imm) s = .next s' ∧ s.setsG s' n t d (e.2 ((s.thr n t).rg a) imm)) ∧
  ∀ (n : Nat) (t : BitVec 3) (d : BitVec 5) (imm : BitVec 16) (s : State), s.canRun n t = true →
    ∃ s', exec (.lui n t d imm) s = .next s' ∧ s.setsG s' n t d (BitVec.ofNat 32 (imm.toNat * 2 ^ 16))

/-- Integer and immediate instructions: result and frame. -/
def Obligations.IntegerInstructions : Prop :=
  Sys2Proof.Claims.IntegerResult ∧ Sys2Proof.Claims.ShiftAndCountResult ∧ Sys2Proof.Claims.ImmediateResult

/-- R69, branches: br goes to pc_br + 4 × sext(off22) if bit 0 of p[p] equals s, else on; jal and jalr write the address of the next
instruction to g[d] and go to their target. -/
def Sys2Proof.Claims.BranchResult : Prop :=
  ∀ (n : Nat) (t : BitVec 3) (s : State), s.canRun n t = true →
    (∀ (p : BitVec 3) (sv : Bool) (off : BitVec 22), ∃ s', exec (.br n t p sv off) s = .next s' ∧ s.onlyThread s' n t ∧
      (s'.thr n t).pc = (if ((s.thr n t).rp p).getLsbD 0 = sv then BitVec.ofInt 32 ((s.thr n t).pc.toInt + 4 * off.toInt)
        else (s.thr n t).pc + 4) ∧
      (s'.thr n t).g = (s.thr n t).g ∧ (s'.thr n t).p = (s.thr n t).p ∧ (s'.thr n t).v = (s.thr n t).v ∧
      (s'.thr n t).status = .ready) ∧
    (∀ (d : BitVec 5) (off : BitVec 21), ∃ s', exec (.jal n t d off) s = .next s' ∧ s.onlyThread s' n t ∧
      (s'.thr n t).pc = BitVec.ofInt 32 ((s.thr n t).pc.toInt + 4 * off.toInt) ∧
      (s.thr n t).onlyG (s'.thr n t) d ∧ (s'.thr n t).rg d = (if d = 0 then 0 else (s.thr n t).pc + 4) ∧
      (s'.thr n t).status = .ready) ∧
    ∀ (d a : BitVec 5) (imm : BitVec 16), ∃ s', exec (.jalr n t d a imm) s = .next s' ∧ s.onlyThread s' n t ∧
      (s'.thr n t).pc = BitVec.ofNat 32
        ((BitVec.ofInt 32 (((s.thr n t).rg a).toInt + imm.toInt)).toNat / 4 * 4) ∧
      (s.thr n t).onlyG (s'.thr n t) d ∧ (s'.thr n t).rg d = (if d = 0 then 0 else (s.thr n t).pc + 4) ∧
      (s'.thr n t).status = .ready

/-- R69, R76, R80, control: thr.id gives the thread's number; fence, with no far store unacknowledged, empties the fetch buffer;
thr.end, with its three conditions, ends the thread; dbg.brk stops it with debug access open and has no effect with it closed. -/
def Sys2Proof.Claims.ControlResult : Prop :=
  ∀ (n : Nat) (t : BitVec 3) (pg : BitVec 3) (s : State), s.canRunIf n t pg = true →
    (∀ d : BitVec 5, ∃ s', exec (.thrId n t d pg) s = .next s' ∧ s.setsG s' n t d (BitVec.ofNat 32 t.toNat)) ∧
    ((s.thr n t).farStores = 0 → ∃ s', exec (.fence n t pg) s = .next s' ∧ s.onlyThread s' n t ∧
      (s.thr n t).advanced (s'.thr n t) ∧ (s'.thr n t).fetchAddr = none ∧ (s'.thr n t).g = (s.thr n t).g ∧
      (s'.thr n t).v = (s.thr n t).v ∧ (s'.thr n t).p = (s.thr n t).p) ∧
    ((s.thr n t).farStores = 0 → ((s.core n).dma.queue.all fun d => decide (d.poster ≠ t.toNat)) = true →
      (t.toNat = (s.core n).eng.owner → (s.core n).eng.queue = []) →
      ∃ s', exec (.thrEnd n t pg) s = .next s' ∧ s.onlyThread s' n t ∧ (s'.thr n t).status = .ended ∧
        (s'.thr n t).pc = (s.thr n t).pc ∧ (s'.thr n t).g = (s.thr n t).g) ∧
    ∃ s', exec (.dbgBrk n t pg) s = .next s' ∧ s.onlyThread s' n t ∧ (s'.thr n t).g = (s.thr n t).g ∧
      (s'.thr n t).status = (if s.rd MR.DEBUG_STATE = 0 then .ready else .stopped) ∧
      (s'.thr n t).pc = (if s.rd MR.DEBUG_STATE = 0 then (s.thr n t).pc + 4 else (s.thr n t).pc)

/-- R72, R80: fence and thr.end whose conditions do not hold are spins: the thread waits at the same instruction, the spin is
counted, and no register changes. -/
def Sys2Proof.Claims.SpinChangesNothing : Prop :=
  ∀ (n : Nat) (t : BitVec 3) (pg : BitVec 3) (s : State), s.canRunIf n t pg = true → (s.thr n t).farStores ≠ 0 →
    ∀ i, i = Instr.fence n t pg ∨ i = Instr.thrEnd n t pg →
    ∃ s', exec i s = .next s' ∧ s.keepsOutside s' n ∧ (s.core n).keepsOthers (s'.core n) t ∧
      (s.core n).keepsRegs (s'.core n) [CR.SPIN_CYCLES, CR.CE_COUNT, CR.CE_SAT] ∧
      (s'.thr n t).status = .waiting ∧ (s'.thr n t).pc = (s.thr n t).pc ∧ (s'.thr n t).g = (s.thr n t).g ∧
      (s'.thr n t).v = (s.thr n t).v ∧ (s'.thr n t).p = (s.thr n t).p ∧
      (s'.core n).rd CR.SPIN_CYCLES = min ((s.core n).rd CR.SPIN_CYCLES + 1) (2 ^ 32 - 1)

/-- Branches, control instructions and their spins. -/
def Obligations.ControlInstructions : Prop :=
  Sys2Proof.Claims.BranchResult ∧ Sys2Proof.Claims.ControlResult ∧ Sys2Proof.Claims.SpinChangesNothing

/-- R69, compares and predicates: each completes with its result in p[d] (p.getg in g[d]), and changes nothing else. -/
def Obligations.PredicateResult : Prop :=
  (∀ e ∈ cmpOps, ∀ (n : Nat) (t d : BitVec 3) (a b : BitVec 5) (pg : BitVec 3) (s : State), s.canRunIf n t pg = true →
    ∃ s', exec (e.1 n t d a b pg) s = .next s' ∧
      s.setsP s' n t d (if e.2 ((s.thr n t).rg a) ((s.thr n t).rg b) then 0xFFFF else 0)) ∧
  (∀ e ∈ predOps, ∀ (n : Nat) (t d a b pg : BitVec 3) (s : State), s.canRunIf n t pg = true →
    ∃ s', exec (e.1 n t d a b pg) s = .next s' ∧ s.setsP s' n t d (e.2 ((s.thr n t).rp a) ((s.thr n t).rp b))) ∧
  ∀ (n : Nat) (t pg : BitVec 3) (s : State), s.canRunIf n t pg = true →
    (∀ (d : BitVec 3) (a : BitVec 5), ∃ s', exec (.pSetg n t d a pg) s = .next s' ∧
      s.setsP s' n t d (BitVec.ofNat 16 ((s.thr n t).rg a).toNat)) ∧
    (∀ (d : BitVec 5) (a : BitVec 3), ∃ s', exec (.pGetg n t d a pg) s = .next s' ∧
      s.setsG s' n t d (BitVec.ofNat 32 ((s.thr n t).rp a).toNat)) ∧
    ∀ d a : BitVec 3,
      (∃ s', exec (.pAny n t d a pg) s = .next s' ∧ s.setsP s' n t d (if (s.thr n t).rp a ≠ 0 then 0xFFFF else 0)) ∧
      ∃ s', exec (.pAll n t d a pg) s = .next s' ∧ s.setsP s' n t d (if (s.thr n t).rp a = 0xFFFF then 0xFFFF else 0)

/-- R68: a G-form instruction whose guard predicate has bit 0 equal to 0 only goes on to the next instruction. -/
def Obligations.FalseGuardHasNoEffect : Prop :=
  ∀ (i : Instr) (n : Nat) (t pg : BitVec 3) (s : State), guardOf i = some (n, t, pg) → s.canRun n t = true →
    ((s.thr n t).rp pg).getLsbD 0 = false →
    ∃ s', exec i s = .next s' ∧ s.onlyThread s' n t ∧ s.wentOn s' n t

/-- R68, R69: the lane instructions complete; a lane whose mask bit is 0 keeps its old value. -/
def Sys2Proof.Claims.LaneResult : Prop :=
  (∀ e ∈ laneOps2, ∀ (n : Nat) (t : BitVec 3) (d a b : BitVec 4) (pg : BitVec 3) (s : State), s.canRun n t = true →
    ∃ s', exec (e.1 n t d a b pg) s = .next s' ∧ s.setsV s' n t d ((s.thr n t).rp pg)
      fun i => e.2 (((s.thr n t).rv a).lane i) (((s.thr n t).rv b).lane i)) ∧
  (∀ e ∈ laneOps1, ∀ (n : Nat) (t : BitVec 3) (d a : BitVec 4) (pg : BitVec 3) (s : State), s.canRun n t = true →
    ∃ s', exec (e.1 n t d a pg) s = .next s' ∧ s.setsV s' n t d ((s.thr n t).rp pg)
      fun i => e.2 (((s.thr n t).rv a).lane i)) ∧
  ∀ (n : Nat) (t : BitVec 3) (d a b c : BitVec 4) (q pg : BitVec 3) (s : State), s.canRun n t = true →
    (∃ s', exec (.vfma n t d a b c pg) s = .next s' ∧ s.setsV s' n t d ((s.thr n t).rp pg) fun i =>
      (fpFma (((s.thr n t).rv a).lane i) (((s.thr n t).rv b).lane i) (((s.thr n t).rv c).lane i)).1) ∧
    (∃ s', exec (.vsel n t d a b q pg) s = .next s' ∧ s.setsV s' n t d ((s.thr n t).rp pg) fun i =>
      if ((s.thr n t).rp q).getLsbD i then ((s.thr n t).rv a).lane i else ((s.thr n t).rv b).lane i) ∧
    (∃ s', exec (.vperm n t d a b) s = .next s' ∧ s.setsV s' n t d 0xFFFF fun i =>
      ((s.thr n t).rv a).lane ((((s.thr n t).rv b).lane i).toNat % 16))

/-- R68, R69: the lane compares write the bits of p[d] that the mask lets through. -/
def Sys2Proof.Claims.LaneCompareResult : Prop :=
  ∀ e ∈ laneCmps, ∀ (n : Nat) (t d : BitVec 3) (a b : BitVec 4) (pg : BitVec 3) (s : State), s.canRun n t = true →
    ∃ s', exec (e.1 n t d a b pg) s = .next s' ∧ ∃ x : BitVec 16, s.setsP s' n t d x ∧ ∀ i, i < 16 → x.getLsbD i =
      if ((s.thr n t).rp pg).getLsbD i then e.2 (((s.thr n t).rv a).lane i) (((s.thr n t).rv b).lane i)
      else ((s.thr n t).rp d).getLsbD i

/-- R142: an FP32 lane instruction adds the events of its unmasked lanes to the core's counters, which saturate. -/
def Sys2Proof.Claims.EventsAreCounted : Prop :=
  ∀ (n : Nat) (t : BitVec 3) (d a b : BitVec 4) (pg : BitVec 3) (s : State), s.canRun n t = true →
    ∀ e ∈ [(Instr.vadd n t d a b pg, fpAdd), (.vsub n t d a b pg, fpSub), (.vmul n t d a b pg, fpMul)],
    ∃ s', exec e.1 s = .next s' ∧
      let ev := (List.range 16).map fun i => if ((s.thr n t).rp pg).getLsbD i
        then (e.2 (((s.thr n t).rv a).lane i) (((s.thr n t).rv b).lane i)).2 else Events.zero
      let counted (f : Fld) (k : Nat) : Prop :=
        (s'.core n).rd f = if k = 0 then (s.core n).rd f else min ((s.core n).rd f + k) (2 ^ f.w - 1)
      counted CR.NAN_COUNT (ev.map Events.nan).sum ∧ counted CR.OVF_COUNT (ev.map Events.ovf).sum ∧
      counted CR.CLAMP_COUNT (ev.map Events.clamp).sum ∧ counted CR.UNF_COUNT (ev.map Events.unf).sum

/-- Vector arithmetic by lane, under its mask, with its events. -/
def Obligations.LaneInstructions : Prop :=
  Sys2Proof.Claims.LaneResult ∧ Sys2Proof.Claims.LaneCompareResult ∧ Sys2Proof.Claims.EventsAreCounted

/-- R69: the reductions sum or take the maximum of the lanes as a pairwise tree into lane 0, the other lanes 0; the exchange
instructions move one word between a vector and a g register. -/
def Sys2Proof.Claims.ReduceAndExchangeResult : Prop :=
  ∀ (n : Nat) (t : BitVec 3) (d a : BitVec 4) (s : State), s.canRun n t = true →
    let x (i : Nat) : Word := ((s.thr n t).rv a).lane i
    let tree (f : Word → Word → Word) : Word :=
      let p (i : Nat) : Word := f (x (2 * i)) (x (2 * i + 1))
      f (f (f (p 0) (p 1)) (f (p 2) (p 3))) (f (f (p 4) (p 5)) (f (p 6) (p 7)))
    (∃ s', exec (.vredAdd n t d a) s = .next s' ∧
      s.setsV s' n t d 0xFFFF fun i => if i = 0 then tree fun y z => (fpAdd y z).1 else 0) ∧
    (∃ s', exec (.vredMax n t d a) s = .next s' ∧ s.setsV s' n t d 0xFFFF fun i => if i = 0 then tree fpMax else 0) ∧
    ∀ pg : BitVec 3, s.canRunIf n t pg = true →
      (∀ g : BitVec 5, ∃ s', exec (.vbcast n t d g pg) s = .next s' ∧ s.setsV s' n t d 0xFFFF fun _ => (s.thr n t).rg g) ∧
      (∀ e b : BitVec 5, ∃ s', exec (.vext n t e a b pg) s = .next s' ∧
        s.setsG s' n t e (x (((s.thr n t).rg b).toNat % 16))) ∧
      (∀ g b : BitVec 5, ∃ s', exec (.vins n t d g b pg) s = .next s' ∧ s.setsV s' n t d 0xFFFF fun i =>
        if i = ((s.thr n t).rg b).toNat % 16 then (s.thr n t).rg g else ((s.thr n t).rv d).lane i)

/-- R141: the compensated-sum instructions write the pairs of their algorithms under the mask; cs.round writes one register. -/
def Sys2Proof.Claims.CompensatedSumResult : Prop :=
  ∀ (n : Nat) (t : BitVec 3) (d a b : BitVec 4) (pg : BitVec 3) (s : State), s.canRun n t = true →
    let m := (s.thr n t).rp pg
    let x (r : BitVec 4) (i : Nat) : Word := ((s.thr n t).rv r).lane i
    (oddReg d = false →
      (∃ s', exec (.csTsum n t d a b pg) s = .next s' ∧ s.setsPair s' n t d m fun i => (twoSum (x a i) (x b i)).1) ∧
      (∃ s', exec (.csTprod n t d a b pg) s = .next s' ∧ s.setsPair s' n t d m fun i => (twoProd (x a i) (x b i)).1)) ∧
    (oddReg d = false → oddReg a = false →
      (oddReg b = false → ∃ s', exec (.csPadd n t d a b pg) s = .next s' ∧
        s.setsPair s' n t d m fun i => (csPadd ((s.thr n t).pairAt a i) ((s.thr n t).pairAt b i)).1) ∧
      (∃ s', exec (.csPmul n t d a b pg) s = .next s' ∧
        s.setsPair s' n t d m fun i => (csPmul ((s.thr n t).pairAt a i) (x b i)).1) ∧
      (∃ s', exec (.csNorm n t d a pg) s = .next s' ∧ s.setsPair s' n t d m fun i => (twoSum (x a i) (x (a + 1) i)).1) ∧
      (∃ s', exec (.csPred n t d a) s = .next s' ∧
        let p (i : Nat) : Word × Word := (csPadd ((s.thr n t).pairAt a (2 * i)) ((s.thr n t).pairAt a (2 * i + 1))).1
        let q (u v : Word × Word) : Word × Word := (csPadd u v).1
        let r := q (q (q (p 0) (p 1)) (q (p 2) (p 3))) (q (q (p 4) (p 5)) (q (p 6) (p 7)))
        s.setsPair s' n t d 0xFFFF fun i => if i = 0 then r else (0, 0))) ∧
    (oddReg a = false → ∃ s', exec (.csRound n t d a pg) s = .next s' ∧
      s.setsV s' n t d m fun i => (fpAdd (x a i) (x (a + 1) i)).1)

/-- Reductions, exchanges and compensated sums. -/
def Obligations.ExchangeInstructions : Prop :=
  Sys2Proof.Claims.ReduceAndExchangeResult ∧ Sys2Proof.Claims.CompensatedSumResult

/-- R69, R135, R138: the narrowing conversions write their elements, in the thread's rounding and overflow modes, where the mask
lets the 32-bit lane through, keep every other byte, and advance ec by the number of elements; the widening ones are exact. -/
def Sys2Proof.Claims.ConversionResult : Prop :=
  ∀ (n : Nat) (t : BitVec 3) (d a b : BitVec 4) (pg : BitVec 3) (s : State), s.canRun n t = true →
    (∀ (k : BitVec 2), ∀ e ∈ narrowOps d a b k,
      let w := e.2.2.1; let b0 := e.2.2.2.1; let m := e.2.2.2.2.1; let src := e.2.2.2.2.2
      ∃ s', exec (e.1 n t pg) s = .next s' ∧ s.onlyThreadEvents s' n t ∧ (s.thr n t).advanced (s'.thr n t) ∧
        (s'.thr n t).ec = (s.thr n t).ec + BitVec.ofNat 32 m ∧ (s'.thr n t).g = (s.thr n t).g ∧
        (s'.thr n t).p = (s.thr n t).p ∧ (∀ r, r ≠ d → (s'.thr n t).rv r = (s.thr n t).rv r) ∧
        (∀ j, j < m → elemAt ((s'.thr n t).rv d) b0 w j =
          if ((s.thr n t).rp pg).getLsbD ((b0 + j * w) / 4)
          then (cvtElem e.2.1 (s.core n) n t (s.thr n t).ec j (src (s.thr n t) j)).1 % 2 ^ (8 * w)
          else elemAt ((s.thr n t).rv d) b0 w j) ∧
        ∀ j, j < 64 → ¬ (b0 ≤ j ∧ j < b0 + m * w) → ((s'.thr n t).rv d).byte j = ((s.thr n t).rv d).byte j) ∧
    ∀ (k1 : BitVec 1) (k2 : BitVec 2), ∀ e ∈ widenOps d a k1 k2,
      ∃ s', exec (e.1 n t pg) s = .next s' ∧ s.setsV s' n t d ((s.thr n t).rp pg) fun i =>
        (toFp32 true (e.2.1.decode (elemAt ((s.thr n t).rv a) 0 e.2.2.1 (16 * e.2.2.2 + i)))).1

/-- R69, R137, R138: rnd.ec sets the element counter; rnd.u32 and vrnd give the generator words of a stream other than 0 at ec and
advance it by 1 and 16. -/
def Sys2Proof.Claims.RandomResult : Prop :=
  ∀ (n : Nat) (t pg : BitVec 3) (s : State), s.canRunIf n t pg = true →
    let th := s.thr n t
    let seed := BitVec.ofNat 64 ((s.core n).rd CR.ROUND_SEED_LO + 2 ^ 32 * (s.core n).rd CR.ROUND_SEED_HI)
    let word (b : BitVec 5) (e : Word) : Word := Machine.gen seed (BitVec.ofNat 64 (s.core n).secTick) n b.toNat e
    (∀ a : BitVec 5, ∃ s', exec (.rndEc n t a pg) s = .next s' ∧ s.onlyThread s' n t ∧ th.advanced (s'.thr n t) ∧
      (s'.thr n t).ec = th.rg a ∧ (s'.thr n t).g = th.g ∧ (s'.thr n t).v = th.v ∧ (s'.thr n t).p = th.p) ∧
    (∀ d b : BitVec 5, b ≠ 0 → ∃ s', exec (.rndU32 n t d b pg) s = .next s' ∧ s.onlyThread s' n t ∧
      th.advanced (s'.thr n t) ∧ (s'.thr n t).ec = th.ec + 1 ∧ (s'.thr n t).rg d = (if d = 0 then 0 else word b th.ec) ∧
      (∀ e, e ≠ d → (s'.thr n t).rg e = th.rg e) ∧ (s'.thr n t).v = th.v ∧ (s'.thr n t).p = th.p) ∧
    ∀ (d : BitVec 4) (b : BitVec 5), b ≠ 0 → ∃ s', exec (.vrnd n t d b pg) s = .next s' ∧ s.onlyThread s' n t ∧
      th.advanced (s'.thr n t) ∧ (s'.thr n t).ec = th.ec + 16 ∧
      (∀ i, i < 16 → ((s'.thr n t).rv d).lane i = word b (th.ec + BitVec.ofNat 32 i)) ∧
      (∀ e, e ≠ d → (s'.thr n t).rv e = th.rv e) ∧ (s'.thr n t).g = th.g ∧ (s'.thr n t).p = th.p

/-- Conversions between formats, and random values. -/
def Obligations.ConversionInstructions : Prop :=
  Sys2Proof.Claims.ConversionResult ∧ Sys2Proof.Claims.RandomResult

/-- R69, R73: the narrow loads and vld read the scratchpad and write their destination. -/
def Sys2Proof.Claims.LoadResult : Prop :=
  ∀ (n : Nat) (t : BitVec 3) (d a : BitVec 5) (imm : BitVec 16) (s : State), s.canRun n t = true →
    let at_ := (s.thr n t).narrow a imm
    (∀ e ∈ loadOps, reaches at_ e.2.1 → (s.core n).cleanAt at_ e.2.1 = true →
      ∃ s', exec (e.1 n t d a imm) s = .next s' ∧ s.setsG s' n t d (e.2.2 ((s.core n).valueAt at_ e.2.1))) ∧
    (reaches at_ 8 → (s.core n).cleanAt at_ 8 = true → oddReg d = false →
      ∃ s', exec (.ldD n t d a imm) s = .next s' ∧ s.loads s' n t ∧
        (s'.thr n t).rg d = (if d = 0 then 0 else BitVec.ofNat 32 ((s.core n).valueAt at_ 4)) ∧
        (s'.thr n t).rg (d + 1) = BitVec.ofNat 32 ((s.core n).valueAt (at_ + 4) 4) ∧
        (∀ e, e ≠ d → e ≠ d + 1 → (s'.thr n t).rg e = (s.thr n t).rg e) ∧ (s'.thr n t).v = (s.thr n t).v ∧
        (s'.thr n t).p = (s.thr n t).p ∧ (s'.thr n t).ec = (s.thr n t).ec) ∧
    ∀ v : BitVec 4, reaches at_ 64 → (s.core n).cleanAt at_ 64 = true →
      ∃ s', exec (.vld n t v a imm) s = .next s' ∧ s.loads s' n t ∧
        (∀ i, i < 64 → ((s'.thr n t).rv v).byte i = (s.core n).byteAt (at_ + i)) ∧
        (∀ e, e ≠ v → (s'.thr n t).rv e = (s.thr n t).rv e) ∧ (s'.thr n t).g = (s.thr n t).g ∧
        (s'.thr n t).p = (s.thr n t).p ∧ (s'.thr n t).ec = (s.thr n t).ec

/-- R69, R73: the narrow stores and vst write exactly the bytes they name; a word written in part must not be uncorrectable (R99). -/
def Sys2Proof.Claims.StoreResult : Prop :=
  ∀ (n : Nat) (t : BitVec 3) (d a : BitVec 5) (imm : BitVec 16) (s : State), s.canRun n t = true →
    let at_ := (s.thr n t).narrow a imm
    (∀ e ∈ storeOps, reaches at_ e.2 → (s.core n).cleanAt at_ e.2 = true →
      ∃ s', exec (e.1 n t d a imm) s = .next s' ∧ s.stores s' n t at_ e.2 ((s.thr n t).rg d).toNat) ∧
    (reaches at_ 8 → oddReg d = false → ∃ s', exec (.stD n t d a imm) s = .next s' ∧
      s.stores s' n t at_ 8 (((s.thr n t).rg d).toNat + 2 ^ 32 * ((s.thr n t).rg (d + 1)).toNat)) ∧
    ∀ v : BitVec 4, reaches at_ 64 → ∃ s', exec (.vst n t v a imm) s = .next s' ∧
      s.stores s' n t at_ 64 ((s.thr n t).rv v).toNat

/-- Narrow and vector loads and stores reach their bytes and no others. -/
def Obligations.NarrowMemoryInstructions : Prop :=
  Sys2Proof.Claims.LoadResult ∧ Sys2Proof.Claims.StoreResult

/-- R73, R81: a misaligned narrow access raises FLT_MISALIGNED, and an aligned one outside the scratchpad and, for ld.w and st.w,
outside the registers raises FLT_LOCAL_ADDR: the thread stops with nothing loaded or stored. -/
def Sys2Proof.Claims.BadNarrowAddressFaults : Prop :=
  ∀ (n : Nat) (t : BitVec 3) (d a : BitVec 5) (v : BitVec 4) (imm : BitVec 16) (s : State), s.canRun n t = true →
    let at_ := (s.thr n t).narrow a imm
    ∀ e ∈ accesses d a v imm, (e.2.1 = 8 → oddReg d = false) →
      (at_ % e.2.1 ≠ 0 → ∃ s', exec (e.1 n t) s = .next s' ∧ s.faults s' n t fltMisaligned at_ ∧
        (s'.core n).spad = (s.core n).spad) ∧
      (at_ % e.2.1 = 0 → spadSize < at_ + e.2.1 → (e.2.2 = false ∨ at_ < 0xF0000 ∨ 0x100000 ≤ at_) →
        ∃ s', exec (e.1 n t) s = .next s' ∧ s.faults s' n t fltLocalAddr at_ ∧ (s'.core n).spad = (s.core n).spad)

/-- R67, R81: an illegal word raises FLT_ILLEGAL_INSN when it issues, whatever its guard; the word 0 is illegal. -/
def Sys2Proof.Claims.IllegalWordFaults : Prop :=
  legalWord 0 = false ∧
  ∀ (n : Nat) (t : BitVec 3) (w : Word) (s : State), s.canRun n t = true → legalWord w.toNat = false →
    ∃ s', exec (.illegalInsn n t w) s = .next s' ∧ s.faults s' n t fltIllegalInsn 0 ∧
      ((s.core n).rd CR.FAULT_VALID = 0 → (s'.core n).rd CR.FAULT_INSN = w.toNat) ∧ (s'.core n).spad = (s.core n).spad

/-- An illegal word and a bad address fault, with nothing loaded, stored or written. -/
def Obligations.IllegalAndBadAddressFault : Prop :=
  Sys2Proof.Claims.BadNarrowAddressFaults ∧ Sys2Proof.Claims.IllegalWordFaults

/-- R75, R76, R180, R301: a far load of a legal, aligned address, with the share, room at the local port and the turn, sends its request
for the 64-byte block at once, and else the request waits; its thread waits for the reply with nothing written. -/
def Sys2Proof.Claims.FarLoadIsRequested : Prop :=
  ∀ (n : Nat) (t : BitVec 3) (d a : BitVec 5) (imm : BitVec 16) (s : State), s.canRun n t = true → oddReg a = false →
    ((s.thr n t).rg (a + 1)).toNat < 2 ^ 16 →
    let at_ := (s.thr n t).far a imm
    let goes := (s.core n).memWait = [] ∧ (s.core n).canRequest = true ∧ (s.core n).turnNow n true = some 0
    ∀ e ∈ [(Instr.fldW n t d a imm, 4, false), (.fldD n t d a imm, 8, true)], at_ % e.2.1 = 0 → (e.2.2 = true → oddReg d = false) →
      ∃ s' insn, exec e.1 s = .next s' ∧ s.keepsOutside s' n ∧ (s.core n).keepsOthers (s'.core n) t ∧
        (s'.thr n t).status = .waiting ∧ (s'.thr n t).farLoad = some ⟨at_, d, e.2.2, insn⟩ ∧
        (s'.thr n t).g = (s.thr n t).g ∧ (s'.thr n t).v = (s.thr n t).v ∧ (s'.thr n t).p = (s.thr n t).p ∧
        (s'.thr n t).pc = (s.thr n t).pc ∧ (s.core n).keepsRegs (s'.core n) issueRegs ∧ (s'.core n).spad = (s.core n).spad ∧
        (goes → (s'.core n).balance + 64 * 65536 = (s.core n).balance ∧ (s'.core n).memWait = [] ∧
          (s'.core n).inBuf 0 1 = (s.core n).inBuf 0 1 ++
            (let p := Payload.mreq (farReq s n t at_ insn)
             if outsOf s.md.remap n p = [] then [] else [⟨p, outsOf s.md.remap n p, none, s.now⟩])) ∧
        (¬ goes → (s'.core n).balance = (s.core n).balance ∧ (s'.core n).router = (s.core n).router ∧
          (s'.core n).memWait = (s.core n).memWait ++ [farReq s n t at_ insn])

/-- R75, R76, R180, R204, R301: a far store of a legal, aligned address, with fewer than four of the thread unacknowledged, is posted:
its request carries the bytes under its mask; with the share, room and the turn it leaves and the thread goes on, and else the thread
waits until it leaves. -/
def Sys2Proof.Claims.FarStoreIsPosted : Prop :=
  ∀ (n : Nat) (t : BitVec 3) (d a : BitVec 5) (imm : BitVec 16) (s : State), s.canRun n t = true → oddReg a = false →
    ((s.thr n t).rg (a + 1)).toNat < 2 ^ 16 → (s.thr n t).farStores < 4 →
    let at_ := (s.thr n t).far a imm
    let goes := (s.core n).memWait = [] ∧ (s.core n).canRequest = true ∧ (s.core n).turnNow n true = some 0
    ∀ e ∈ [(Instr.fstW n t d a imm, 4, ((s.thr n t).rg d).toNat),
           (.fstD n t d a imm, 8, ((s.thr n t).rg d).toNat + 2 ^ 32 * ((s.thr n t).rg (d + 1)).toNat)],
      at_ % e.2.1 = 0 → (e.2.1 = 8 → oddReg d = false) →
      ∃ s' insn, exec e.1 s = .next s' ∧ s.keepsOutside s' n ∧ (s.core n).keepsOthers (s'.core n) t ∧
        (s'.thr n t).pc = (s.thr n t).pc + 4 ∧ (s'.thr n t).g = (s.thr n t).g ∧
        (s'.thr n t).v = (s.thr n t).v ∧ (s'.thr n t).p = (s.thr n t).p ∧ (s'.thr n t).farStores = (s.thr n t).farStores + 1 ∧
        (s.core n).keepsRegs (s'.core n) issueRegs ∧ (s'.core n).spad = (s.core n).spad ∧
        let q : MReq := { farReq s n t at_ insn with write := true, data := BitVec.ofNat 512 (e.2.2 * 2 ^ (8 * (at_ % 64))),
                                                     mask := (2 ^ e.2.1 - 1) * 2 ^ (at_ % 64) }
        (goes → (s'.thr n t).status = .ready ∧ (s'.core n).balance + 64 * 65536 = (s.core n).balance ∧ (s'.core n).memWait = [] ∧
          (s'.core n).inBuf 0 1 = (s.core n).inBuf 0 1 ++
            (if outsOf s.md.remap n (.mreq q) = [] then [] else [⟨.mreq q, outsOf s.md.remap n (.mreq q), none, s.now⟩])) ∧
        (¬ goes → (s'.thr n t).status = .waiting ∧ (s'.core n).balance = (s.core n).balance ∧
          (s'.core n).router = (s.core n).router ∧ (s'.core n).memWait = (s.core n).memWait ++ [q])

/-- Far loads wait for their reply, far stores are posted. -/
def Obligations.FarMemoryInstructions : Prop :=
  Sys2Proof.Claims.FarLoadIsRequested ∧ Sys2Proof.Claims.FarStoreIsPosted

/-- R8, R86: csr.r gives the register's word and clears its RC fields; csr.w stores the RW fields and clears the W1C bits written as
1; csr.s and csr.c set and clear bits of the RW fields only; the status in g[d] is 0. A write of HM_FOLD folds, which is stated
apart. -/
def Sys2Proof.Claims.RegisterInstructionResult : Prop :=
  ∀ (n : Nat) (t : BitVec 3) (d a : BitVec 5) (imm : BitVec 16) (s : State), s.canRun n t = true →
    let s1 := s.fetched n t
    let w : Nat := s1.coreWord n imm.toNat
    let x : Nat := ((s.thr n t).rg a).toNat
    let fs := (fieldsAt CR.table imm.toNat).filter fun f => f.key ≠ CR.WDOG_COUNT.key
    let old (f : Fld) : Nat := (s1.core n).rd f
    let ran (s' : State) (v : Word) : Prop := s.keepsOutside s' n ∧ (s.core n).keepsOthers (s'.core n) t ∧
      (s'.core n).restored (s.core n) = s.core n ∧ (s1.core n).keepsRegs (s'.core n) (CR.WDOG_COUNT :: fs) ∧
      (s.thr n t).advanced (s'.thr n t) ∧ (s.thr n t).onlyG (s'.thr n t) d ∧ (s'.thr n t).rg d = if d = 0 then 0 else v
    (∃ s', exec (.csrR n t d imm) s = .next s' ∧ ran s' (BitVec.ofNat 32 w) ∧
      ∀ f ∈ fs, (s'.core n).rd f = if f.acc = .rc then 0 else old f) ∧
    (imm.toNat ≠ CR.HM_FOLD.off → ∃ s', exec (.csrW n t d a imm) s = .next s' ∧ ran s' 0 ∧
      ∀ f ∈ fs, (s'.core n).rd f = match f.acc with
        | .rw => x / 2 ^ f.lo % 2 ^ f.w
        | .w1c => (old f - (old f &&& (x / 2 ^ f.lo % 2 ^ f.w))) % 2 ^ f.w
        | _ => old f) ∧
    (∃ s', exec (.csrS n t d a imm) s = .next s' ∧ ran s' 0 ∧
      ∀ f ∈ fs, (s'.core n).rd f = if f.acc = .rw then (w ||| x) / 2 ^ f.lo % 2 ^ f.w else old f) ∧
    ∃ s', exec (.csrC n t d a imm) s = .next s' ∧ ran s' 0 ∧
      ∀ f ∈ fs, (s'.core n).rd f = if f.acc = .rw then (w - (w &&& x)) / 2 ^ f.lo % 2 ^ f.w else old f

/-- R73: an aligned ld.w or st.w in the register window acts as csr.r or csr.w on that register. -/
def Sys2Proof.Claims.WindowAccessActsAsCsr : Prop :=
  ∀ (n : Nat) (t : BitVec 3) (d a : BitVec 5) (imm : BitVec 16) (s : State), s.canRun n t = true →
    let at_ := (s.thr n t).narrow a imm
    0xF0000 ≤ at_ → at_ < 0x100000 → at_ % 4 = 0 →
    exec (.ldW n t d a imm) s = exec (.csrR n t d (BitVec.ofNat 16 (at_ - 0xF0000))) s ∧
    exec (.stW n t d a imm) s = exec (.csrW n t 0 d (BitVec.ofNat 16 (at_ - 0xF0000))) s

/-- csr.r, csr.w, csr.s, csr.c, and narrow accesses to the register range. -/
def Obligations.RegisterInstructions : Prop :=
  Sys2Proof.Claims.RegisterInstructionResult ∧ Sys2Proof.Claims.WindowAccessActsAsCsr

/-- R69, R78, R119: a command of the engine owner enters the queue of four behind the others; mx.run and mx.out need an aligned
address in the scratchpad; mx.wait is satisfied by an empty queue; mx.stat and cz.stat give their status words. -/
def Sys2Proof.Claims.EngineCommandIsQueued : Prop :=
  ∀ (n : Nat) (t pg : BitVec 3) (a d : BitVec 5) (s : State), s.canRunIf n t pg = true → (s.core n).eng.owner = t.toNat →
    let x := (s.thr n t).rg a
    (∀ e ∈ queueOps, (s.core n).eng.queue.length < 4 → (e.2.2 ≠ 0 → x.toNat % e.2.2 = 0 ∧ x.toNat < spadSize) →
      ∃ s', exec (e.1 n t a pg) s = .next s' ∧ s.onlyUnit s' n t undoEng [] ∧ s.wentOn s' n t ∧
        (s'.core n).eng = { (s.core n).eng with queue := (s.core n).eng.queue ++ [e.2.1 x] }) ∧
    ((s.core n).eng.queue = [] → ∃ s', exec (.mxWait n t pg) s = .next s' ∧ s.onlyThread s' n t ∧ s.wentOn s' n t) ∧
    (∃ s', exec (.mxStat n t d pg) s = .next s' ∧ s.setsG s' n t d (BitVec.ofNat 32 (s.core n).engineStatus)) ∧
    ∃ s', exec (.czStat n t d pg) s = .next s' ∧ s.setsG s' n t d (BitVec.ofNat 32 (s.core n).czStatus)

/-- R78: an mx.* or cz.* command of another thread raises FLT_ILLEGAL_INSN when its guard is true. -/
def Sys2Proof.Claims.EngineCommandOfAnotherThreadFaults : Prop :=
  ∀ (n : Nat) (t pg : BitVec 3) (a d : BitVec 5) (s : State), s.canRunIf n t pg = true → (s.core n).eng.owner ≠ t.toNat →
    ∀ i ∈ queueOps.map (fun e => e.1 n t a pg) ++ [.mxWait n t pg, .mxStat n t d pg, .czStat n t d pg],
      ∃ s', exec i s = .next s' ∧ s.faults s' n t fltIllegalInsn 0 ∧ (s'.core n).eng = (s.core n).eng

/-- R299, R303: dma.post of an aligned descriptor, with fewer than 16 uncompleted, queues it and gives its tag; dma.wait and
dma.test see a posted tag as completed once DONE_TAG has passed it; a tag not posted raises FLT_DMA_TAG. -/
def Sys2Proof.Claims.DmaInstructionResult : Prop :=
  ∀ (n : Nat) (t pg : BitVec 3) (d a : BitVec 5) (s : State), s.canRunIf n t pg = true →
    let x := ((s.thr n t).rg a).toNat
    let u := (s.core n).dma
    (x % 32 = 0 → x < spadSize → u.queue.length < 16 → (s.core n).cleanAt x 32 = true →
      ∃ s', exec (.dmaPost n t d a pg) s = .next s' ∧ s.onlyUnit s' n t undoDma [] ∧ (s.thr n t).advanced (s'.thr n t) ∧
        (s.thr n t).onlyG (s'.thr n t) d ∧ (s'.thr n t).rg d = (if d = 0 then 0 else BitVec.ofNat 32 u.nextTag) ∧
        (s'.core n).dma = { u with nextTag := (u.nextTag + 1) % 2 ^ 16, queue := u.queue ++ [(s.core n).descAt x t.toNat] }) ∧
    (u.posted x = true → u.passed x = true →
      ∃ s', exec (.dmaWait n t a pg) s = .next s' ∧ s.onlyThread s' n t ∧ s.wentOn s' n t) ∧
    (u.posted x = true → ∃ s', exec (.dmaTest n t d a pg) s = .next s' ∧ s.setsG s' n t d (if u.passed x then 1 else 0)) ∧
    (u.posted x = false → ∀ i ∈ [Instr.dmaWait n t a pg, .dmaTest n t d a pg],
      ∃ s', exec i s = .next s' ∧ s.faults s' n t fltDmaTag 0 ∧ (s'.core n).dma = u)

/-- Instructions for the engine, the compressor and the DMA engine. -/
def Obligations.UnitInstructions : Prop :=
  Sys2Proof.Claims.EngineCommandIsQueued ∧ Sys2Proof.Claims.EngineCommandOfAnotherThreadFaults ∧ Sys2Proof.Claims.DmaInstructionResult

/-- R179, R187, R188, R212: ch.send and ch.sendg on a valid route with room at the local port send one token, which consumes the
route's SEQ; sig.cnt sends a signal, which does not. -/
def Sys2Proof.Claims.SendResult : Prop :=
  ∀ (n : Nat) (t pg : BitVec 3) (q a : BitVec 5) (v : BitVec 4) (s : State), s.canRunIf n t pg = true →
    ((s.core n).rd CR.ROUTE_BAD).testBit q.toNat = false → ((s.core n).inBuf 0 0).length < 2 →
    let row (x : Word) : Row := BitVec.ofNat 512 x.toNat
    let seq := Sparse.get 0 (s.core n).routes q.toNat
    let sent (i : Instr) (signal : Bool) (body : Row) : Prop := ∃ s', exec i s = .next s' ∧ s.onlyUnit s' n t undoRouter [] ∧
      s.wentOn s' n t ∧ s.injected s' n 0 (.cd ((s.core n).cdHead n q.toNat signal) body) ∧
      ∀ k, Sparse.get 0 (s'.core n).routes k = if k = q.toNat ∧ signal = false then (seq + 1) % 2 ^ 16
        else Sparse.get 0 (s.core n).routes k
    sent (.chSend n t q v pg) false ((s.thr n t).rv v) ∧ sent (.chSendg n t q a pg) false (row ((s.thr n t).rg a)) ∧
    sent (.sigCnt n t q a pg) true (row ((s.thr n t).rg a))

/-- R188, R72: a send on a route whose ROUTE_BAD bit is 1 raises FLT_ROUTE; one on a valid route with the local port full is a spin. -/
def Sys2Proof.Claims.SendIsRefused : Prop :=
  ∀ (n : Nat) (t pg : BitVec 3) (q a : BitVec 5) (v : BitVec 4) (s : State), s.canRunIf n t pg = true →
    ∀ i ∈ [Instr.chSend n t q v pg, .chSendg n t q a pg, .sigCnt n t q a pg],
      (((s.core n).rd CR.ROUTE_BAD).testBit q.toNat = true → ∃ s', exec i s = .next s' ∧ s.faults s' n t fltRoute 0 ∧
        (s'.core n).router = (s.core n).router) ∧
      (((s.core n).rd CR.ROUTE_BAD).testBit q.toNat = false → 2 ≤ ((s.core n).inBuf 0 0).length →
        ∃ s', exec i s = .next s' ∧ (s'.thr n t).status = .waiting ∧ (s'.thr n t).pc = (s.thr n t).pc ∧
          (s'.core n).router = (s.core n).router ∧ (s'.core n).routes = (s.core n).routes)

/-- ch.send and ch.sendg. -/
def Obligations.SendInstructions : Prop :=
  Sys2Proof.Claims.SendResult ∧ Sys2Proof.Claims.SendIsRefused

/-- R191, R198: ch.recv and ch.recvg take the oldest token of a PLAIN queue from its ring, or the finished token of the lowest
sequence of a combining queue; ch.count gives the tokens held. -/
def Sys2Proof.Claims.ReceiveResult : Prop :=
  ∀ (n : Nat) (t pg : BitVec 3) (d q : BitVec 5) (v : BitVec 4) (s : State), s.canRunIf n t pg = true →
    let z := (s.core n).queue q.toNat
    let at_ := 64 * (z.base + z.rdn % z.depth)
    let took (row : Row) (z' : Queue) : Prop :=
      (∃ s', exec (.chRecv n t v q pg) s = .next s' ∧ s.onlyUnit s' n t undoQueues [] ∧ (s.thr n t).advanced (s'.thr n t) ∧
        (s'.thr n t).rv v = row ∧ (∀ e, e ≠ v → (s'.thr n t).rv e = (s.thr n t).rv e) ∧ (s'.thr n t).g = (s.thr n t).g ∧
        (s'.thr n t).p = (s.thr n t).p ∧ (s'.thr n t).ec = (s.thr n t).ec ∧
        (s'.core n).queue q.toNat = z' ∧ ∀ k, k ≠ q.toNat → (s'.core n).queue k = (s.core n).queue k) ∧
      ∃ s', exec (.chRecvg n t d q pg) s = .next s' ∧ s.onlyUnit s' n t undoQueues [] ∧ (s.thr n t).advanced (s'.thr n t) ∧
        (s.thr n t).onlyG (s'.thr n t) d ∧ (s'.thr n t).rg d = (if d = 0 then 0 else row.lane 0) ∧
        (s'.core n).queue q.toNat = z' ∧ ∀ k, k ≠ q.toNat → (s'.core n).queue k = (s.core n).queue k
    (z.mode = 0 → z.rdn < z.wr → (s.core n).cleanAt at_ 64 = true →
      took (BitVec.ofNat 512 ((s.core n).valueAt at_ 64)) { z with rdn := z.rdn + 1 }) ∧
    (∀ x, z.mode ≠ 0 → z.slot z.low = some x → x.seq = z.low → x.count = z.ncontrib →
      took x.acc { z with slots := Sparse.erase z.slots (z.low % z.depth), low := z.low + 1 }) ∧
    ∃ s', exec (.chCount n t d q pg) s = .next s' ∧ s.setsG s' n t d (BitVec.ofNat 32 z.held)

/-- R193, R216: ch.close makes the queue CLOSED with a new generation and no tokens, discards the signals held against it, and
counts what it discards at the core and for the region's report. -/
def Sys2Proof.Claims.CloseQueueResult : Prop :=
  ∀ (n : Nat) (t pg : BitVec 3) (q : BitVec 5) (s : State), s.canRunIf n t pg = true →
    let z := (s.core n).queue q.toNat
    let mine (h : Held) : Bool := !h.onBezel && decide (h.which = q.toNat)
    let k := z.stored + ((s.core n).hold.filter mine).length
    let sunk := CR.CLOSED_SUNK.at (8 * q.toNat)
    ∃ s', exec (.chClose n t q pg) s = .next s' ∧ s.wentOn s' n t ∧
      ((s'.core n).queue q.toNat).stored = 0 ∧ (s'.core n).queue q.toNat =
        { z with rdn := z.wr, slots := [], closed := true, gen := (z.gen + 1) % 16 } ∧
      (∀ j, j ≠ q.toNat → (s'.core n).queue j = (s.core n).queue j) ∧
      (s'.core n).hold = (s.core n).hold.filter (fun h => !mine h) ∧
      (s'.core n).rd sunk = (if k = 0 then (s.core n).rd sunk else satAdd 16 ((s.core n).rd sunk) k) ∧
      s'.region (regionOf n) = { s.region (regionOf n) with
        sunk := (s.region (regionOf n)).sunk + k, chanClosedSeen := (s.region (regionOf n)).chanClosedSeen || decide (k ≠ 0) } ∧
      { s' with cores := s.cores, regions := s.regions } = s ∧ (∀ m, m ≠ n → s'.core m = s.core m) ∧
      (∀ r, r ≠ regionOf n → s'.region r = s.region r) ∧ (s.core n).keepsOthers (s'.core n) t ∧
      { (s'.core n).restored (s.core n) with queues := (s.core n).queues, hold := (s.core n).hold } = s.core n ∧
      (s.core n).keepsRegs (s'.core n) (issueRegs ++ [sunk, CR.SUNK_SAT.at (8 * q.toNat)])

/-- ch.recv, ch.recvg, ch.count and ch.close. -/
def Obligations.ReceiveInstructions : Prop :=
  Sys2Proof.Claims.ReceiveResult ∧ Sys2Proof.Claims.CloseQueueResult

/-- R209, R210: sig.t adds one to a thread's counter, which stops at 0xFFFF; sig.wait with the counter non-zero takes one; sig.test
reads it. -/
def Sys2Proof.Claims.SignalResult : Prop :=
  ∀ (n : Nat) (t pg : BitVec 3) (d : BitVec 5) (s : State), s.canRunIf n t pg = true →
    (∀ u : BitVec 3, ∃ s', exec (.sigT n t u pg) s = .next s' ∧ s.keepsOutside s' n ∧ (s'.thr n u).sig = nextSignal (s.thr n u).sig ∧
      (s'.thr n t).pc = (s.thr n t).pc + 4 ∧ (∀ r, r ≠ t → r ≠ u → s'.thr n r = s.thr n r) ∧
      (∀ r, (s'.thr n r).g = (s.thr n r).g ∧ (s'.thr n r).v = (s.thr n r).v ∧ (s'.thr n r).p = (s.thr n r).p) ∧
      (∀ r, r ≠ u → (s'.thr n r).sig = (s.thr n r).sig) ∧
      (s.core n).keepsRegs (s'.core n) (CR.SIG_SAT :: issueRegs)) ∧
    ((s.thr n t).sig ≠ 0 → ∃ s', exec (.sigWait n t pg) s = .next s' ∧ s.onlyThread s' n t ∧
      (s'.thr n t).sig + 1 = (s.thr n t).sig ∧ (s'.thr n t).pc = (s.thr n t).pc + 4 ∧ (s'.thr n t).status = .ready ∧
      (s'.thr n t).g = (s.thr n t).g ∧ (s'.thr n t).v = (s.thr n t).v ∧ (s'.thr n t).p = (s.thr n t).p) ∧
    ∃ s', exec (.sigTest n t d pg) s = .next s' ∧ s.setsG s' n t d (BitVec.ofNat 32 (s.thr n t).sig)

/-- R220, R221, R223: cl.arr of a member counts the thread's next round at its node; as the last arrival of a root without children
it completes the round and opens the next; cl.wait goes on once the round last arrived at has completed; cl.test gives the
node's word. -/
def Sys2Proof.Claims.ClaspInstructionResult : Prop :=
  ∀ (n : Nat) (t pg : BitVec 3) (d : BitVec 5) (k : BitVec 4) (s : State), s.canRunIf n t pg = true →
    let z := (s.core n).clasp k.toNat
    let r := (z.lastOf t.toNat + 1) % 4
    (z.valid = true → z.threads.testBit t.toNat = true → z.overrun = false →
      (r = z.openRound → (setBit z.thrArr t.toNat true &&& z.threads ≠ z.threads ∨ z.childArr &&& z.children ≠ z.children) →
        ∃ s', exec (.clArr n t k pg) s = .next s' ∧ s.onlyUnit s' n t undoClasps [] ∧ s.wentOn s' n t ∧
          ((s'.core n).clasp k.toNat).thrArr = setBit z.thrArr t.toNat true ∧
          ((s'.core n).clasp k.toNat).lastOf t.toNat = r ∧ ((s'.core n).clasp k.toNat).openRound = z.openRound ∧
          ∀ j, j ≠ k.toNat → (s'.core n).clasp j = (s.core n).clasp j) ∧
      (r = z.openRound → z.parent = 0 → z.children = 0 → z.sent = false → z.thrNext &&& z.threads ≠ z.threads →
        setBit z.thrArr t.toNat true &&& z.threads = z.threads → k.toNat ≠ (s.core n).finalClasp →
        ∃ s', exec (.clArr n t k pg) s = .next s' ∧ s.onlyUnit s' n t undoClasps [] ∧ s.wentOn s' n t ∧
          ((s'.core n).clasp k.toNat).openRound = (z.openRound + 1) % 4 ∧ ((s'.core n).clasp k.toNat).thrArr = z.thrNext ∧
          ((s'.core n).clasp k.toNat).thrNext = 0 ∧ ((s'.core n).clasp k.toNat).lastOf t.toNat = r) ∧
      (r = (z.openRound + 1) % 4 → z.openRound < 4 → z.full = false →
        ∃ s', exec (.clArr n t k pg) s = .next s' ∧ s.onlyUnit s' n t undoClasps [] ∧ s.wentOn s' n t ∧
          ((s'.core n).clasp k.toNat).thrNext = setBit z.thrNext t.toNat true ∧
          ((s'.core n).clasp k.toNat).lastOf t.toNat = r ∧ ((s'.core n).clasp k.toNat).openRound = z.openRound) ∧
      (r ≠ z.openRound → r ≠ (z.openRound + 1) % 4 → z.openRound < 4 →
        ∃ s', exec (.clArr n t k pg) s = .next s' ∧ s.faultsIn s' n t undoClasps fltClaspOverrun 0 ∧
          ((s'.core n).clasp k.toNat).overrun = true ∧ ∀ j, j ≠ k.toNat → (s'.core n).clasp j = (s.core n).clasp j)) ∧
    (z.valid = true → z.threads.testBit t.toNat = true → z.openRound = r →
      ∃ s', exec (.clWait n t k pg) s = .next s' ∧ s.onlyThread s' n t ∧ s.wentOn s' n t) ∧
    (∃ s', exec (.clTest n t d k pg) s = .next s' ∧ s.setsG s' n t d (BitVec.ofNat 32 z.word)) ∧
    ((z.valid = false ∨ z.threads.testBit t.toNat = false) → ∀ i ∈ [Instr.clArr n t k pg, .clWait n t k pg],
      ∃ s', exec i s = .next s' ∧ s.faults s' n t fltClaspMember 0 ∧ (s'.core n).clasps = (s.core n).clasps)

/-- Signals and clasps of the core. -/
def Obligations.SignalAndClaspInstructions : Prop :=
  Sys2Proof.Claims.SignalResult ∧ Sys2Proof.Claims.ClaspInstructionResult

/-- R103, R104, R106, R110: bz.open of a bezel with no change waiting opens it with a new generation and no arrivals; bz.close and
CLOSE_AFTER of a count already reached close it, CLOSE_AFTER of a later one is armed; bz.count gives the arrivals. -/
def Sys2Proof.Claims.BezelInstructionResult : Prop :=
  ∀ (n : Nat) (t pg b : BitVec 3) (a e d : BitVec 5) (s : State), s.canRunIf n t pg = true →
    let z := (s.core n).bezel b.toNat
    let base := ((s.thr n t).rg a).toNat
    let setup := ((s.thr n t).rg e).toNat
    let len := setup % 2 ^ 12
    let after (s' : State) : Bezel := (s'.core n).bezel b.toNat
    (base % 64 = 0 → 1 ≤ len → len ≤ 2560 → base + 64 * len ≤ spadSize → z.waiting = [] → z.queued = [] →
      ∃ s', exec (.bzOpen n t b a e pg) s = .next s' ∧ s.wentOn s' n t ∧ (after s').state = .opened ∧
        (after s').gen = (z.gen + 1) % 16 ∧ (after s').base = base ∧ (after s').length = len ∧
        (after s').mask = setup / 2 ^ 12 % 16 ∧ (after s').arrivals = 0 ∧ (after s').armed = false ∧
        (s'.core n).spad = (s.core n).spad ∧ (s.core n).keepsOthers (s'.core n) t) ∧
    (∃ s', exec (.bzClose n t b pg) s = .next s' ∧ s.wentOn s' n t ∧ (after s').state = .closed ∧ (after s').armed = false ∧
      (after s').gen = z.gen ∧ (s'.core n).spad = (s.core n).spad) ∧
    (base ≠ 0 → z.state ≠ .pending → z.arrivals < base → ∃ s', exec (.bzClosea n t b a pg) s = .next s' ∧ s.wentOn s' n t ∧
      after s' = { z with armed := true, afterN := base }) ∧
    ((base = 0 ∨ z.state ≠ .pending ∧ base ≤ z.arrivals) → ∃ s', exec (.bzClosea n t b a pg) s = .next s' ∧ s.wentOn s' n t ∧
      (after s').state = .closed ∧ (after s').armed = false) ∧
    ∃ s', exec (.bzCount n t d b pg) s = .next s' ∧ s.setsG s' n t d (BitVec.ofNat 32 z.arrivals)

/-- R108, R111: bz.put of an aligned offset toward a neighbour that has credits and no write waiting before it leaves with the bezel
generation that the writer's router knows; a misaligned offset faults, and so does a direction with no neighbour. -/
def Sys2Proof.Claims.BezelPutResult : Prop :=
  ∀ (n m : Nat) (t pg : BitVec 3) (d a : BitVec 5) (v : BitVec 4) (s : State), s.canRunIf n t pg = true →
    let dir := d.toNat % 4
    let off := ((s.thr n t).rg a).toNat
    (off % 64 = 0 → nbrIn s.md.remap n dir = some m → m ≠ n → Sparse.get [] (s.core n).bzOut dir = [] → s.laneWrites n dir < 8 →
      ∃ s', exec (.bzPut n t d a v pg) s = .next s' ∧ (s'.thr n t).pc = (s.thr n t).pc + 4 ∧ (s'.thr n t).status = .ready ∧
        (s'.thr n t).g = (s.thr n t).g ∧ (s'.thr n t).v = (s.thr n t).v ∧
        (s'.core m).laneFrom (oppDir dir) = (s.core m).laneFrom (oppDir dir) ++
          [.write (d.toNat / 4) off ((s.core n).shadow dir (d.toNat / 4)).gen ((s.thr n t).rv v)] ∧
        Sparse.get [] (s'.core n).bzOut dir = [] ∧ (∀ c, c ≠ n → c ≠ m → s'.core c = s.core c) ∧ s'.md = s.md) ∧
    (off % 64 ≠ 0 → ∃ s', exec (.bzPut n t d a v pg) s = .next s' ∧ s.faults s' n t fltMisaligned off) ∧
    (off % 64 = 0 → nbrIn s.md.remap n dir = none → ∃ s', exec (.bzPut n t d a v pg) s = .next s' ∧ s.faults s' n t fltBezelRange off)

/-- Bezel instructions. -/
def Obligations.BezelInstructions : Prop :=
  Sys2Proof.Claims.BezelInstructionResult ∧ Sys2Proof.Claims.BezelPutResult

/-- R8, R9: a register word of the module written by the host or the MP stores what is written, a read of a word with a RC counter
answers the word and clears the counter; a thread's write of SEND_EXP stores it. -/
def Obligations.RegisterAccessResult : Prop :=
  (∀ (who : BitVec 2) (id : Nat) (v : BitVec 32) (s : State), who ≠ 0 →
    (∀ f ∈ plainRegs, ∃ s', exec (.registerWrite who id (mdAddr f) v) s = .next s' ∧ s.onlyMdRegs s' [f] ∧ s'.rd f = v.toNat) ∧
    ∀ e ∈ counterRegs, ∃ s', exec (.rcRegisterRead who id (mdAddr e.1)) s = .next s' ∧
      s'.outbox = s.outbox ++ [.readData ((s.rd e.1 + s.rd e.2 * 2 ^ 16) % 2 ^ 32)] ∧
      { s with outbox := s'.outbox }.onlyMdRegs s' [e.1] ∧ s'.rd e.1 = 0) ∧
  ∀ (id q : Nat) (v : BitVec 32) (s : State), q < 32 →
    ∃ s', exec (.registerWrite 0 id ((CR.SEND_EXP.at (4 * q)).off) v) s = .next s' ∧ s.keepsOutside s' (id / 8) ∧
      (s'.core (id / 8)).restored (s.core (id / 8)) = s.core (id / 8) ∧ (s'.core (id / 8)).threads = (s.core (id / 8)).threads ∧
      (s.core (id / 8)).keepsRegs (s'.core (id / 8)) [CR.SEND_EXP.at (4 * q)] ∧
      (s'.core (id / 8)).rd (CR.SEND_EXP.at (4 * q)) = v.toNat % 2 ^ 16

/-- R42, R60, R40: a write of a slot that is neither LOADING nor, for its route entries, ACTIVE in a section changes its four bytes;
another is refused with BUSY and changes none, which a thread reads in its status register, the MP is told, and the BUSY record shows of a
host. A row of a context load lands in its slot, which is READY with the last. -/
def Sys2Proof.Claims.ContextSlotResult : Prop :=
  (∀ (who : BitVec 2) (id : BitVec 16) (n : Nat) (k : BitVec 2) (off : BitVec 11) (v : BitVec 32) (s : State),
    let a := off.toNat / 4 * 4
    let th := id.toNat % 8
    let told (s' : State) (x : Word) : Prop :=
      (who = 0 → (s'.core n).thread th = ((s.core n).thread th).wg (BitVec.ofNat 5 (id.toNat / 8)) x) ∧
      ∀ t, (who = 0 → t ≠ th) → (s'.core n).thread t = (s.core n).thread t
    ((s.slotOf n k.toNat).state = .empty ∨ (s.slotOf n k.toNat).state = .ready ∨
        (s.slotOf n k.toNat).state = .active ∧ (0x400 ≤ a ∨ (s.core n).inSection = false) →
      ∃ s', exec (.contextSlotWrite who id n k off v) s = .next s' ∧ s.keepsOutside s' n ∧ told s' 0 ∧
        { s'.core n with slots := (s.core n).slots, threads := (s.core n).threads } = s.core n ∧
        (∀ j, j ≠ k.toNat → s'.slotOf n j = s.slotOf n j) ∧
        { s'.slotOf n k.toNat with image := [] } = { s.slotOf n k.toNat with image := [] } ∧
        ∀ b, Sparse.get 0 (s'.slotOf n k.toNat).image b =
          if a ≤ b ∧ b < a + 4 then BitVec.ofNat 8 (v.toNat / 2 ^ (8 * (b - a))) else Sparse.get 0 (s.slotOf n k.toNat).image b) ∧
    ((s.slotOf n k.toNat).state = .loading ∨
        (s.slotOf n k.toNat).state = .active ∧ a < 0x400 ∧ (s.core n).inSection = true →
      ∃ s', exec (.contextSlotWrite who id n k off v) s = .next s' ∧ told s' 1 ∧ (∀ m, m ≠ n → s'.core m = s.core m) ∧
        { s'.core n with regs := (s.core n).regs, threads := (s.core n).threads } = s.core n ∧
        (s.core n).keepsRegs (s'.core n) [CR.CORE_BUSY_COUNT, CR.CORE_BUSY_SAT] ∧
        (s'.core n).rd CR.CORE_BUSY_COUNT = satAdd 16 ((s.core n).rd CR.CORE_BUSY_COUNT) 1 ∧
        { s' with cores := s.cores, outbox := s.outbox, md := { s'.md with regs := s.md.regs } } = s ∧
        s'.outbox = (if who.toNat < 2 then s.outbox else s.outbox ++ [.mpStatus .busy]) ∧
        (who = 0 → s'.md = s.md) ∧ (who ≠ 0 → s'.rd MR.BUSY_COUNT = satAdd 16 (s.rd MR.BUSY_COUNT) 1) ∧
        (who = 1 → s.rd MR.BUSY_VALID = 0 → s'.rd MR.BUSY_VALID = 1 ∧ s'.rd MR.BUSY_REQ_CLASS = 1))) ∧
  ∀ (n port : Nat) (q : MReq) (row : Row) (x : CtxLoad) (s : State),
    (s.core n).replyAt port (fun q => decide (q.unit = 2)) = some (q, .data row) → q.gen = (s.core n).genNow →
    (s.core n).dma.ctx = some x → x.outstanding.contains q.tag = true → q.va = (x.base + 64 * q.tag) % 2 ^ 48 →
    ∃ s', exec (.contextLoadReply n port) s = .next s' ∧ s.keepsOutside s' n ∧
      (∀ b, Sparse.get 0 (s'.slotOf n x.slot).image b = if 64 * q.tag ≤ b ∧ b < 64 * q.tag + 64 then row.byte (b - 64 * q.tag)
        else Sparse.get 0 (s.slotOf n x.slot).image b) ∧
      (s'.slotOf n x.slot).state = (if x.landed + 1 = 32 then .ready else (s.slotOf n x.slot).state) ∧
      (s'.core n).dma.ctx.map CtxLoad.landed = (if x.landed + 1 = 32 then none else some (x.landed + 1)) ∧
      (s'.core n).threads = (s.core n).threads ∧ (s'.core n).spad = (s.core n).spad

/-- R45, R59, R61: a write of PLAN_BASE starts a check and replaces a plan that waits; its end puts the plan that passes before its
cut, and leaves the plan in force; LOAD_COMPLETE brings the plan and the pending remap into force, with the hash of the image, or refuses
it, and halts. -/
def Sys2Proof.Claims.PlanCheckResult : Prop :=
  ∀ s : State,
    (∀ (hi : Bool) (v : BitVec 32), ∃ s', exec (.planBaseWrite hi v) s = .next s' ∧ s.onlyMd s' ∧
      s'.rd (if hi then MR.PLAN_BASE_HI else MR.PLAN_BASE_LO) = v.toNat % 2 ^ (if hi then MR.PLAN_BASE_HI.w else 32) ∧
      s'.md.tu.checking = some s'.planBase ∧ s'.md.tu.ready = none ∧ s'.md.tu.plan = s.md.tu.plan) ∧
    (∀ base, s.md.tu.checking = some base → ∃ s', exec .planCheckDone s = .next s' ∧ s'.md.tu.checking = none ∧
      s'.md.tu.plan = s.md.tu.plan ∧ s'.runState = s.runState ∧
      match ((s.updTu fun t => { t with checking := none }).checkPlan s.md.remap base).1 with
      | .ok p => s'.md.tu.ready = some p ∧ s'.rd MR.LOAD_RESULT = 0
      | .refused code _ => s'.md.tu.ready = s.md.tu.ready ∧ s'.rd MR.LOAD_RESULT = code % 16) ∧
    (s.runState = rsLoading → s.isReady = true →
      let s0 := if hbmSize ≤ s.progBase then s.agentFault none s.progBase else s
      ∃ s', exec .loadComplete s = .next s' ∧ s'.runState = rsHalted ∧
      match (s0.checkPlan s.pendingRemap s.planBase).1 with
      | .ok p => s'.md.tu.plan = some p ∧ s'.md.tu.loaded = true ∧ s'.md.remap = s.pendingRemap ∧ s'.rd MR.LOAD_RESULT = 0 ∧
        s'.rdBytes MR.PROG_HASH 8 = shake256 s.imageBytes 32
      | .refused code core => s'.md.tu.plan = s.md.tu.plan ∧ s'.md.remap = s.md.remap ∧ s'.rd MR.LOAD_RESULT = code % 16 ∧
        s'.rd MR.LOAD_CORE = core % 2 ^ MR.LOAD_CORE.w ∧ s'.rdBytes MR.PROG_HASH 8 = s.rdBytes MR.PROG_HASH 8)

/-- Context slots, plan checks and the load of a program. -/
def Obligations.ContextAndPlanResult : Prop :=
  Sys2Proof.Claims.ContextSlotResult ∧ Sys2Proof.Claims.PlanCheckResult

/-- R61, R62, R266: LOAD in HALTED makes the module LOADING and returns the hallmark state to zero; START under STRICT begins a run
at START_TICK; PREEMPT in RUNNING makes it PREEMPTING while a section runs; a command out of place is ignored and counted. -/
def Obligations.RunCommandResult : Prop :=
  ∀ s : State, s.md.pw.refLost = false → s.isReady = true →
    (s.runState = rsHalted → ∃ s', exec .load s = .next s' ∧ s'.runState = rsLoading ∧ s'.rd MR.LOAD_RESULT = 1 ∧
      s'.rd MR.RESUME_VALID = 0 ∧ (∀ n, (s'.core n).hm = 0 ∧ (s'.core n).folds = 0 ∧ (s'.core n).threads = (s.core n).threads) ∧
      s'.hbm = s.hbm ∧ s'.hubs = s.hubs ∧ s'.regions = s.regions) ∧
    (s.runState = rsHalted → s.md.tu.loaded = true → s.eclConflict = false → s.rd MR.RESUME_VALID = 0 → s.rd MR.TICK_MODE = 1 →
      ∃ s', exec .start s = .next s' ∧ s'.runState = rsRunning ∧
        s'.md.tu.expected = s.rd MR.START_TICK_LO + 2 ^ 32 * s.rd MR.START_TICK_HI ∧ s'.md.tu.active = [] ∧
        (∀ i, i < 8 → s'.rd (MR.HM_HEAD.at (4 * i)) = s.rd (MR.HM_CHAIN_INIT.at (4 * i)) % 2 ^ 32) ∧ s'.hbm = s.hbm) ∧
    (s.runState = rsRunning → s.anyRunning = true →
      ∃ s', exec .preempt s = .next s' ∧ s.onlyMdRegs s' [MR.RUN_STATE] ∧ s'.runState = rsPreempting) ∧
    (s.runState ≠ rsHalted → ∀ i ∈ [Instr.load, .start], ∃ s', exec i s = .next s' ∧
      s.onlyMdRegs s' [MR.CMD_IGNORED, MR.CMD_IGNORED_SAT] ∧ s'.rd MR.CMD_IGNORED = satAdd 8 (s.rd MR.CMD_IGNORED) 1)

/-- R37, R38, R55, R64: a section that can start makes its core RUNNING with the threads of its image READY, or CLOSING where clasp
arrivals held early have completed its final round; a section whose close conditions hold leaves its core IDLE and its slot READY; the
epoch timer stops the threads that are left and faults. -/
def Obligations.SectionResult : Prop :=
  ∀ (n : Nat) (s : State),
    (∀ x e, (s.core n).next = some x → (sectionsOf s.planEntries n)[x.entry]? = some e → s.canStart n x e = true →
      ∃ s', exec (.sectionStart n) s = .next s' ∧ (s'.core n).inSection = true ∧
        ((∀ k, k < 16 → ((s.core n).clasp k).early = []) → (s'.core n).sec = .running) ∧ (s'.core n).rd CR.ACTIVE_VALID = 1 ∧
        (s'.core n).rd CR.ACTIVE_SLOT = x.slot % 4 ∧ (s'.core n).secTick = x.tick ∧
        (∀ t, t < 8 → let v := imgNat ((s.core n).slot x.slot).image (0x600 + 8 * t) 8
          if v.testBit 31 then ((s'.core n).thread t).status = .ready ∧ ((s'.core n).thread t).pc.toNat = bits v 17 0 / 4 * 4 ∧
            ((s'.core n).thread t).rg 1 = BitVec.ofNat 32 (bits v 63 32) ∧ ∀ i, i ≠ 1 → ((s'.core n).thread t).rg i = 0
          else (s'.core n).thread t = Thread.reset) ∧ s'.hbm = s.hbm) ∧
    ((s.core n).canClose = true → s.runState ≠ rsPreempting → ∃ s', exec (.sectionClose n) s = .next s' ∧
      (s'.core n).sec = .idle ∧ (s'.core n).rd CR.ACTIVE_VALID = 0 ∧
      ((s.core n).next = none → (s'.core n).threads = (s.core n).threads ∧ (s'.core n).doneFor = some (s.core n).secTick ∧
        ((s.slotOf n ((s.core n).rd CR.ACTIVE_SLOT)).state = .active →
          (s'.slotOf n ((s.core n).rd CR.ACTIVE_SLOT)).state = .ready)) ∧ s'.hbm = s.hbm ∧ s'.md = s.md) ∧
    ((s.core n).sec = .closing → (s.core n).epochTimer = true → (s.core n).switchMet = false →
      ∃ s', exec (.epochTimeout n) s = .next s' ∧ (s'.core n).epochTimer = false ∧ (s'.core n).sec = .closing ∧
        (∀ t, t < 8 → ((s'.core n).thread t).status =
          (if ((s.core n).thread t).status = .ready ∨ ((s.core n).thread t).status = .waiting then .stopped
           else ((s.core n).thread t).status)) ∧
        (regionOf n < 56 → s.abortSent s' (regionOf n) (.ofCore n fltEpochResidue)) ∧ s'.hbm = s.hbm)

/-- R46, R49, R327: a TICK whose number is the expected one, while the module is RUNNING with no tick in progress, is distributed:
one that arrives on TICK_PORT, one of the local timer, one that the master makes. One below the expected number is a duplicate. -/
def Obligations.TickAcceptance : Prop :=
  ∀ s : State,
    (∀ h i m s1, s.takeMsg h i (fun m => decide (m.typ = 3)) = some (m, s1) → s.localSource = false → m.port = s.tickPort →
      s.runState = rsRunning →
      (leNat (m.body.take 8) = s.md.tu.expected → s.md.tu.active = [] →
        ∃ s', exec (.ryudonTick h i) s = .next s' ∧ s.tickGoes s' s.md.tu.expected) ∧
      (leNat (m.body.take 8) < s.md.tu.expected → ∃ s', exec (.ryudonTick h i) s = .next s' ∧
        s1.onlyMdRegs s' [MR.DUP_TICK_COUNT, MR.DUP_TICK_SAT] ∧
        s'.rd MR.DUP_TICK_COUNT = satAdd 16 (s.rd MR.DUP_TICK_COUNT) 1)) ∧
    (s.runState = rsRunning → s.md.tu.active = [] → s.strict = true →
      (s.localSource = true → ∃ s', exec .localTickTimer s = .next s' ∧ s.tickGoes s' s.md.tu.expected) ∧
      (s.isMaster = true → ∃ s', exec .groupTickTimer s = .next s' ∧ s.tickGoes s' s.md.tu.expected))

/-- R48, R57: a region controller that receives TICK brings its pending values into force, counts from zero and multicasts it; a
core that receives it makes its cut due, and is done if it has no section left, which it tells its region controller; a done notice that
has come there, when what waits at the core's router has entered the mesh, adds to the region's count and sum, and the last one has the
controller tell H0. -/
def Sys2Proof.Claims.TickAtRegionsAndCores : Prop :=
  (∀ (r : Nat) (m : TickMsg) (l : List TickMsg) (s : State), s.inReset 1 r = false → (s.region r).tickIn = m :: l →
    (s.region r).tickNow ≠ some m.tick → (s.region r).dones = [] → s.eclipsed r = false → s.silentCores r < 5184 →
    ∃ s', exec (.regionTick r) s = .next s' ∧ s.onlyRegion s' r ∧ (s'.region r).tickIn = l ∧ (s'.region r).tickNow = some m.tick ∧
      (s'.region r).rd RR.REGION_DONE = 0 ∧ (s'.region r).rd RR.CORES_REPORTED = 0 ∧
      (s'.region r).dones = [⟨m.tick, s.silentCores r, 0, 0⟩] ∧
      (s'.region r).ticks = (s.region r).ticks ++ [{ m with serial := (s.region r).tickCount + 1 }] ∧
      ∀ f : Fld, (s'.region r).regs.inForce f = if m.commit then (s.region r).rd f else (s.region r).regs.inForce f) ∧
  (∀ (n : Nat) (m : TickMsg) (s : State), s.silent n = false → m.newPlan = false →
    ((s.region (regionOf n)).ticks.find? fun m => decide ((s.core n).tickTaken < m.serial)) = some m → (s.core n).sec = .idle →
    ∃ s', exec (.coreTick n) s = .next s' ∧ (s'.core n).tickSeen = some m.tick ∧ (s'.core n).tickTaken = m.serial ∧
      ((s.core n).next = none → (s.core n).doneFor ≠ some m.tick →
        (s'.core n).doneFor = some m.tick ∧ (s'.core n).hm = 0 ∧
        (s'.core n).ctrlOut = (s.core n).ctrlOut ++ [⟨1, regionOf n, n, 0, .coreDone m.tick
          ((s'.core n).rd CR.HM_LAST_LO + 2 ^ 32 * (s'.core n).rd CR.HM_LAST_HI) ((s'.core n).rd CR.HM_LAST_FOLDS)⟩]) ∧
      (∀ x, (s.core n).next = some x → x.tick ≤ m.tick → (s'.core n).cutDue = m.commit ∧ (s'.core n).doneFor = (s.core n).doneFor)) ∧
  ∀ (n tick hm k : Nat) (l : List (Nat × Nat × Nat)) (d : RegDone) (s0 : State),
    let s := s0.enter n
    (s.core n).doneOut = (tick, hm, k) :: l → (s.region (regionOf n)).dones = [d] → d.tick = tick →
    let g (s : State) : Region := s.region (regionOf n)
    ∃ s', exec (.coreDone n) s0 = .next s' ∧ (s'.core n).doneOut = l ∧ s'.hbm = s.hbm ∧ s'.hubs = s.hubs ∧ s'.md = s.md ∧
      (d.silent + d.got + 1 < 5184 → (g s').dones = [{ d with got := d.got + 1, sum := (d.sum + hm) % 2 ^ 64 }] ∧
        (g s').ctrlOut = (g s).ctrlOut) ∧
      (5184 ≤ d.silent + d.got + 1 → (g s').dones = [] ∧ (g s').rd RR.REGION_DONE = 1 ∧
        (g s').ctrlOut = (g s).ctrlOut ++
          [⟨2, 0, 0x7FF00 + regionOf n, (g s).ctrlGen, .regionDone tick ((d.sum + hm) % 2 ^ 64)⟩])

/-- R48, R270, R271: H0 keeps the hallmark of each region whose REGION_DONE has come to it, when what waits at the region's router has
entered the mesh; with the last of the 56, and no cause of an abort, the tick is complete: its hallmark
is SHAKE256 of the tick and the 56 sums, it is chained if its outcome is 0, and no tick is in progress. -/
def Sys2Proof.Claims.TickCompletion : Prop :=
  ∀ (r tick hm : Nat) (l : List (Nat × Nat)) (a : ActTick) (s0 : State),
    let s := s0.enter (controllerCore r)
    (s.region r).doneOut = (tick, hm) :: l →
    s.md.tu.active = [a] → a.tick = tick → a.done.contains r = false →
    (a.done.length + 1 < 56 → ∃ s', exec (.regionDone r) s0 = .next s' ∧
      s'.md.tu.active = [{ a with done := a.done ++ [r], hallmarks := Sparse.set 0 a.hallmarks r hm }] ∧
      (s'.region r).doneOut = l ∧ s'.md.regs = s.md.regs ∧ s'.hbm = s.hbm) ∧
    (a.done.length + 1 = 56 → a.causes = [] → s.localSource = true → s.strict = true → s.runState = rsRunning →
      s.md.tu.inbox = [] → s.rd MR.STOP_EN = 0 → s.md.regs.inForce MR.HM_LOG_EN = 0 → s.md.boot.dead = false →
      ∃ s', exec (.regionDone r) s0 = .next s' ∧ s'.md.tu.active = [] ∧ s'.rd MR.OUTCOME = 0 ∧ s'.rd MR.LAST_CHAINED = 1 ∧
        s'.rdBytes MR.TICK_HM 8 = tickHallmark tick (Sparse.set 0 a.hallmarks r hm) ∧
        s'.rdBytes MR.HM_HEAD 8 = shake256 (s.rdBytes MR.HM_HEAD 8 ++ tickHallmark tick (Sparse.set 0 a.hallmarks r hm)) 32 ∧
        s'.hbm = s.hbm ∧ s'.cores = s.cores)

/-- A tick at the regions and cores, and its completion. -/
def Obligations.TickProgress : Prop :=
  Sys2Proof.Claims.TickAtRegionsAndCores ∧ Sys2Proof.Claims.TickCompletion

/-- R27, R50, R51: a SECTION_ABORT that has come to H0, those over the dedicated lines among them, and the tick watchdog under STRETCH, begin an abort; the region controller takes it
to its cores; a core in a section stops its threads, cancels its engine and DMA work and becomes ABORTED. -/
def Sys2Proof.Claims.AbortBegins : Prop :=
  ∀ s : State,
    (∀ a l, let d := s.detours; d.md.tu.active ≠ [] → d.runState = rsRunning → d.md.tu.inbox = a :: l →
      ∃ s', exec .sectionAbort s = .next s' ∧ d.aborts s' a ∧ s'.md.tu.inbox = l) ∧
    (s.md.tu.active ≠ [] → s.runState = rsRunning → s.strict = false →
      ∃ s', exec .tickWatchdogExpiry s = .next s' ∧ s.aborts s' (.ofModule 0 logTickWatchdog)) ∧
    (∀ r, (s.region r).abortIn = true → (s.region r).tickIn = [] → s.inReset 1 r = false →
      ∃ s', exec (.regionSectionAbort r) s = .next s' ∧ s.onlyRegion s' r ∧ (s'.region r).abortIn = false ∧
        (s'.region r).abortSerial = (s.region r).abortSerial + 1 ∧ (s'.region r).rd RR.ABORTING = 1) ∧
    ∀ n tick, (s.core n).abortTaken < (s.region (regionOf n)).abortSerial → (s.region (regionOf n)).tickNow = some tick →
      (s.core n).inSection = true → ∃ s', exec (.coreSectionAbort n) s = .next s' ∧ (s'.core n).sec = .aborted ∧
        (s'.core n).abortTaken = (s.region (regionOf n)).abortSerial ∧ (s'.core n).eng.queue = [] ∧ (s'.core n).dma.queue = [] ∧
        (s'.core n).gen = ((s.core n).gen + 1) % 16 ∧ (s'.core n).hold = [] ∧
        (∀ t, t < 8 → ((s'.core n).thread t).status ≠ .ready ∧ ((s'.core n).thread t).status ≠ .waiting ∧
          ((s'.core n).thread t).g = ((s.core n).thread t).g ∧ ((s'.core n).thread t).pc = ((s.core n).thread t).pc) ∧
        (s'.core n).spad = (s.core n).spad ∧ s'.hbm = s.hbm ∧ s'.md.regs = s.md.regs

/-- R52: the report of a region whose cores all took the abort clears its ABORTING; with the last region, in an abort that began in
RUNNING for no halting cause, RUN_STATE returns to RUNNING; for a halting cause it becomes HALTED. -/
def Sys2Proof.Claims.AbortEnds : Prop :=
  ∀ (r : Nat) (b : Abort) (s : State), (s.region r).rd RR.ABORTING = 1 → (s.region r).abortIn = false → s.abortReached r = true →
    s.inReset 1 r = false → s.md.tu.abort = some b → s.runState = rsAborting →
    ((∃ q ∈ b.unreported, q ≠ r) → ∃ s', exec (.abortAppliedReport r) s = .next s' ∧ (s'.region r).rd RR.ABORTING = 0 ∧
      s'.md.tu.abort = some { b with unreported := b.unreported.filter (· ≠ r) } ∧ s'.runState = rsAborting ∧
      s'.cores = s.cores ∧ s'.hbm = s.hbm) ∧
    ((∀ q ∈ b.unreported, q = r) → s.md.tu.held = [] → b.preempting = false → b.heldPreempt = false →
      ∃ s', exec (.abortAppliedReport r) s = .next s' ∧ (s'.region r).rd RR.ABORTING = 0 ∧ s'.md.tu.abort = none ∧
        s'.runState = (if b.halts then rsHalted else rsRunning) ∧ s'.cores = s.cores ∧ s'.hbm = s.hbm)

/-- A section abort begins, spreads and ends. -/
def Obligations.AbortResult : Prop :=
  Sys2Proof.Claims.AbortBegins ∧ Sys2Proof.Claims.AbortEnds

/-- R54, R191, R193: a token of the active epoch waits tagged with its queue's generation, one for an unused or CLOSED queue is
sunk, a late one is sunk and counted; a waiting token of a PLAIN queue with room is written to its ring. -/
def Sys2Proof.Claims.TokenResult : Prop :=
  ∀ (n port : Nat) (e : Entry) (h : CdHead) (row : Row) (s : State), port < 5 → e.body = .cd h row →
    ((s.core n).atInput port (fun e => e.isToken && e.tag.isNone) = some e →
      (s.epochIs n h = .active → ((s.core n).queue h.destQ).shut = false →
        ∃ s', exec (.tokenArrival n port) s = .next s' ∧ s.onlyInput s' n ∧ (s'.core n).queues = (s.core n).queues ∧
          (s'.core n).inBuf port 0 = { e with tag := some ((s.core n).queue h.destQ).gen } :: ((s.core n).inBuf port 0).drop 1) ∧
      (s.epochIs n h = .active → ((s.core n).queue h.destQ).shut = true →
        ∃ s', exec (.tokenArrival n port) s = .next s' ∧ s.onlyInput s' n ∧ s.taken s' n port ∧
          (s'.region (regionOf n)).sunk = (s.region (regionOf n)).sunk + 1) ∧
      (s.epochIs n h = .late → ∃ s', exec (.tokenArrival n port) s = .next s' ∧ s.onlyInput s' n ∧
        s.taken s' n port ∧ (s'.core n).rd CR.LATE_TOKENS = satAdd 16 ((s.core n).rd CR.LATE_TOKENS) 1 ∧
        (s'.region (regionOf n)).lateSeen = true)) ∧
    let z := (s.core n).queue h.destQ
    ((s.core n).atInput port ((s.core n).tokenFor true) = some e → e.tag = some z.gen → z.wr - z.rdn < z.depth →
      ∃ s', exec (.tokenLanding n port) s = .next s' ∧ s.onlyInput s' n ∧ s.taken s' n port ∧
        ((s'.core n).queue h.destQ).wr = z.wr + 1 ∧ ((s'.core n).queue h.destQ).arrivals = min (z.arrivals + 1) 0xFFFFFF ∧
        ∀ a, Sparse.get 0 (s'.core n).spad a = let at_ := 64 * (z.base + z.wr % z.depth)
          if at_ ≤ a ∧ a < at_ + 64 then row.byte (a - at_) else Sparse.get 0 (s.core n).spad a)

/-- R198, R200, R213: the first contribution of a sequence takes its slot, and in the mode INT32 sum the next adds to each lane; a
signal whose counter has reached COUNT is released to its thread at once, another is held. -/
def Sys2Proof.Claims.ContributionAndSignalResult : Prop :=
  ∀ (n port : Nat) (e : Entry) (h : CdHead) (row : Row) (s : State), port < 5 → e.body = .cd h row →
    let z := (s.core n).queue h.destQ
    ((s.core n).atInput port ((s.core n).tokenFor false) = some e → e.tag = some z.gen → 0 < z.depth → ∀ q,
      fullSeq z.low h.seq = some q →
      (z.mode = 1 → z.slot q = none → 1 < z.ncontrib → ∃ s', exec (.combiningContribution n port) s = .next s' ∧
        s.onlyInput s' n ∧ s.taken s' n port ∧ (((s'.core n).queue h.destQ).slot q).map (fun x => (x.seq, x.count, x.lanes.map (·.sum))) =
          some (q, 1, (List.range 16).map fun i => (row.lane i).toInt)) ∧
      ∀ x, z.mode = 1 → z.slot q = some x → x.seq = q → 0 < x.count → x.count + 1 < z.ncontrib →
        ∃ s', exec (.combiningContribution n port) s = .next s' ∧ s.onlyInput s' n ∧ s.taken s' n port ∧
          (((s'.core n).queue h.destQ).slot q).map (fun y => (y.seq, y.count, y.lanes.map (·.sum))) =
            some (q, x.count + 1, x.lanes.mapIdx fun i l => l.sum + (row.lane i).toInt)) ∧
    ((s.core n).atInput port Entry.isSignal = some e → s.epochIs n h = .active →
      let v := (row.lane 0).toNat
      v.testBit 27 = false → z.shut = false →
      (bits v 23 0 ≤ z.arrivals → ∃ s', exec (.signalArrival n port) s = .next s' ∧ s.onlyInput s' n ∧ s.taken s' n port ∧
        ((s'.core n).thread (bits v 26 24)).sig = nextSignal ((s.core n).thread (bits v 26 24)).sig ∧
        (s'.core n).hold = (s.core n).hold) ∧
      (z.arrivals < bits v 23 0 → (s.core n).hold.length < 16 → ∃ s', exec (.signalArrival n port) s = .next s' ∧
        s.onlyInput s' n ∧ s.taken s' n port ∧ (s'.core n).threads = (s.core n).threads ∧
        (s'.core n).hold = (s.core n).hold ++ [⟨bits v 23 0, bits v 26 24, false, h.destQ, ((s.core n).bezel h.destQ).gen⟩]))

/-- R263, R264, R265: a write of HM_FOLD by a thread adds the contribution of its value to CORE_HM and advances the thread's index. -/
def Sys2Proof.Claims.HallmarkFold : Prop :=
  ∀ (n : Nat) (t : BitVec 3) (v : BitVec 32) (s : State),
    let q := (s.core n).rd (CR.THR_SEQ.at (4 * t.toNat))
    let k : DWord := BitVec.ofNat 64 ((1 + t.toNat) * 2 ^ 51 + n * 2 ^ 32 + q)
    ∃ s', exec (.hmFoldWrite n t v) s = .next s' ∧ s.keepsOutside s' n ∧ { s'.core n with regs := (s.core n).regs, folds := (s.core n).folds } = s.core n ∧
      (s'.core n).folds = satAdd 32 (s.core n).folds 1 ∧ (s'.core n).hm = (s.core n).hm + hfin (hfin (k ^^^ 0x4F1BD82C93E67A55#64) ^^^ BitVec.ofNat 64 v.toNat) ∧
      (s'.core n).rd (CR.THR_SEQ.at (4 * t.toNat)) = (q + 1) % 2 ^ 32 ∧
      (s.core n).keepsRegs (s'.core n) [CR.CORE_HM_LO, CR.CORE_HM_HI, CR.THR_SEQ.at (4 * t.toNat)]

/-- Tokens, contributions and signals arrive; values are folded. -/
def Obligations.ArrivalResult : Prop :=
  Sys2Proof.Claims.TokenResult ∧ Sys2Proof.Claims.ContributionAndSignalResult ∧ Sys2Proof.Claims.HallmarkFold

/-- R118, R119, R121, R124, R127, R128: a queued command at the front leaves the queue and takes effect: mx.clr clears the
accumulators, mx.cfg sets the rounding words, a dense INT8 run adds the products of its K steps to every cell, an INT32 readout
writes the saturated cells as rows. -/
def Sys2Proof.Claims.EngineCommandResult : Prop :=
  ∀ (n : Nat) (qs : List EngCmd) (s : State), (s.core n).inSection = true →
    let c := s.core n
    (c.eng.queue = .clr :: qs → ∃ s', exec (.engineClrCmd n) s = .next s' ∧ s.keepsOutside s' n ∧
      s'.core n = { c with eng := { c.eng with queue := qs, cells := [], kind := .none, kCount := 0 } }) ∧
    (∀ w, c.eng.queue = .cfg w :: qs → ∃ s', exec (.engineCfgCmd n) s = .next s' ∧ s.keepsOutside s' n ∧
      s'.core n = { c with eng := { c.eng with queue := qs, rmode := w.getLsbD 0, ovfIeee := w.getLsbD 1 } }) ∧
    (∀ a, c.eng.queue = .run a :: qs → c.single = [] → c.double = [] →
      let r := RunDesc.ofBytes (c.peek a 64)
      r.fault c.eng a = none → r.fmtA = 4 → r.fmtB = 4 → r.sparse = 0 → (Oaw.ofNat r.oawA).mode = 0 → (Oaw.ofNat r.oawB).mode = 0 →
      ∃ s', exec (.engineRunCmd n) s = .next s' ∧ s.keepsOutside s' n ∧ (s'.core n).eng.queue = qs ∧
        (s'.core n).eng.kind = .fixedInt ∧ (s'.core n).eng.kCount = min (c.eng.kCount + r.k) (2 ^ 25 - 1) ∧
        (s'.core n).spad = c.spad ∧ (s'.core n).threads = c.threads ∧
        ∀ x y, x < 16 → y < 16 → (Sparse.get Cell.reset c.eng.cells (16 * x + y)).special = .finite →
          Sparse.get Cell.reset (s'.core n).eng.cells (16 * x + y) = { Sparse.get Cell.reset c.eng.cells (16 * x + y) with
            acc := (Sparse.get Cell.reset c.eng.cells (16 * x + y)).acc + sumTo r.k fun i =>
              c.sbyte ((Oaw.ofNat r.oawA).int8At i x) * c.sbyte ((Oaw.ofNat r.oawB).int8At i y) }) ∧
    ∀ a, c.eng.queue = .out a :: qs → c.single = [] → c.double = [] →
      let o := OutDesc.ofBytes (c.peek a 32)
      o.fault c.eng.kind a = none → o.fmt = 5 → o.cz = false → o.hm = false → o.clear = false → o.trans = false → 64 ≤ o.pitch →
      ∃ s', exec (.engineOutCmd n) s = .next s' ∧ s.keepsOutside s' n ∧ (s'.core n).eng.queue = qs ∧
        (s'.core n).threads = c.threads ∧
        (∀ x y i, x < 16 → y < 16 → i < 4 → (s'.core n).byteAt (o.dest + x * o.pitch + 4 * y + i) =
          byteOf (BitVec.ofInt 32 (max (-(2 ^ 31)) (min (2 ^ 31 - 1) (Sparse.get Cell.reset c.eng.cells (16 * x + y)).acc))).toNat i) ∧
        ∀ b, (∀ x, x < 16 → b < o.dest + x * o.pitch ∨ o.dest + x * o.pitch + 64 ≤ b) → (s'.core n).byteAt b = c.byteAt b

/-- R159, R162, R166: a queued cz.cfg that changes the form of a quiet compressor sets it and restarts the object's numbering;
cz.flush writes the staged bytes of VAL as a masked row; cz.hist writes the sixteen bins as one row and clears them. -/
def Sys2Proof.Claims.CompressorCommandResult : Prop :=
  ∀ (n : Nat) (qs : List EngCmd) (s : State), (s.core n).inSection = true → (s.core n).double = [] →
    let c := s.core n
    (∀ w : Word, c.eng.queue = .czCfg w :: qs → w.getLsbD 3 = false → c.comp.quiet = true →
      ∃ s', exec (.czCfgCmd n) s = .next s' ∧ s.keepsOutside s' n ∧ (s'.core n).spad = c.spad ∧ (s'.core n).eng.queue = qs ∧
        (s'.core n).comp.mode = w.toNat % 4 ∧ (s'.core n).comp.metaFull = w.getLsbD 2 ∧
        (s'.core n).comp.rowBlocks = w.toNat / 2 ^ 18 % 2 ^ 12 ∧ (s'.core n).comp.val = c.comp.val ∧
        (s'.core n).comp.info = c.comp.info ∧ (s'.core n).comp.l1 = c.comp.l1 ∧ (s'.core n).comp.row = c.comp.row) ∧
    (c.eng.queue = .czFlush :: qs → { c.comp with val := { c.comp.val with staged := [] } }.quiet = true →
      c.comp.val.staged.length < 64 → c.comp.val.staged ≠ [] → c.comp.val.ptr + 64 ≤ c.comp.val.limit →
      ∃ s', exec (.czFlushCmd n) s = .next s' ∧ s.keepsOutside s' n ∧ (s'.core n).eng.queue = qs ∧
        (s'.core n).comp = { c.comp.restarted with val := { c.comp.val with staged := [], ptr := c.comp.val.ptr + 64 } } ∧
        ∀ b, (s'.core n).byteAt b = if c.comp.val.ptr ≤ b ∧ b < c.comp.val.ptr + c.comp.val.staged.length
          then nth 0 c.comp.val.staged (b - c.comp.val.ptr) else c.byteAt b) ∧
    ∀ a, c.eng.queue = .czHist a :: qs → a % 64 = 0 → a < spadSize →
      ∃ s', exec (.czHistCmd n) s = .next s' ∧ s.keepsOutside s' n ∧ (s'.core n).eng.queue = qs ∧
        (s'.core n).comp = { c.comp with hist := [] } ∧
        ∀ b, (s'.core n).byteAt b = if a ≤ b ∧ b < a + 64
          then byteOf (Sparse.get 0 c.comp.hist ((b - a) / 4)) ((b - a) % 4) else c.byteAt b

/-- The engine and compressor carry out their commands. -/
def Obligations.EngineAndCompressorResult : Prop :=
  Sys2Proof.Claims.EngineCommandResult ∧ Sys2Proof.Claims.CompressorCommandResult

/-- R105, R106, R109, R111: a notice updates the shadow and is acknowledged; the last acknowledgement with no change queued leaves
no notice out; a write that passes the checks of its owner lands and counts; a rejection is recorded and counted. -/
def Sys2Proof.Claims.BezelLaneResult : Prop :=
  ∀ (n d : Nat) (s : State), d < 4 →
    let c := s.core n
    (∀ b gen len o rest m, takeFirst (fun m => !m.isWrite) (c.laneFrom d) = some (.notice b gen len o, rest) →
      nbrIn s.md.remap n d = some m → m ≠ n → ∃ s', exec (.bezelNotice n d) s = .next s' ∧
        (s'.core n).shadow d b = ⟨o, gen, len⟩ ∧ (s'.core n).laneFrom d = rest ∧
        (s'.core m).laneFrom (oppDir d) = (s.core m).laneFrom (oppDir d) ++ [.ack b] ∧
        (∀ k, k ≠ n → k ≠ m → s'.core k = s.core k) ∧ s'.md = s.md ∧ s'.hbm = s.hbm ∧ (s'.core n).threads = c.threads) ∧
    (∀ b rest, takeFirst (fun m => !m.isWrite) (c.laneFrom d) = some (.ack b, rest) → (c.bezel b).queued = [] →
      c.heldArr = [] → ∃ s', exec (.bezelNoticeAck n d) s = .next s' ∧ s.keepsOutside s' n ∧
        (s'.core n).bezel b = { c.bezel b with waiting := (c.bezel b).waiting.filter (· ≠ d) } ∧
        (∀ k, k ≠ b → (s'.core n).bezel k = c.bezel k) ∧ (s'.core n).laneFrom d = rest ∧ (s'.core n).threads = c.threads) ∧
    (∀ b off stamp row rest, c.lastDir = (d + 3) % 4 → takeFirst LaneMsg.isWrite (c.laneFrom d) = some (.write b off stamp row, rest) →
      s.bzCheck n b d off stamp = none → (c.bezel b).armed = false → nbrIn s.md.remap n d = none ∨
        (∃ k, nbrIn s.md.remap n d = some k ∧ k ≠ n ∧ Sparse.get [] (s.core k).bzOut (oppDir d) = []) →
      ∃ s', exec (.bezelWrite n) s = .next s' ∧ (s'.core n).lastDir = d ∧ (s'.core n).laneFrom d = rest ∧
        ((s'.core n).bezel b).arrivals = min ((c.bezel b).arrivals + 1) 0xFFFFFFFF ∧ ((s'.core n).bezel b).state = .opened ∧
        (∀ a, Sparse.get 0 (s'.core n).spad a = if (c.bezel b).base + off ≤ a ∧ a < (c.bezel b).base + off + 64
          then row.byte (a - ((c.bezel b).base + off)) else c.byteAt a) ∧ s'.hbm = s.hbm ∧ s'.md = s.md) ∧
    ∀ b off stamp found cause rest, takeFirst (fun m => !m.isWrite) (c.laneFrom d) = some (.reject b off stamp found cause, rest) →
      cause < 2 → ∃ s', exec (.bezelRejection n d) s = .next s' ∧ (s'.core n).laneFrom d = rest ∧
        (s'.core n).rd CR.REJ_COUNT = satAdd 16 (c.rd CR.REJ_COUNT) 1 ∧ (s'.region (regionOf n)).bzClosedSeen = true ∧
        (c.rd CR.REJ_VALID = 0 → (s'.core n).rd CR.REJ_VALID = 1 ∧ (s'.core n).rd CR.REJ_CAUSE = cause ∧
          (s'.core n).rd CR.REJ_OFFSET = off % 2 ^ 18 ∧ (s'.core n).rd CR.REJ_DIR = d ∧ (s'.core n).rd CR.REJ_BEZEL = b % 8 ∧
          (s'.core n).rd CR.GEN_SENT = stamp % 16 ∧
          (s'.core n).rd CR.GEN_FOUND = found % 16) ∧
        (s'.core n).spad = c.spad ∧ (s'.core n).threads = c.threads ∧ s'.md = s.md

/-- R173, R176, R177, R184, R186: a sequenced block whose CRC is correct and whose SEQ is the expected one settles what it
acknowledges, is put into the buffer of its class where it goes on or waits, and is acknowledged; a replay timeout sends every unacknowledged block
again, and with a block's eighth time is FLT_MESH_LINK; an output grants the first eligible candidate after the one it granted last,
when what waits to enter here has entered, and its block then travels on the link. -/
def Sys2Proof.Claims.MeshLinkResult : Prop :=
  (∀ (hub : Bool) (n k err : Nat) (bad : BitVec 3) (p : LinkEnd) (b : LinkBlock) (x : Payload) (rest : List LinkBlock) (s : State),
    let e := linkEndOf hub n k
    let l := s.link e
    let kept := if b.ackValid then dropThrough b.ackSeq l.replay else l.replay
    s.peer e = some p → p ≠ e → (s.link p).flight = b :: rest → b.crcOk err = true → b.seqd = true → b.nak = false → b.seq = l.expect →
    b.body = some x → (if hub then x.cls ≠ 3 else s.sinks n x = false ∧ outsOf s.md.remap n x ≠ []) →
    ∃ s', exec (.meshBlockReceive hub n k err bad) s = .next s' ∧
      (s'.link p).flight = rest ∧ (s'.link e).expect = (b.seq + 1) % 32 ∧ (s'.link e).nakSent = false ∧ (s'.link e).heard = true ∧
      (hub = false → (s'.link e).replay = kept ∧ (s'.link e).ackDue = true ∧
        (s'.core n).inBuf k x.cls = (s.core n).inBuf k x.cls ++ [⟨x, outsOf s.md.remap n x, none, s.now⟩]) ∧
      (hub = true → (∃ more, (s'.link e).replay = kept ++ more) ∧
        (∃ y ∈ (s'.link e).flight, y.ackValid = true ∧ y.ackSeq = b.seq % 32) ∧
        Sparse.get [] (s'.hub n).edgeIn k = Sparse.get [] (s.hub n).edgeIn k ++ [x]) ∧
      s'.hbm = s.hbm ∧ s'.md = s.md ∧ s'.regions = s.regions) ∧
  (∀ (hub : Bool) (n k : Nat) (bad : BitVec 3) (s : State),
    let e := linkEndOf hub n k
    let l := s.link e
    let again : Link := { l with
      replay := l.replay.map fun x => (x.1 + 1, x.2),
      flight := l.flight ++ l.replay.map fun x => { x.2 with ackSeq := (l.expect + 31) % 32, ackValid := l.heard, nak := l.nakDue },
      ackDue := false, nakDue := false }
    l.replay ≠ [] →
      (l.replay.all (fun x => decide (x.1 ≠ 7)) = true → ∃ s', exec (.meshReplayTimeout hub n k bad) s = .next s' ∧
        s'.link e = again ∧ s'.hbm = s.hbm ∧ s'.md = s.md ∧ s'.regions = s.regions) ∧
      ((∃ x ∈ l.replay, x.1 = 7) → let w := linkRouter e
        regionOf w.1 < 56 → (s.region (regionOf w.1)).rd RR.LINK_VALID = 0 →
        ∃ s', exec (.meshReplayTimeout hub n k 0) s = .next s' ∧ s'.link e = again ∧
          s.abortSent s' (regionOf w.1) (.ofRegion (regionOf w.1) logMeshLink) ∧ (s'.region (regionOf w.1)).rd RR.LINK_VALID = 1 ∧
          (s'.region (regionOf w.1)).rd RR.LINK_PORT = w.2 % 8 ∧ (s'.region (regionOf w.1)).rd RR.LINK_CORE = w.1 % 2 ^ 19 ∧
          s'.hbm = s.hbm ∧ s'.md = s.md)) ∧
  ∀ (n out k : Nat) (x : Entry) (l : List Entry) (s : State), (linkDest s.md.remap n out).isSome = true →
    let d := (s.releaseArrivals n).enter n
    (((List.range 20).map fun i => (Sparse.get 19 (d.core n).router.granted out + 1 + i) % 20).find?
      fun k => d.eligible n out k) = some k → Sparse.get [] (d.core n).router.inb k = x :: l →
    ∃ s', exec (.blockForward n out) s = .next s' ∧ Sparse.get 19 (s'.core n).router.granted out = k ∧
      Sparse.get [] (s'.core n).router.inb k = paidHead s.now out (x :: l) ∧
      (∃ b : LinkBlock, b.body = some x.body ∧ b.seqd = true ∧ b.seq = (d.link (.core n out)).nextSeq ∧
        (s'.link (.core n out)).nextSeq = (b.seq + 1) % 32 ∧
        (s'.link (.core n out)).replay = (d.link (.core n out)).replay ++ [(0, b)] ∧
        (s'.link (.core n out)).flight = (d.link (.core n out)).flight ++ [b]) ∧
      s'.hbm = d.hbm ∧ s'.md = d.md

/-- Bezel messages between neighbours, and blocks on the mesh. -/
def Obligations.BezelAndMeshResult : Prop :=
  Sys2Proof.Claims.BezelLaneResult ∧ Sys2Proof.Claims.MeshLinkResult

/-- R196, R204, R205: a reference cycle adds the gain to a core's balance, up to SHARE_BURST, while nothing waits for it; H0 moves
BOOST by the waiting blocks and sends it to each region, which applies it; a head block that stands too long is recorded, of those of one age the
one of the lowest core at its first port, and aborts the tick. -/
def Sys2Proof.Claims.ShareBoostAndProgress : Prop :=
  ∀ s : State,
    ((s.cores.all fun e => decide (e.2.memWait = []) && decide (e.2.dma.ctx = none)) = true →
      ∃ s', exec .shareBalanceGain s = .next s' ∧ (∀ n, n < numCores → (s'.core n).balance = s.gained n) ∧
        s'.hbm = s.hbm ∧ s'.md = s.md ∧ s'.hubs = s.hubs) ∧
    (∃ s', exec .boostEpoch s = .next s' ∧ s'.rd MR.BOOST = s.nextBoost s.waitingBlocks % 256 ∧
      (∀ r, r < 56 → s.toldRegion s' r (.boost (s.nextBoost s.waitingBlocks))
        { s.region r with boostIn := (s.region r).boostIn ++ [s.nextBoost s.waitingBlocks] }) ∧ s'.cores = s.cores ∧ s'.hbm = s.hbm) ∧
    (∀ r v l, (s.region r).boostIn = v :: l → ∃ s', exec (.boostMessage r) s = .next s' ∧ s.onlyRegion s' r ∧
      s'.region r = { s.region r with boost := v, boostIn := l }) ∧
    ∀ n port e l, (s.core n).inBuf port 0 = e :: l → (s.core n).inSection = true → s.rd MR.SNAP_EN = 0 →
      (s.region (regionOf n)).rd RR.NP_VALID = 0 → n < numCores →
      let x := (s.firstStuck (regionOf n) (max e.since (s.core n).secSince)).getD (n, port, e.body.destQ)
      ∃ s', exec (.progressWatchdog n port) s = .next s' ∧
        s.abortSent s' (regionOf n) (.ofRegion (regionOf n) logNoProgress) ∧
        (s'.region (regionOf n)).rd RR.NP_VALID = 1 ∧ (s'.region (regionOf n)).rd RR.NP_CORE = x.1 % 2 ^ 19 ∧
        (s'.region (regionOf n)).rd RR.NP_PORT = x.2.1 % 8 ∧ (s'.region (regionOf n)).rd RR.NP_QUEUE = x.2.2 % 32 ∧
        s'.cores = s.cores ∧ s'.hbm = s.hbm ∧ s'.md = s.md

/-- R220, R221, R226, R227: ARRIVE of the active section from a child counts for its round; RELEASE from the parent of the open
round sends RELEASE to the children and opens the next one; the lease of a round in which something arrived is recorded, with what is missing, and aborts the
tick. -/
def Sys2Proof.Claims.ClaspMessageResult : Prop :=
  ∀ (n d : Nat) (m : ClaspMsg) (c : Core) (s : State),
    let z := (s.core n).clasp m.clasp
    ((s.core n).claspTake d false = some (m, c) → (s.core n).claspNow m = true → z.valid = true → z.children.testBit d = true →
      z.overrun = false → z.ahead m.round = 0 →
      (setBit z.childArr d true &&& z.children ≠ z.children ∨ z.thrArr &&& z.threads ≠ z.threads) →
      ∃ s', exec (.claspArrive n d) s = .next s' ∧ s.keepsOutside s' n ∧
        (s'.core n).clasp m.clasp = { z with childArr := setBit z.childArr d true } ∧
        (s'.core n).claspIn = (s.core n).claspIn.erase m ∧ (s'.core n).threads = (s.core n).threads) ∧
    ((s.core n).claspTake d true = some (m, c) → (s.core n).claspNow m = true → z.valid = true → z.parent = d + 1 →
      m.round = z.openRound → z.overrun = false →
      (z.thrNext &&& z.threads ≠ z.threads ∨ z.childNext &&& z.children ≠ z.children) →
      ∃ s', exec (.claspRelease n d) s = .next s' ∧ s.keepsOutside s' n ∧
        (s'.core n).clasp m.clasp = { z with openRound := (z.openRound + 1) % 4, thrArr := z.thrNext, childArr := z.childNext,
                                             thrNext := 0, childNext := 0, sent := false } ∧
        (s'.core n).ctrlOut = (s.core n).ctrlOut ++ ((List.range 4).filter z.children.testBit).filterMap (fun e =>
          (nbrIn s.md.remap n e).map fun k => ⟨0, k, n, 0, .clasp ⟨oppDir e, true, m.clasp, z.openRound,
            (s.core n).rd CR.ACTIVE_EPOCH, (s.core n).secTick % 16⟩⟩) ∧
        ((s.core n).sec = .running → (s'.core n).sec = if m.clasp = (s.core n).finalClasp then .closing else .running) ∧
        (s'.core n).threads = (s.core n).threads) ∧
    ∀ k : Nat, let z := (s.core n).clasp k
      let g (s : State) : Region := s.region (regionOf n)
      (s.core n).inSection = true → z.valid = true → z.sent = false → z.thrArr ≠ 0 ∨ z.childArr ≠ 0 → n < numCores →
      (g s).rd RR.LEASE_VALID = 0 → ∃ s', exec (.claspLeaseExpiry n k) s = .next s' ∧
        s.abortSent s' (regionOf n) (.ofRegion (regionOf n) logClaspLease) ∧
        (g s').rd RR.LEASE_VALID = 1 ∧ (g s').rd RR.LEASE_CORE = n ∧ (g s').rd RR.LEASE_CLASP = k % 16 ∧
        (g s').rd RR.LEASE_ROUND = z.openRound % 4 ∧
        (g s').rd RR.MISSING_CHILDREN = (z.children - (z.children &&& z.childArr)) % 16 ∧
        (g s').rd RR.MISSING_THREADS = (z.threads - (z.threads &&& z.thrArr)) % 256 ∧
        s'.cores = s.cores ∧ s'.hbm = s.hbm ∧ s'.md = s.md

/-- Memory share, boost, progress watchdog and clasp messages. -/
def Obligations.ShareAndClaspResult : Prop :=
  Sys2Proof.Claims.ShareBoostAndProgress ∧ Sys2Proof.Claims.ClaspMessageResult

/-- R60, R238: JOB_CMD LOAD of a slot in which no round runs begins its check; the end of the check installs the job or answers the
refusal code; UNLOAD empties an IDLE or ABORTED slot; a command while a round runs is refused with BUSY, counted, and recorded for the host or
told to the MP. -/
def Sys2Proof.Claims.JobCommandResult : Prop :=
  ∀ (host : Bool) (id : BitVec 16) (slot : BitVec 10) (s : State),
    (s.redRuns slot.toNat = false → s.md.jobCheck = none → ∃ s', exec (.jobLoad (host, id, slot)) s = .next s' ∧
      s'.md = { s.md with jobCheck := some slot.toNat } ∧ (s'.hub 0).rd HR.JOB_RESULT = 1 ∧
      (s'.hub 0).rd HR.RESULT_SLOT = slot.toNat ∧ s'.hbm = s.hbm ∧ s'.cores = s.cores) ∧
    (∀ z, s.redSlot slot.toNat = some z → z.running = false → s.md.jobCheck = none →
      ∃ s', exec (.jobUnload (host, id, slot)) s = .next s' ∧ s'.redSlot slot.toNat = none ∧ s.onlySlot s' slot.toNat ∧
        (s'.hub 0).rd HR.JOB_RESULT = 0 ∧ (s'.hub 0).rd HR.RESULT_SLOT = slot.toNat) ∧
    (s.redRuns slot.toNat = true → ∀ i ∈ [Instr.jobLoad (host, id, slot), .jobUnload (host, id, slot)], ∃ s', exec i s = .next s' ∧
      { s'.md with regs := s.md.regs } = s.md ∧ (s'.hub 0).rd HR.JOB_RESULT = 2 ∧ (s'.hub 0).rd HR.RESULT_SLOT = slot.toNat ∧
      s'.rd MR.BUSY_COUNT = satAdd 16 (s.rd MR.BUSY_COUNT) 1 ∧
      (host = true → s.rd MR.BUSY_VALID = 0 → s'.rd MR.BUSY_VALID = 1 ∧ s'.rd MR.BUSY_REQ_ID = id.toNat) ∧
      (host = false → s'.outbox = s.outbox ++ [.mpStatus .busy]) ∧ s'.hbm = s.hbm ∧ s'.cores = s.cores) ∧
    (s.md.jobCheck = some slot.toNat → s.redRuns slot.toNat = false →
      ∃ s', exec .jobCheckDone s = .next s' ∧ s'.md.jobCheck = none ∧ (s'.hub 0).rd HR.RESULT_SLOT = slot.toNat ∧
        match ((s.updMd fun m => { m with jobCheck := none }).checkJob slot.toNat).1 with
        | .ok j => s'.redSlot slot.toNat = some (.load j) ∧ (s'.hub 0).rd HR.JOB_RESULT = 0
        | .error code => s'.redSlot slot.toNat = s.redSlot slot.toNat ∧ (s'.hub 0).rd HR.JOB_RESULT = code % 16)

/-- R240, R242, R248: a START token starts the round of an IDLE slot; the first read of a block that the member owns hands it its local
exponent; a round past its lease is FLT_REDUCE_TIMEOUT, which aborts the slot and the tick. -/
def Sys2Proof.Claims.ReduceRoundResult : Prop :=
  ∀ (slot : Nat) (z : RedSlot) (s : State), s.redSlot slot = some z →
    (∀ k x row l, takeCd (Sparse.get [] (s.hub 0).edgeIn k) = some (x, row, l) → x.endpoint = slot → slot < 1024 → x.signal = false →
      z.running = false → z.aborted = false → z.apart = [] → z.settled = true →
      ∃ s', exec (.reduceStart 0 k) s = .next s' ∧ s'.redSlot slot = some { z with running := true } ∧ s.onlySlot s' slot ∧
        Sparse.get [] (s'.hub 0).edgeIn k = l) ∧
    (∀ b cs s1, z.running = true → b < z.job.blocks → z.sent.contains b = false → z.job.gather = false → z.settled = true →
      (z.eloc.any fun e => e.1 = b) = false → z.job.owner b = z.job.self →
      s.readContribs slot z.job z.round b = (some cs, s1) → s1.redSlot slot = some z →
      ∃ s', exec (.reduceContribRead slot b) s = .next s' ∧
        s'.redSlot slot = some { z with eloc := Sparse.put z.eloc b (blockExp (cs.flatMap id)) } ∧
        ((s'.hub (z.job.procHub b)).msgs.getLast?.map RxMsg.body) = some (RedRec.bytes ⟨1, b2n z.job.w48, z.round, z.job.self, 1, b,
          leBytes 2 (blockExp (cs.flatMap id) % 2 ^ 16).toNat⟩)) ∧
    (z.running = true → (s.hub 0).rd HR.RED_FAULT_VALID = 0 → slot < 1024 → ∃ s', exec (.reduceLeaseExpiry slot) s = .next s' ∧
      s'.redSlot slot = some z.kill ∧ (s'.hub 0).rd HR.RED_FAULT_VALID = 1 ∧ (s'.hub 0).rd HR.RED_FAULT_CODE = 2 ∧
      (s'.hub 0).rd HR.RED_FAULT_SLOT = slot ∧ s'.md.tu.inbox = s.md.tu.inbox ++ [.ofHub 0 logReduceTimeout] ∧ s'.hbm = s.hbm)

/-- Reduction jobs and the rounds of a slot. -/
def Obligations.ReductionRoundResult : Prop :=
  Sys2Proof.Claims.JobCommandResult ∧ Sys2Proof.Claims.ReduceRoundResult

/-- R242, R245, R253, R256: a record of the round in progress is taken in: an exponent, a block exponent, a partial of an own block,
the thinned partials of a chunk, a gathered granule, which is written where it belongs. -/
def Sys2Proof.Claims.ReduceRecordResult : Prop :=
  ∀ (h i slot : Nat) (z : RedSlot) (r : RedRec) (u : List Byte) (s : State), z.aborted = false → r.first < z.job.blocks →
    let ps (b : Nat) := Sparse.get [] z.parts b
    (s.recordFor 1 h i slot z r u → z.settled = true → z.job.gather = false → z.job.owner r.first = z.job.self →
      (Sparse.get [] z.exps r.first).any (fun e => e.1 = r.member) = false →
      (Sparse.get [] z.exps r.first).length + 1 < z.job.members →
      ∃ s', exec (.expRecord h i) s = .next s' ∧ s.onlySlot s' slot ∧ s'.redSlot slot = some { z with
        exps := Sparse.put z.exps r.first (Sparse.put (Sparse.get [] z.exps r.first) r.member (BitVec.ofNat 16 (leNat u)).toInt) }) ∧
    (s.recordFor 2 h i slot z r u → z.settled = true → z.job.gather = false → z.job.owner r.first = r.member →
      (z.eblk.any fun e => e.1 = r.first) = false →
      ∃ s', exec (.expmaxRecord h i) s = .next s' ∧ s.onlySlot s' slot ∧
        s'.redSlot slot = some { z with eblk := Sparse.put z.eblk r.first (BitVec.ofNat 16 (leNat u)).toInt }) ∧
    (s.recordFor 3 h i slot z r u → z.settled = true → z.job.gather = false → z.job.thin = false →
      z.job.owner r.first = z.job.self → ps r.first = [] → 1 < z.job.members →
      ∃ s', exec (.dataRecord h i) s = .next s' ∧ s.onlySlot s' slot ∧
        s'.redSlot slot = some { z with parts := Sparse.put z.parts r.first [(r.member, dataLanes z.job.w48 u)] }) ∧
    (s.recordFor 4 h i slot z r u → z.settled = true → z.job.gather = false → z.job.thin = true → 16 * r.first + 1 = z.job.blocks →
      z.job.owner (16 * r.first) = z.job.self → ps (16 * r.first) = [] → 1 < z.job.members →
      (thinEntries z.job.w48 u).all (fun e => decide (e.1 < 64)) = true →
      ∃ s', exec (.thinRecord h i) s = .next s' ∧ s.onlySlot s' slot ∧
        s'.redSlot slot = some { z with parts := Sparse.put z.parts (16 * r.first) [(r.member, (List.range 64).map fun k =>
          match (thinEntries z.job.w48 u).find? fun e => e.1 = k with | some e => e.2 | none => ⟨0, 0⟩)] }) ∧
    ∀ pa, s.recordFor 5 h i slot z r u → z.sums = [] → z.due = [] → z.unacked ≠ 0 → z.job.gather = true →
      z.job.owner r.first = r.member → r.member ≠ z.job.self → z.written.contains r.first = false →
      let va := z.job.granuleAt z.round r.first
      let g := s.hub (hubOf va)
      g.held.contains (.engine (va / 2 ^ 16) slot) = false → g.lookup va true false = some pa → pa % 256 = 0 →
      pa + 256 ≤ hbmSize → hubOf pa = hubOf va → u.length = 256 →
      (List.range 4).all (fun k => !s.channelFailed (pa + 64 * k)) = true →
      ∃ s', exec (.gatherRecord h i) s = .next s' ∧ s'.redSlot slot = some { z with written := z.written ++ [r.first] } ∧
        ∀ a, Sparse.get 0 s'.hbm a = if pa ≤ a ∧ a < pa + 256 then nth 0 u (a - pa) else Sparse.get 0 s.hbm a

/-- R250, R251: a finished token of the sampled check returns to its block; with the sixteenth, lanes that agree with the block's
sums end the check, and lanes that do not are FLT_REDUCE_MISMATCH. -/
def Sys2Proof.Claims.CheckReturnResult : Prop :=
  ∀ (k slot b q : Nat) (x : CdHead) (row : Row) (l : List Payload) (rows : Sparse Row) (z : RedSlot) (s : State),
    takeCd (Sparse.get [] (s.hub 0).edgeIn k) = some (x, row, l) → x.endpoint = 0x2000 + slot → slot < 1024 → x.signal = false →
    s.redSlot slot = some z → (z.checks.find? fun (e : Nat × (Nat × Sparse Row)) => decide (e.2.1 = z.returned / 16)) = some (b, (q, rows)) →
    let rows1 := Sparse.put rows (z.returned % 16) row
    let sum := Sparse.get [] z.sums b
    let agree := (List.range 64).all fun i => decide ((nth ⟨0, 0⟩ sum i).st ≠ 0) || decide ((nth ⟨0, 0⟩ sum i).sum = rebuilt rows1 i)
    (rows1.length < 16 → ∃ s', exec (.checkReturn 0 k) s = .next s' ∧ s.onlySlot s' slot ∧
      s'.redSlot slot = some { z with returned := z.returned + 1, checks := Sparse.put z.checks b (q, rows1) }) ∧
    (16 ≤ rows1.length → agree = true → z.settled = true → ∃ s', exec (.checkReturn 0 k) s = .next s' ∧ s.onlySlot s' slot ∧
      s'.redSlot slot = some { z with returned := z.returned + 1, checks := Sparse.erase z.checks b } ∧
      (s'.hub 0).rd HR.CHECKS_DONE = satAdd 32 ((s.hub 0).rd HR.CHECKS_DONE) 1) ∧
    (16 ≤ rows1.length → agree = false → ∃ s', exec (.checkReturn 0 k) s = .next s' ∧
      s'.redSlot slot = some { z with returned := z.returned + 1 }.kill ∧
      ((s.hub 0).rd HR.RED_FAULT_VALID = 0 → (s'.hub 0).rd HR.RED_FAULT_CODE = 1 ∧ (s'.hub 0).rd HR.RED_FAULT_SLOT = slot) ∧
      s'.md.tu.inbox = s.md.tu.inbox ++ [.ofHub 0 logReduceMismatch] ∧ s'.hbm = s.hbm)

/-- Reduction records and the sampled check. -/
def Obligations.ReductionRecordResult : Prop :=
  Sys2Proof.Claims.ReduceRecordResult ∧ Sys2Proof.Claims.CheckReturnResult

/-- R285, R289, R290, R293: a hub takes the next request of an edge port; a page it caches answers it, unless an earlier request of its granule waits, else it waits for
a walk; a
walk that finds an address makes the request ready, one that finds no page holds it at a new fault of the MP's table. -/
def Obligations.TranslationResult : Prop :=
  ∀ (h k i : Nat) (q : MReq) (l : List Payload) (s : State),
    let u := s.hub h
    (takeReq (Sparse.get [] u.edgeIn k) = some (q, l) →
      (∀ pa, u.lookup q.va q.write false = some pa → u.blocked u.walks q = false →
        ∃ s', exec (.memoryRequest h k) s = .next s' ∧ s.onlyHub s' h ∧ Sparse.get [] (s'.hub h).edgeIn k = l ∧
          (s'.hub h).ready = u.ready ++ [⟨q, pa, false⟩] ∧ (s'.hub h).walks = u.walks) ∧
      (u.lookup q.va q.write false = none ∨ u.blocked u.walks q = true →
        ∃ s', exec (.memoryRequest h k) s = .next s' ∧ s.onlyHub s' h ∧
        Sparse.get [] (s'.hub h).edgeIn k = l ∧ (s'.hub h).walks = u.walks ++ [⟨q, false⟩] ∧ (s'.hub h).ready = u.ready)) ∧
    ∀ w e s1, u.walks[i]? = some w → u.blocked (u.walks.take i) w.req = false → s.walk h w.req.va w.req.write false = (e, s1) →
      (∀ pa pe, e.res = .ok pa pe → ∃ s', exec (.pageWalk h i) s = .next s' ∧
        (s'.hub h).ready = u.ready ++ [⟨w.req, pa, w.old⟩] ∧ (s'.hub h).walks = u.walks.eraseIdx i ∧ s'.hbm = s.hbm ∧
        s'.cores = s.cores) ∧
      (∀ kd level entry at_, e.res = .fault kd level entry at_ → w.req.unit ≠ 3 → kd ≠ .notPresent →
        (s.md.faults.any fun e => decide (e.2.page = w.req.va / 2 ^ 16)) = false → (∃ j, j < 256 ∧ s.md.faults.all (fun e => e.1 ≠ j) = true) →
        ∃ s', exec (.pageWalk h i) s = .next s' ∧ (s'.hub h).held = u.held ++ [.mreq (w.req.va / 2 ^ 16) w.req] ∧
          (s'.hub h).walks = u.walks.eraseIdx i ∧
          ∃ x ∈ s'.md.faults, x.2.page = w.req.va / 2 ^ 16 ∧ x.2.kind = kd ∧ x.2.level = level ∧ x.2.entry = entry)

/-- R283, R284: the controller serves a ready request to a block it can read: a read answers the block's bytes, a write changes the
bytes of its mask and no other. -/
def Sys2Proof.Claims.HbmAccessResult : Prop :=
  ∀ (h i : Nat) (r : Ready) (s : State), h < 4 → s.goodBlock r.pa = true → s.answerable h r.req →
    ((s.hub h).servable i false = some r → ∃ s', exec (.hbmRead h i) s = .next s' ∧
      s.answers s' h r.req (.data (Row.ofBytes (s.hbmPeek (r.pa / 64 * 64) 64))) ∧ (s'.hub h).ready = (s.hub h).ready.eraseIdx i ∧
      s'.hbm = s.hbm ∧ s'.md = s.md ∧ s'.cores = s.cores) ∧
    ((s.hub h).servable i true = some r → s.noPosts → ∃ s', exec (.hbmWrite h i) s = .next s' ∧
      s.answers s' h r.req .ack ∧ (s'.hub h).ready = (s.hub h).ready.eraseIdx i ∧
      ∀ a, Sparse.get 0 s'.hbm a = if a / 64 = r.pa / 64 ∧ r.req.mask.testBit (a % 64) = true
        then r.req.data.byte (a % 64) else Sparse.get 0 s.hbm a)

/-- R197, R286, R287: the patrol scrub passes its next block and changes no value, as a refresh does; a training takes its channel
until it ends, and one that fails marks the channel FAILED and aborts the tick; the acknowledged header completes a snapshot. -/
def Sys2Proof.Claims.BackgroundMemoryWork : Prop :=
  ∀ (h i : Nat) (s : State),
    ((s.hub h).regs.inForce (ctl i KR.SCRUB_EN) = 1 →
      ∃ s', exec (.patrolScrub h i) s = .next s' ∧ s'.hbm = s.hbm ∧ s'.hbmCrc = s.hbmCrc ∧ s'.cores = s.cores ∧
        Sparse.get 0 (s'.hub h).scrub i = (Sparse.get 0 (s.hub h).scrub i + 1) % stackBlocks) ∧
    (∀ bank, exec (.hbmRefresh h i) s = .next s ∧ exec (.refreshManagement h i bank) s = .next s) ∧
    (∀ c, Sparse.get 0 (s.hub h).training i = 0 → ∃ s', exec (.retrainTimer h i c) s = .next s' ∧ s.onlyHub s' h ∧
      Sparse.get 0 (s'.hub h).training i = c + 1) ∧
    (∀ c, Sparse.get 0 (s.hub h).training i = c + 1 →
      (∃ s', exec (.retrainDone h i true) s = .next s' ∧ s.onlyHub s' h ∧ Sparse.get 0 (s'.hub h).training i = 0 ∧
        (s'.hub h).regs = (s.hub h).regs) ∧
      (c < 32 → ∃ s', exec (.retrainDone h i false) s = .next s' ∧ Sparse.get 0 (s'.hub h).training i = 0 ∧
        ((s'.hub h).rd (ctl i KR.CH_FAILED)).testBit c = true ∧
        s'.md.tu.inbox = s.md.tu.inbox ++ [.ofHub h logMemChannel] ∧ s'.hbm = s.hbm)) ∧
    ∀ r q l, (s.region r).replies = (q, .ack) :: l → q.gen = (s.region r).genNow → (s.region r).snapHead = none →
      q.data.getLsbD 8 = true →
      ∃ s', exec (.regionControllerReply r) s = .next s' ∧ s.onlyRegion s' r ∧ (s'.region r).rd RR.NP_SNAP_DONE = 1 ∧
        (s'.region r).replies = l ∧ (s'.region r).snapLeft = (s.region r).snapLeft - 1

/-- R99, R101: the scrubber reads its next row, counts its correctable words and makes them due for write-back, and counts its
uncorrectable words, the first of which it records if the record is free; a word due is written back. No value of the scratchpad
changes. -/
def Sys2Proof.Claims.ScratchpadUpkeep : Prop :=
  ∀ (n : Nat) (s : State),
    let c := s.core n
    let row := (List.range 8).map fun i => 8 * c.rd CR.SCRUB_ROW + i
    let ones := row.filter fun w => c.single.contains w
    let twos := row.filter fun w => c.double.contains w
    (c.regs.inForce CR.SCRUB_EN = 1 → c.rd CR.SCRUB_ROW < 2560 → ∃ s', exec (.scratchpadScrub n) s = .next s' ∧
      s.keepsOutside s' n ∧ { s'.core n with regs := c.regs, writebacks := c.writebacks } = c ∧
      (s'.core n).rd CR.SCRUB_ROW = (c.rd CR.SCRUB_ROW + 1) % 2560 ∧
      (s'.core n).writebacks = c.writebacks ++ ones.filter (fun w => !c.writebacks.contains w) ∧
      (s'.core n).rd CR.CE_COUNT = satAdd 16 (c.rd CR.CE_COUNT) ones.length ∧
      (∀ w l, twos = w :: l → (s'.core n).rd CR.UE_COUNT = satAdd 16 (c.rd CR.UE_COUNT) twos.length ∧
        (c.rd CR.UE_VALID = 0 → (s'.core n).rd CR.UE_VALID = 1 ∧ (s'.core n).rd CR.UE_SCRUB = 1 ∧
          (s'.core n).rd CR.UE_ADDR = 8 * w)) ∧
      c.keepsRegs (s'.core n) ([CR.CE_COUNT, CR.CE_SAT, CR.SCRUB_ROW, CR.SCRUB_SWEEPS, CR.SWEEP_SAT] ++
        if twos = [] then [] else [CR.UE_COUNT, CR.UE_SAT, CR.UE_VALID, CR.UE_SCRUB, CR.UE_ADDR])) ∧
    ∀ w ws, c.writebacks = w :: ws → ∃ s', exec (.eccWriteback n) s = .next s' ∧ s.keepsOutside s' n ∧
      s'.core n = { c with writebacks := ws, single := c.single.filter fun x => decide (x ≠ w) }

/-- HBM reads and writes, and the upkeep of HBM and scratchpad. -/
def Obligations.MemoryResult : Prop :=
  Sys2Proof.Claims.HbmAccessResult ∧ Sys2Proof.Claims.BackgroundMemoryWork ∧ Sys2Proof.Claims.ScratchpadUpkeep

/-- R291: INVALIDATE empties the hubs' caches of the pages of its range, or of every page, and INV_BUSY reads 1 until what began
before it has ended; one written meanwhile is ignored. -/
def Sys2Proof.Claims.InvalidateResult : Prop :=
  ∀ s : State,
    (s.md.inv = none → ∃ s', exec .invalidate s = .next s' ∧ s'.rd MR.INV_BUSY = 1 ∧ s'.hbm = s.hbm ∧ s'.cores = s.cores ∧
      ∀ h, h < 4 → (∀ e ∈ (s'.hub h).cache, e ∈ (s.hub h).cache ∧ s.rd MR.INV_PAGES ≠ 0 ∧
        (e.big = false → e.vpage < (s.rd MR.INV_VA_LO + 2 ^ 32 * s.rd MR.INV_VA_HI) / 2 ^ 16 ∨
          (s.rd MR.INV_VA_LO + 2 ^ 32 * s.rd MR.INV_VA_HI) / 2 ^ 16 + s.rd MR.INV_PAGES ≤ e.vpage))) ∧
    (s.md.inv.isSome = true → ∃ s', exec .invalidate s = .next s' ∧ s.onlyMdRegs s' [MR.CMD_IGNORED, MR.CMD_IGNORED_SAT]) ∧
    (s.md.inv.isSome = true → (∀ h, h < 4 → (s.hub h).walks.any (·.old) = false ∧ (s.hub h).ready.any (·.old) = false) →
      ∃ s', exec .invalidateDone s = .next s' ∧ s.onlyMd s' ∧ s'.md.inv = none ∧ s'.rd MR.INV_BUSY = 0)

/-- R294, R295: when the MP has zeroed the pool page of a fault, or the runtime answers RETRY, the fault is gone and every request
held on its page walks again; on DENY none of them is held, and the one that was is refused. -/
def Sys2Proof.Claims.FaultResolution : Prop :=
  ∀ (i : Nat) (f : PFault) (s : State), (s.md.faults.find? fun e => decide (e.1 = i)) = some (i, f) →
    (∀ h, h < 4 → ((s.hub h).held.all fun x => match x with | .mreq _ _ => true | .engine p _ => decide (p ≠ f.page)) = true) →
    let gone (s' : State) : Prop := (∀ e ∈ s'.md.faults, e.1 ≠ i) ∧
      ∀ h, h < 4 → (s'.hub h).held = (s.hub h).held.filter fun x => !x.onPage f.page
    let again (s' : State) : Prop := ∀ h, h < 4 → ∀ q, HeldReq.mreq f.page q ∈ (s.hub h).held → ⟨q, false⟩ ∈ (s'.hub h).walks
    (∀ pa, f.demand = some pa → ∃ s', exec (.demandMapDone i) s = .next s' ∧ gone s' ∧ again s' ∧
      s'.rd MR.DEMAND_MAPS = satAdd 16 (s.rd MR.DEMAND_MAPS) 1) ∧
    (f.demand = none → s.rd MR.RESOLVE_ID = f.seq * 256 + i →
      (s.md.faults.find? fun e => decide (e.2.seq * 256 + e.1 = s.rd MR.RESOLVE_ID) && e.2.demand.isNone) = some (i, f) →
      (∃ s', exec .resolveRetry s = .next s' ∧ gone s' ∧ again s' ∧ s'.hbm = s.hbm) ∧
      (∃ s', exec .resolveDeny s = .next s' ∧ gone s' ∧ s'.hbm = s.hbm ∧
        ∀ h q, h < 4 → (s.hub h).held.filter (·.onPage f.page) = [.mreq f.page q] →
          (∀ k, k < 4 → k ≠ h → (s.hub k).held.filter (·.onPage f.page) = []) →
          s.answerable h q → s.answers s' h q .denied))

/-- Invalidation and the resolution of translation faults. -/
def Obligations.FaultAndInvalidateResult : Prop :=
  Sys2Proof.Claims.InvalidateResult ∧ Sys2Proof.Claims.FaultResolution

/-- R75, R76, R77: the reply of a far load writes its register or pair and lets its thread, which waits for it and has no other access at a
translation fault, go on; a refusal stops the thread with its fault; the acknowledgement of a far store lowers the count of those
outstanding, and a refusal stops the thread that issued it. A reply of an old generation changes no thread. -/
def Sys2Proof.Claims.FarReplyResult : Prop :=
  ∀ (n port : Nat) (q : MReq) (a : Reply) (s : State),
    let c := s.core n
    let t := q.thread
    let th (s' : State) : Thread := (s'.core n).thread t
    (c.replyAt port (fun q => decide (q.unit = 0) && !q.write) = some (q, a) →
      (∀ f row, q.gen = c.genNow → (c.thread t).status = .waiting → (c.thread t).farHeld = 0 → (c.thread t).farLoad = some f →
        a = .data row → let v := row.toNat / 2 ^ (8 * (f.addr % 64))
        ∃ s', exec (.farReply n port) s = .next s' ∧ s.keepsOutside s' n ∧
          th s' = { c.thread t with g := (th s').g, status := .ready, wait := .none, farLoad := none, pc := (c.thread t).pc + 4 } ∧
          (f.wide = false → (th s').rg f.dst = if f.dst = 0 then 0 else BitVec.ofNat 32 v) ∧
          (f.wide = true → (th s').rg f.dst = (if f.dst = 0 then 0 else BitVec.ofNat 32 v) ∧
            (th s').rg (f.dst + 1) = if f.dst + 1 = 0 then 0 else BitVec.ofNat 32 (v / 2 ^ 32)) ∧
          (∀ r, r ≠ f.dst → (f.wide = true → r ≠ f.dst + 1) → (th s').rg r = (c.thread t).rg r) ∧
          (∀ u, u ≠ t → (s'.core n).thread u = c.thread u) ∧ (s'.core n).spad = c.spad) ∧
      (∀ f, q.gen = c.genNow → (c.thread t).status = .waiting → (c.thread t).farLoad = some f →
        a = .notHbm ∨ a = .unmapped ∨ a = .denied ∨ a = .uncorrectable → t < 8 →
        ∃ s', exec (.farReply n port) s = .next s' ∧
          th s' = { c.thread t with status := .stopped, wait := .none, farLoad := none } ∧
          c.recorded (s'.core n) n 0 t a.fault (c.thread t).pc.toNat f.addr ∧
          (regionOf n < 56 → s.abortSent s' (regionOf n) (.ofCore n a.fault)) ∧ s'.hbm = s.hbm) ∧
      (q.gen ≠ c.genNow → ∃ s', exec (.farReply n port) s = .next s' ∧ s.keepsOutside s' n ∧ (s'.core n).threads = c.threads)) ∧
    (c.replyAt port (fun q => decide (q.unit = 0) && q.write) = some (q, a) → q.gen = c.genNow →
      (a = .ack → ∃ s', exec (.farStoreAck n port) s = .next s' ∧ s.keepsOutside s' n ∧
        th s' = { c.thread t with farStores := (c.thread t).farStores - 1 } ∧
        (∀ u, u ≠ t → (s'.core n).thread u = c.thread u)) ∧
      (a = .notHbm ∨ a = .unmapped ∨ a = .denied ∨ a = .uncorrectable → t < 8 → ∃ s', exec (.farStoreAck n port) s = .next s' ∧
        th s' = { c.thread t with farStores := (c.thread t).farStores - 1, status := .stopped, wait := .none, farLoad := none } ∧
        c.recorded (s'.core n) n 0 t a.fault q.pc.toNat (q.va + ((List.range 64).find? fun i => q.mask.testBit i).getD 0) ∧
        (regionOf n < 56 → s.abortSent s' (regionOf n) (.ofCore n a.fault)) ∧ s'.hbm = s.hbm))

/-- R96, R300, R301, R302, R303: the next descriptor starts when the one before it has issued its rows and its checks pass, else the
engine stops with the fault; its next row leaves as a request when it is the turn of descriptor rows and the share allows; a row that comes back
lands and counts, and an acknowledged one counts; a FILL writes its pattern to every row and completes, and a COPY between rows that do not
overlap copies them and completes. -/
def Sys2Proof.Claims.DmaEngineResult : Prop :=
  ∀ (n : Nat) (s : State),
    let c := s.core n
    let u := c.dma
    (∀ i d, (u.queue.findIdx? fun d => !d.started) = some i → u.queue[i]? = some d → u.stopped = false →
      (u.queue.take i).all DmaDesc.allIssued = true →
      (d.check = none → ∃ s', exec (.dmaDescriptorStart n) s = .next s' ∧ s.keepsOutside s' n ∧
        s'.core n = c.updDesc i fun d => { d with started := true }) ∧
      (∀ code addr dev, d.check = some (code, addr, dev) → ∃ s', exec (.dmaDescriptorStart n) s = .next s' ∧
        (s'.core n).dma = { u with stopped := true } ∧ c.recorded (s'.core n) n 3 0 code 0 addr ∧
        (regionOf n < 56 → s.abortSent s' (regionOf n) (.ofCore n code)) ∧ (s'.core n).threads = c.threads ∧ s'.hbm = s.hbm)) ∧
    (∀ i d, u.current = some (i, d) → c.turnNow n false = some 2 → c.canRequest = true → c.memWait = [] → c.ctxReq n = none →
      (d.typ = 2 → c.double = []) →
      let q : MReq := ⟨decide (d.typ = 2), d.rowVa d.issued, n, 0, 1, c.rowTag i d.issued, c.genNow,
        if d.typ = 2 then Row.ofBytes (c.peek (d.rowAddr d.issued) 64) else 0, if d.typ = 2 then fullMask else 0, 0, 0⟩
      ∃ s', exec (.dmaRowIssue n) s = .next s' ∧ s.keepsOutside s' n ∧ (s'.core n).balance + shareCost = c.balance ∧
        (s'.core n).dma.queue[i]?.map (fun d => (d.issued, d.outstanding)) = some (d.issued + 1, d.outstanding ++ [d.issued]) ∧
        (outsOf s.md.remap n (.mreq q) ≠ [] →
          (s'.core n).inBuf 0 1 = c.inBuf 0 1 ++ [⟨.mreq q, outsOf s.md.remap n (.mreq q), none, s.now⟩]) ∧
        (s'.core n).spad = c.spad ∧ (s'.core n).threads = c.threads) ∧
    (∀ port q i d, q.gen = c.genNow → c.rowOf q.tag = some (i, d) → d.done + 1 < d.count → u.queue.all (fun x => decide (x.done < x.count)) = true →
      (∀ row, c.replyAt port (fun q => decide (q.unit = 1) && !q.write) = some (q, .data row) →
        ∃ s', exec (.dmaLoadReply n port) s = .next s' ∧ s.keepsOutside s' n ∧
          (s'.core n).dma.queue[i]?.map (fun d => (d.done, d.outstanding)) =
            some (d.done + 1, d.outstanding.filter (· ≠ q.tag % 4096)) ∧
          (s'.core n).rd CR.DMA_ROWS = satAdd 32 (c.rd CR.DMA_ROWS) 1 ∧ (s'.core n).threads = c.threads ∧
          ∀ a, (s'.core n).byteAt a = let at_ := d.rowAddr (q.tag % 4096)
            if at_ ≤ a ∧ a < at_ + 64 then row.byte (a - at_) else c.byteAt a) ∧
      (c.replyAt port (fun q => decide (q.unit = 1) && q.write) = some (q, .ack) →
        ∃ s', exec (.dmaStoreAck n port) s = .next s' ∧ s.keepsOutside s' n ∧ (s'.core n).spad = c.spad ∧
          (s'.core n).rd CR.DMA_ROWS = satAdd 32 (c.rd CR.DMA_ROWS) 1 ∧ (s'.core n).threads = c.threads ∧
          (s'.core n).dma.queue[i]?.map (fun d => (d.done, d.outstanding)) =
            some (d.done + 1, d.outstanding.filter (· ≠ q.tag % 4096)))) ∧
    ∀ d, u.queue = [d] → d.started = true → d.allIssued = false → u.stopped = false → d.w0.testBit 4 = false →
      let dst := d.oa.base / 64 * 64
      let len := 64 * d.count
      let ends (s' : State) : Prop := s.keepsOutside s' n ∧ (s'.core n).dma.queue = [] ∧
        (s'.core n).dma.doneTag = (u.doneTag + 1) % 2 ^ 16 ∧ (s'.core n).threads = c.threads
      (d.typ = 3 → ∃ s', exec (.fillCopyDone n) s = .next s' ∧ ends s' ∧
        ∀ a, (s'.core n).byteAt a = if dst ≤ a ∧ a < dst + len then byteOf (d.w2 % 2 ^ 64) (a % 8) else c.byteAt a) ∧
      (d.typ = 4 → c.double = [] → (dst + len ≤ d.w2 ∨ d.w2 + len ≤ dst) → ∃ s', exec (.fillCopyDone n) s = .next s' ∧ ends s' ∧
        ∀ a, (s'.core n).byteAt a = if dst ≤ a ∧ a < dst + len then c.byteAt (d.w2 + (a - dst)) else c.byteAt a)

/-- Replies to far accesses, and the DMA engine. -/
def Obligations.FarReplyAndDmaResult : Prop :=
  Sys2Proof.Claims.FarReplyResult ∧ Sys2Proof.Claims.DmaEngineResult

/-- R321, R322, R323: a whole packet with the expected SEQ is delivered and, with ACK_NOW, acknowledged; an ACK releases what it
covers, and is noted for a tick report; a NAK has the blocks it names sent again; so has a re-send time that passes; an ACK that is due goes out with ACK_DELAY. -/
def Sys2Proof.Claims.TransportResult : Prop :=
  (∀ (p : Nat) (ce : Bool) (b : List Byte) (x : Header) (s : State), s.portRd p PR.LINK_UP = 1 → s.headerCheck b = .ok x →
    (∀ f, x.typ ≠ 1 → x.typ ≠ 2 → s.rxContext (p / 9) p x = some f → f.expect = x.seq → f.held = [] →
      (x.blocks b).length = blockCount x.len → (x.blocks b).all (fun e => e.2.isSome) = true →
      ∃ s' f', exec (.ryudonData p ce b) s = .next s' ∧ s.onlyHubOut s' (p / 9) ∧
        (s'.hub (p / 9)).msgs = (s.hub (p / 9)).msgs ++
          [⟨p, x.src, x.flow, x.typ, x.jobId, x.jobGen, (x.blocks b).flatMap fun e => e.2.getD []⟩] ∧
        s'.rxFlow (p / 9) x.src x.flow = some f' ∧ f'.expect = (x.seq + 1) % 2 ^ 32 ∧ f'.gen = x.gen ∧
        (x.ackNow = true → ∃ k, s'.outbox = s.outbox ++ [.ryudon k] ∧ k.port = p ∧ (k.payload.drop 32).take 4 = leBytes 4 x.seq)) ∧
    ∀ f body, (s.rxContext (p / 9) p x).isSome = true → x.ctlBody b = some body → s.txFlow (p / 9) x.src x.flow = some f →
      f.queue = [] → s.md.ringWait = [] → f.unacked.all (fun k => k.msg.slot.isNone) = true →
      (x.typ = 1 → let covers (k : TxPkt) : Bool := ackedBy (leNat (body.take 4)) (leNat ((body.drop 8).take 8)) k.seq
        ∃ s' f', exec (.ryudonAck p ce b) s = .next s' ∧
        { s' with hubs := s.hubs, md := { s'.md with reportDue := s.md.reportDue } } = s ∧ (∀ k, k ≠ p / 9 → s'.hub k = s.hub k) ∧
        s'.md.reportDue = s.md.reportDue.map (fun e => if (f.unacked.any fun k => covers k && decide (k.msg.typ = 4) &&
          decide (leNat (k.msg.body.take 8) = e.1)) then (e.1, true) else e) ∧
        s'.txFlow (p / 9) x.src x.flow = some f' ∧
        f'.unacked = f.unacked.filter (fun k => !covers k) ∧
        (leNat ((body.drop 4).take 4) = 0 → f'.rate = f.rate)) ∧
      ∀ k, x.typ = 2 → leNat ((body.drop 4).take 2) = 1 →
        f.unacked.find? (fun y => decide (y.seq = leNat ((body.drop 8).take 4))) = some k → ackedBy (leNat (body.take 4)) 0 k.seq = false →
        k.resent < s.retxLimit (p / 9) → f.unacked.all (fun k => decide (k.msg.typ ≠ 4)) = true → s.portRd f.port PR.LINK_UP = 1 →
        ∃ s', exec (.ryudonNak p ce b) s = .next s' ∧ s.resends s' (p / 9) f k (leNat ((body.drop 12).take 1))) ∧
  ∀ (h node flow : Nat) (s : State), (s.node node).isSome = true →
    (∀ f k seq, s.txFlow h node flow = some f → f.unacked.find? (fun y => decide (y.seq = seq)) = some k → k.resent < s.retxLimit h →
      (k.msg.typ = 4 → 16 ≤ k.msg.body.length) → s.md.ringWait = [] → s.portRd f.port PR.LINK_UP = 1 → ∃ s', exec (.retransmitTimeout h node flow seq) s = .next s' ∧ s.resends s' h f k 255) ∧
    ∀ f, s.rxFlow h node flow = some f →
      (f.since ≠ 0 → s.portRd f.port PR.LINK_UP = 1 → ∃ s' k, exec (.ackDelayExpiry h node flow) s = .next s' ∧ s.onlyHubOut s' h ∧ s'.outbox = s.outbox ++ [.ryudon k] ∧
        k.port = f.port ∧ (k.payload.drop 32).take 4 = leBytes 4 f.ackSeq ∧
        s'.rxFlow h node flow = some { f with since := 0, ce := 0, naked := [] }) ∧
      (f.since = 0 → ∃ s', exec (.ackDelayExpiry h node flow) s = .next s' ∧ s.onlyHub s' h ∧
        s'.rxFlow h node flow = some { f with naked := [] })

/-- R325, R321: unmarked flows raise their rate by RATE_AI up to their port's; a context without traffic is freed, where no sender waits for
one. -/
def Sys2Proof.Claims.RateAndIdleResult : Prop :=
  ∀ (h : Nat) (s : State),
    (∃ s', exec (.rateRaise h) s = .next s' ∧ { s' with hubs := s.hubs, md := { s'.md with qps := s.md.qps } } = s ∧
      (∀ k, k ≠ h → s'.hub k = s.hub k) ∧
      (s'.hub h).tx = (s.hub h).tx.map fun f =>
        let u := s.hub h
        if f.flow ≤ 1 ∨ s.now - f.mark < clampTo 2 255 (u.regs.inForce HR.RAISE_US) * 1050 then f
        else { f with rate := min (s.macRate f.port : Rat) (f.rate + (clampTo 1 100 (u.regs.inForce HR.RATE_AI) : Nat)),
                      alpha := f.alpha - f.alpha / (2 ^ clampTo 1 10 (u.regs.inForce HR.G_SHIFT) : Nat) }) ∧
    ∀ node flow, (s.hub h).txWait = [] →
      (∃ s', exec (.flowContextIdle h true node flow) s = .next s' ∧ s.onlyHub s' h ∧ (s'.hub h).rx = (s.hub h).rx ∧
        ∀ f, f ∈ (s'.hub h).tx ↔ f ∈ (s.hub h).tx ∧ ¬ (f.node = node ∧ f.flow = flow ∧ f.unacked = [] ∧ f.queue = [])) ∧
      ∃ s', exec (.flowContextIdle h false node flow) s = .next s' ∧ s.onlyHub s' h ∧ (s'.hub h).tx = (s.hub h).tx ∧
        ∀ f, f ∈ (s'.hub h).rx ↔ f ∈ (s.hub h).rx ∧ ¬ (f.node = node ∧ f.flow = flow ∧ f.since = 0)

/-- Ryudon packets, acknowledgements and rates. -/
def Obligations.TransportAndRateResult : Prop :=
  Sys2Proof.Claims.TransportResult ∧ Sys2Proof.Claims.RateAndIdleResult

/-- R329, R330, R331: the master accepts the first report of a member and tick and counts a late one; a missing one is an event,
once. MGMT is posted to its ring, or waits while that is full or an earlier post to it waits; a post that has waited too long is dropped and
counted. -/
def Obligations.ReportAndMgmtResult : Prop :=
  ∀ (h i : Nat) (s : State),
    (∀ m s1 e, s.takeMsg h i (fun m => decide (m.typ = 4)) = some (m, s1) → s.isMaster = true → s.strict = true → s.node m.node = some e →
      e.member = true → s.md.reports.contains (leNat (m.body.take 8), e.index) = false →
      ∃ s', exec (.tickReport h i) s = .next s' ∧ s'.md.reports = s.md.reports ++ [(leNat (m.body.take 8), e.index)] ∧
        (s'.hub h).msgs = (s.hub h).msgs.eraseIdx i ∧ s'.cores = s.cores ∧
        s'.rd MR.REPORTS_LATE = if s.reportWindow < leNat ((m.body.drop 12).take 4) then satAdd 16 (s.rd MR.REPORTS_LATE) 1
          else s.rd MR.REPORTS_LATE) ∧
    (∀ member tick, s.isMaster = true → s.md.reports.any (fun r => decide (r.1 = tick)) = true →
      s.md.reports.contains (tick, member) = false → s.md.missing.contains (tick, member) = false → (s.memberNode member).isSome = true →
      ∃ s', exec (.missingReportExpiry member tick) s = .next s' ∧ s'.md.missing = s.md.missing ++ [(tick, member)] ∧
        s'.rd MR.REPORTS_LATE = satAdd 16 (s.rd MR.REPORTS_LATE) 1 ∧ s'.md.reports = s.md.reports ∧ s'.cores = s.cores) ∧
    (∀ m s1, s.takeMsg h i (fun m => decide (m.typ = 6)) = some (m, s1) → 8 ≤ m.body.length →
      let ring := leNat (m.body.take 4) % 2 ^ 18
      let tag := leNat ((m.body.drop 4).take 4)
      let behind := (s.hub h).mgmtWait.any fun p => match p with | .msg r _ _ => decide (r = ring) | .fault _ => false
      (∀ g, behind = false → s.ring ring = some g → s.refusedAt (some (ring / 2 ^ 16)) (s.ringAddr ring + 16) 8 = none →
        (s1.ringPost ring tag (m.body.drop 8)).1 = .ok →
        ∃ s', exec (.mgmt h i) s = .next s' ∧ s.tailIs s' ring (g.after (m.body.length - 8)) ∧ s'.cores = s.cores ∧
          (s'.hub h).msgs = (s.hub h).msgs.eraseIdx i) ∧
      (behind = true ∨ (s1.ringPost ring tag (m.body.drop 8)).1 = .full → (s.hub h).mgmtWait.length < 64 →
        ∃ s', exec (.mgmt h i) s = .next s' ∧ s.onlyHub s' h ∧
          (s'.hub h).mgmtWait = (s.hub h).mgmtWait ++ [.msg ring tag (m.body.drop 8)])) ∧
    (i < (s.hub h).mgmtWait.length → ∃ s', exec (.mgmtRingWaitExpiry h i) s = .next s' ∧ s.onlyHub s' h ∧
      (s'.hub h).mgmtWait = (s.hub h).mgmtWait.eraseIdx i ∧ (s'.hub h).rd HR.RING_DROPPED = satAdd 16 ((s.hub h).rd HR.RING_DROPPED) 1)

/-- R333, R338: a member carries out a host's WRITE and answers its last packet with DONE, answers a READ with READ_RESP, and
gathers a SEND, posts it as one record and answers DONE. -/
def Sys2Proof.Claims.DataAtMember : Prop :=
  ∀ (h i : Nat) (m : RxMsg) (d : DataMsg) (s : State), s.flowReady h m.node m.flow → s.noPosts →
    (∀ pa, s.dataIn h i 1 m d → s.hostBlock h (d.addr % 2 ^ 48) d.data.length true pa →
      ∃ s', exec (.dataWrite h i) s = .next s' ∧ s.hostWrote s' (d.addr % 2 ^ 48) pa d.data ∧ s'.cores = s.cores ∧
        (d.last = true → s.sends s' h m.node m.flow (dataBody 6 0 d.q d.psn d.addr 0 0 [])) ∧
        (d.last = false → s'.outbox = s.outbox)) ∧
    (∀ pa, s.dataIn h i 2 m d → s.hostBlock h (d.addr % 2 ^ 48) d.len false pa →
      ∃ s', exec (.dataReadReq h i) s = .next s' ∧ s'.hbm = s.hbm ∧ s'.cores = s.cores ∧
        s.sends s' h m.node m.flow
          (dataBody 3 1 d.q d.psn d.addr d.len 0 (s.hbmPeek (pa / 64 * 64 + d.addr % 2 ^ 48 % 64) d.len))) ∧
    (s.dataIn h i 4 m d →
      let all := ((s.qp d.q).send.getD []) ++ d.data
      (d.last = false → ∃ s', exec (.dataSend h i) s = .next s' ∧ (s'.qp d.q).send = some all ∧ s'.hbm = s.hbm ∧ s'.outbox = s.outbox) ∧
      ∀ g, d.last = true → s.ring (d.addr % 2 ^ 18) = some g → g.notify = false →
        s.refusedAt (some (d.addr % 2 ^ 18 / 2 ^ 16)) (s.ringAddr (d.addr % 2 ^ 18) + 16) 8 = none →
        (((s.dataTaken h i).updQp d.q fun x => { x with send := none }).ringPost (d.addr % 2 ^ 18)
          (if bitOf d.flags 1 then d.imm else 0) all).1 = .ok →
        ∃ s', exec (.dataSend h i) s = .next s' ∧ s.tailIs s' (d.addr % 2 ^ 18) (g.after all.length) ∧
          s.sends s' h m.node m.flow (dataBody 6 0 d.q d.psn d.addr 0 0 []))

/-- R336, R337, R343: at the bridge the data, the failure or the completion that a member reports answers the host's request; a
member's notice goes to the host, whose ACK takes it, and which is sent again after RNR for 1 ms. -/
def Sys2Proof.Claims.DataAtBridge : Prop :=
  ∀ (h i : Nat) (m : RxMsg) (d : DataMsg) (s : State), s.rd MR.BRIDGE_EN = 1 →
    (∀ r e, (s.qp d.q).waits r → s.qpEnt d.q = some e →
      (s.dataIn h i 3 m d → r.read = true → r.psn = d.psn → d.last = true → (r.data ++ d.data).length ≤ e.pmtu →
        ∃ s', exec (.dataReadResp h i) s = .next s' ∧ s'.hbm = s.hbm ∧ s'.cores = s.cores ∧ (s'.qp d.q).reqs = [] ∧
          s'.outbox = s.outbox ++ [.roceRead (s.roceTo d.q) (r.psn % 2 ^ 24) true true (((s.qp d.q).msn + 1) % 2 ^ 24) (r.data ++ d.data)]) ∧
      (s.dataIn h i 5 m d → r.covers d.psn = true →
        ∃ s', exec (.dataRespErr h i) s = .next s' ∧ s'.hbm = s.hbm ∧ s'.cores = s.cores ∧ (s'.qp d.q).reqs = [] ∧
          s'.outbox = s.outbox ++ [if d.imm = 0x20 then .roceAck (s.roceTo d.q) r.psn (0x20 + e.rnr) (s.qp d.q).msn
            else .roceAck (s.roceTo d.q) d.psn d.imm (s.qp d.q).msn]) ∧
      (s.dataIn h i 6 m d → r.read = false → r.last = d.psn →
        ∃ s', exec (.dataDone h i) s = .next s' ∧ s'.hbm = s.hbm ∧ s'.cores = s.cores ∧ (s'.qp d.q).reqs = [] ∧
          s'.outbox = s.outbox ++ [.roceAck (s.roceTo d.q) r.last 0 (((s.qp d.q).msn + 1) % 2 ^ 24)])) ∧
    (s.dataIn h i 7 m d → (s.qpEnt d.q).isSome = true → ∃ s', exec (.dataNotify h i) s = .next s' ∧
      s'.outbox = s.outbox ++ [.notice (s.roceTo d.q) (d.addr % 2 ^ 32)] ∧
      s'.md.notices = s.md.notices ++ [⟨d.q, d.addr % 2 ^ 32, s.now, false⟩] ∧ s'.hbm = s.hbm ∧ s'.cores = s.cores) ∧
    ∀ q k n,
      (s.md.notices.findIdx? (fun n => decide (n.qp = q)) = some k →
        (∃ s', exec (.roceNoticeResponse q true) s = .next s' ∧ s.onlyMd s' ∧ s'.md.notices = s.md.notices.eraseIdx k) ∧
        (∃ s', exec (.roceNoticeResponse q false) s = .next s' ∧ s.onlyMd s' ∧
          ∀ j, s'.md.notices[j]? = if j = k then (s.md.notices[k]?).map (fun n => { n with rnr := true }) else s.md.notices[j]?)) ∧
      (s.md.notices.findIdx? (fun n => decide (n.qp = q) && n.rnr) = some k → s.md.notices[k]? = some n →
        (n.since + 1050000 ≤ s.now → ∃ s', exec (.noticeRetryExpiry q) s = .next s' ∧ s.onlyMd s' ∧
          s'.md.notices = s.md.notices.eraseIdx k) ∧
        (s.now < n.since + 1050000 → ∃ s', exec (.noticeRetryExpiry q) s = .next s' ∧ s'.outbox = s.outbox ++ [.notice (s.roceTo n.qp) n.imm] ∧
          s'.md.notices[k]? = some { n with rnr := false } ∧ s'.md.notices.length = s.md.notices.length))

/-- Host data at a member and at the bridge. -/
def Obligations.DataResult : Prop :=
  Sys2Proof.Claims.DataAtMember ∧ Sys2Proof.Claims.DataAtBridge

/-- R334, R336, R337, R338: a WRITE of one packet to this member writes its bytes and is acknowledged; a READ is answered with the
bytes; a SEND for another member goes there as DATA; a CNP cuts the rate of the queue pair. -/
def Obligations.RoceResult : Prop :=
  ∀ (p q : Nat) (psn : BitVec 24) (e : QpEnt) (s : State), s.roceOk p q e →
    ((s.qp q).idleAt psn.toNat →
      (∀ hasImm imm va rkey len b pa, s.rethOk e va.toNat rkey.toNat e.write = true → s.memberAt (va.toNat / 2 ^ 48) = some none →
        b.length ≤ e.pmtu → b.length = len.toNat → s.hostBlock (p / 9) (va.toNat % 2 ^ 48) b.length true pa → s.noPosts →
        (blocksOf (s.rd MR.QP_TABLE_LO + 2 ^ 32 * s.rd MR.QP_TABLE_HI + 64 * q) 64).contains (pa / 64) = false →
        ∃ s', exec (.roceRdmaWrite p q psn 3 hasImm imm false va rkey len b) s = .next s' ∧
          s.hostWrote s' (va.toNat % 2 ^ 48) pa b ∧ s'.cores = s.cores ∧
          s'.outbox = s.outbox ++ [.roceAck (s.roceTo q) psn.toNat 0 (((s.qp q).msn + 1) % 2 ^ 24)] ∧
          (s'.qp q).reqs = [] ∧ (s'.qp q).psn = (psn.toNat + 1) % 2 ^ 24) ∧
      (∀ va rkey len pa, s.rethOk e va.toNat rkey.toNat e.read = true → s.memberAt (va.toNat / 2 ^ 48) = some none →
        len.toNat ≤ e.pmtu → s.hostBlock (p / 9) (va.toNat % 2 ^ 48) len.toNat false pa →
        ∃ s', exec (.roceRdmaRead p q psn false va rkey len) s = .next s' ∧ s'.hbm = s.hbm ∧ s'.cores = s.cores ∧
          s'.outbox = s.outbox ++ [.roceRead (s.roceTo q) psn.toNat true true (((s.qp q).msn + 1) % 2 ^ 24)
            (s.hbmPeek (pa / 64 * 64 + va.toNat % 2 ^ 48 % 64) len.toNat)] ∧
          (s'.qp q).reqs = [] ∧ (s'.qp q).psn = (psn.toNat + 1) % 2 ^ 24) ∧
      ∀ (hasImm : Bool) (imm : BitVec 32) (b : List Byte) (node : Nat), e.send = true → s.memberAt e.member = some (some node) →
        b.length ≤ e.pmtu → b.length ≤ 4072 → s.flowReady (p / 9) node (0x1000 + q) →
        ∃ s', exec (.roceSend p q psn 3 hasImm imm false b) s = .next s' ∧ s'.hbm = s.hbm ∧ s'.cores = s.cores ∧
          s.sends s' (p / 9) node (0x1000 + q) (dataBody 4 (1 + 2 * b2n hasImm) q psn.toNat e.ring b.length
            (if hasImm then imm.toNat else 0) b) ∧
          (s'.qp q).reqs = [⟨psn.toNat, psn.toNat, false, false, [], none, some node⟩] ∧ (s'.qp q).psn = (psn.toNat + 1) % 2 ^ 24) ∧
    ∃ s', exec (.roceCnp p q) s = .next s' ∧ s.onlyMd s' ∧
      let x := s.qp q
      let u := s.hub (p / 9)
      if 2 * (s.now - x.cut) < u.raiseTime then s'.qp q = { x with mark := s.now }
      else (s'.qp q).alpha = x.alpha + (1 - x.alpha) / u.gain ∧
        (s'.qp q).rate = max ((clampTo 1 100 (u.regs.inForce HR.RATE_MIN) : Nat) : Rat) (x.rate * (1 - (s'.qp q).alpha / 2)) ∧
        (s'.qp q).cut = s.now

/-- R311, R334, R336, R344: a token for endpoint 0x8000 is posted to its ring, or waits while that is full, and any other block of an
endpoint with bit 15 is sunk and counted; a port answers requests for its own address, and a frame that it discards counts by what is
wrong with it: its kind, its FCS, its FEC codeword, a RoCEv2 packet's ICRC or opcode. -/
def Sys2Proof.Claims.EndpointAndFrameResult : Prop :=
  ∀ s : State,
    (∀ h k x row l, takeCd (Sparse.get [] (s.hub h).edgeIn k) = some (x, row, l) →
      let b := row.toBytes
      let ring := leNat (b.take 4) % 2 ^ 18
      let len := leNat ((b.drop 4).take 2)
      let post := s.ringPost ring x.src ((b.drop 8).take len)
      (∀ g, x.endpoint = 0x8000 → x.signal = false → ring / 2 ^ 16 = h → len ≤ 56 → s.ring ring = some g →
        (post.1 = .full → exec (.ringEndpointToken h k) s = .next s) ∧
        (post.1 = .ok → s.refusedAt (some h) (s.ringAddr ring + 16) 8 = none → g.notify = false → ∃ s', exec (.ringEndpointToken h k) s = .next s' ∧ Sparse.get [] (s'.hub h).edgeIn k = l ∧
          s.tailIs s' ring (g.after len) ∧ s'.cores = s.cores)) ∧
      (x.endpoint.testBit 15 = true → x.endpoint ≠ 0x8000 ∨ x.signal = true ∨ ring / 2 ^ 16 ≠ h ∨ 56 < len →
        ∃ s', exec (.ringEndpointToken h k) s = .next s' ∧ s.onlyHub s' h ∧
        Sparse.get [] (s'.hub h).edgeIn k = l ∧ (s'.hub h).rd HR.ENDPOINT_BAD = satAdd 16 ((s.hub h).rd HR.ENDPOINT_BAD) 1)) ∧
    ∀ p mac, s.portRd p PR.LINK_UP = 1 →
      (∀ sender target, target.toNat = s.portRd p PR.IPV4_ADDR → ∃ s', exec (.arpRequest p mac sender target) s = .next s' ∧
        { s' with outbox := s.outbox } = s ∧
        s'.outbox = s.outbox ++ [.addressReply p (s.nextHop p) true mac.toNat (leBytes 4 sender.toNat)]) ∧
      (∀ sender target, leBytes 16 target.toNat = s.portAddr p false →
        ∃ s', exec (.neighborSolicitation p mac sender target) s = .next s' ∧ { s' with outbox := s.outbox } = s ∧
          s'.outbox = s.outbox ++ [.addressReply p (s.nextHop p) false mac.toNat (leBytes 16 sender.toNat)]) ∧
      (∀ (f : Fld) (w : Nat) (kind : BitVec 3) q psn,
        (f, w) = (match kind.toNat with
          | 1 => (portFld p PR.FCS_ERR, 32)
          | 2 => (portFld p PR.FEC_UNCORR, 32)
          | 3 => (portFld p (if s.portRd p PR.FEC_MODE = 1 then PR.FEC_UNCORR else PR.FEC_CORR), 32)
          | _ => (HR.RX_DROPPED, 32)) → kind ≠ 4 → kind ≠ 5 →
        ∃ s', exec (.frameDiscard (p, kind, q, psn)) s = .next s' ∧ s.onlyHub s' (p / 9) ∧
          (s'.hub (p / 9)).rd f = satAdd w ((s.hub (p / 9)).rd f) 1) ∧
      ∀ q (psn : BitVec 24) e, exec (.frameDiscard (p, 5, q, psn)) s = .next s ∧
        (s.roceOk p q e → (s.qp q).idleAt psn.toNat → ∃ s', exec (.frameDiscard (p, 4, q, psn)) s = .next s' ∧ s.onlyMd { s' with outbox := s.outbox } ∧
          s'.outbox = s.outbox ++ [.roceAck (s.roceTo q) psn.toNat 0x61 (s.qp q).msn])

/-- R308, R309, R319, R436: a training ends UP or FAILED; a port that leaves UP trains again, and its flows move to another UP port;
a cable that goes takes its ports OFF, one that comes has them train. -/
def Sys2Proof.Claims.LinkResult : Prop :=
  ∀ (p : Nat) (s : State), p < 36 →
    (s.portRd p PR.TRAIN_STATE = 1 → ∀ lanes,
      (∃ s', exec (.linkTrainingDone p true lanes) s = .next s' ∧ (s.inStage 8 = false → s'.hbm = s.hbm) ∧ s'.cores = s.cores ∧
        s'.portRd p PR.LINK_UP = 1 ∧
        s'.portRd p PR.TRAIN_STATE = 2 ∧ s'.portRd p PR.LANES_LOCKED = 15) ∧
      ∃ s', exec (.linkTrainingDone p false lanes) s = .next s' ∧ s'.hbm = s.hbm ∧ s'.cores = s.cores ∧ s'.portRd p PR.TRAIN_STATE = 3 ∧
        s'.portRd p PR.LANES_LOCKED = lanes.toNat ∧ s'.portRd p PR.LINK_DOWN_COUNT = satAdd 16 (s.portRd p PR.LINK_DOWN_COUNT) 1 ∧
        ∃ e ∈ s'.md.log, e.1 = s.rd MR.LOG_WR % 1024 ∧ e.2.code = logLinkTrain ∧ e.2.index = p) ∧
    (s.portRd p PR.LINK_UP = 1 → s.md.ringWait = [] →
      ((s.hub (p / 9)).tx.all (fun f => decide (f.port ≠ p) || decide (f.flow ≤ 1)) = true →
        ∃ s', exec (.linkDown p) s = .next s' ∧ s'.hbm = s.hbm ∧ s'.cores = s.cores ∧ s'.portRd p PR.LINK_UP = 0 ∧
          s'.portRd p PR.TRAIN_STATE = 1 ∧ s'.portRd p PR.LINK_DOWN_COUNT = satAdd 16 (s.portRd p PR.LINK_DOWN_COUNT) 1 ∧
          (s'.hub (p / 9)).tx = (s.hub (p / 9)).tx) ∧
      (∀ f q, s.rd MR.TOPO_EXPECT_VALID = 0 → (s.hub (p / 9)).tx = [f] → f.port = p → 2 ≤ f.flow → f.unacked = [] → p ≠ q →
        s.upPorts (p / 9) f.node = [p, q] ∨ s.upPorts (p / 9) f.node = [q, p] →
        ∃ s', exec (.linkDown p) s = .next s' ∧ s'.portRd p PR.LINK_UP = 0 ∧
          (s'.hub (p / 9)).tx = [{ f with port := q, rate := s.macRate q, alpha := 1 }])) ∧
    ∀ c, c < 12 →
      ((portsOf c).all (fun p => decide (s.portRd p PR.LINK_UP = 0)) = true → ∃ s', exec (.cablePresentChange c false) s = .next s' ∧
        s'.cable c = false ∧ (∀ d, d < 12 → d ≠ c → s'.cable d = s.cable d) ∧ ∀ p, p ∈ portsOf c → s'.portRd p PR.TRAIN_STATE = 0) ∧
      ((portsOf c).all (fun p => decide (s.portRd p PR.TRAIN_STATE = 0) && decide (s.portRd p PR.LANE_RATE ≠ 0)) = true →
        s.dom (linkDomain c) = domOn → ∃ s', exec (.cablePresentChange c true) s = .next s' ∧ s'.cable c = true ∧
          ∀ p, p ∈ portsOf c → s'.portRd p PR.TRAIN_STATE = 1)

/-- Links, frames and the ring endpoint. -/
def Obligations.LinkAndEndpointResult : Prop :=
  Sys2Proof.Claims.EndpointAndFrameResult ∧ Sys2Proof.Claims.LinkResult

/-- R349, R352, R353, R354: the source request, its settle time and the steps of a change; each divider steps toward its want once
its dwell has passed, where LIMIT_D and THERMAL_D are held to A. -/
def Sys2Proof.Claims.ClockResult : Prop :=
  ∀ s : State,
    (∀ port, s.rd MR.SWITCH_STEP = 0 →
      (s.rd MR.REF_IN_USE = 1 → ∃ s', exec (.refSourceReqWrite false port) s = .next s' ∧ s'.rd MR.REF_SOURCE_REQ = 0 ∧
        s'.rd MR.TIMING_PORT = port.toNat ∧ s'.rd MR.REF_SETTLING = 0 ∧ s'.rd MR.REF_HOLDOVER = 1 ∧ s'.rd MR.SWITCH_STEP = 1 ∧
        s'.hbm = s.hbm ∧ s'.cores = s.cores) ∧
      (s.rd MR.REF_SOURCE_REQ = 0 → s.portRd (min 8 port.toNat) PR.LINK_UP = 1 → ∃ s', exec (.refSourceReqWrite true port) s = .next s' ∧
        s.onlyMdRegs s' [MR.REF_SOURCE_REQ, MR.TIMING_PORT, MR.REF_SETTLING] ∧ s'.rd MR.REF_SOURCE_REQ = 1 ∧
        s'.rd MR.TIMING_PORT = port.toNat ∧ s'.rd MR.REF_SETTLING = 1) ∧
      (s.rd MR.REF_SETTLING ≠ 0 → ∃ s', exec .refSettleExpiry s = .next s' ∧ s'.rd MR.REF_SETTLING = 0 ∧ s'.rd MR.SWITCH_STEP = 1 ∧
        s'.md.pw.srcTarget = 1 ∧ s'.rd MR.REF_IN_USE = s.rd MR.REF_IN_USE ∧ s'.hbm = s.hbm ∧ s'.cores = s.cores)) ∧
    (s.rd MR.SWITCH_STEP = 1 → (∀ r, r < 56 → (s.region r).pw.parkC ≤ (s.region r).rd RR.CCLK_D ∧
        (s.region r).pw.parkM ≤ (s.region r).rd RR.MCLK_D) → (∀ h, h < 4 → (s.hub h).rd HR.HCLK_D = 128) →
      ∃ s', exec .sourceChangeStep s = .next s' ∧ s.onlyMd s' ∧ s'.rd MR.SWITCH_STEP = 2 ∧ s'.rd MR.REF_IN_USE = s.md.pw.srcTarget % 2) ∧
    (s.rd MR.SWITCH_STEP = 2 → s.md.pw.srcNext = none → ∃ s', exec .sourceChangeStep s = .next s' ∧ s'.rd MR.SWITCH_STEP = 3 ∧
      ∀ r, r < 56 → (s'.region r).pw.parkC = 0 ∧ (s'.region r).pw.parkM = 0) ∧
    (s.rd MR.SWITCH_STEP = 3 → (∀ r, r < 56 → (s.region r).rd RR.CCLK_D = (s.region r).cclkWant.1 ∧
        (s.region r).rd RR.MCLK_D = (s.region r).mclkWant) → (∀ h, h < 4 → (s.hub h).rd HR.HCLK_D = 64) →
      ∃ s', exec .sourceChangeStep s = .next s' ∧ s.onlyMdRegs s' [MR.SWITCH_STEP] ∧ s'.rd MR.SWITCH_STEP = 0) ∧
    ∃ s', exec .dividerUpdate s = .next s' ∧
      (∀ h, h < 4 → let d := (s.hub h).rd HR.HCLK_D
        let new := s.divided d (if s.rd MR.SWITCH_STEP = 1 ∨ s.rd MR.SWITCH_STEP = 2 then 128 else 64) (Sparse.get 0 s.md.pw.hAge h)
        (s'.hub h).rd HR.HCLK_D = if new = d then d else new % 2 ^ 8) ∧
      ∀ r, r < 56 → let g := s.region r
        g.pw.cT = max 64 (g.regs.inForce RR.CCLK_TARGET_D) → g.pw.mT = max 64 (g.regs.inForce RR.MCLK_TARGET_D) → g.pw.deferC = false →
        g.pw.eclPhase = 0 →
        let m := s.divided (g.rd RR.MCLK_D) (max g.pw.mT g.pw.parkM) g.pw.mAge % 2 ^ 8
        let held (d : Nat) : Nat := min (g.slowest m) d % 2 ^ 8
        (s'.region r).rd RR.MCLK_D = m ∧ (s'.region r).rd RR.LIMIT_D = held (g.rd RR.LIMIT_D) ∧
        (s'.region r).rd RR.THERMAL_D = held (g.rd RR.THERMAL_D) ∧
        (s'.region r).rd RR.CCLK_D = s.divided (g.rd RR.CCLK_D)
          (largest [g.pw.cT, held (g.rd RR.LIMIT_D), held (g.rd RR.THERMAL_D), g.pw.parkC]) g.pw.cAge % 2 ^ 8

/-- R357, R358, R359, R360: DOM_CMD ramps a domain on where what it needs is ON, or off where what needs it is OFF; it is refused for a
number above 263, with BUSY in a run, and ON with FAILED after a thermal shutdown (R374, log 19); a ramp ends ON or OFF, an SRAM that is
OFF loses its contents; a rail out of regulation makes its domain FAILED. -/
def Sys2Proof.Claims.DomainResult : Prop :=
  ∀ (host : Bool) (id : BitVec 16) (d : BitVec 9) (s : State),
    let k := d.toNat
    (264 ≤ k → (∃ s', exec (.domainOn host id d) s = .next s' ∧ s.onlyMdRegs s' [MR.DOM_RESULT_NUM, MR.DOM_RESULT] ∧
        s'.rd MR.DOM_RESULT = 2) ∧
      ∃ s', exec (.domainOff host id d) s = .next s' ∧ s.onlyMdRegs s' [MR.DOM_RESULT_NUM, MR.DOM_RESULT] ∧ s'.rd MR.DOM_RESULT = 2) ∧
    (k < 264 → domIsLink k = true ∨ s.rd MR.RUN_STATE = rsHalted → s.md.pw.domWait = [] →
      (s.rd MR.THERMAL_SHUTDOWN = 1 → ∃ s', exec (.domainOn host id d) s = .next s' ∧
        s.onlyMdRegs s' [MR.DOM_RESULT_NUM, MR.DOM_RESULT] ∧ s'.rd MR.DOM_RESULT = 3) ∧
      (s.rd MR.THERMAL_SHUTDOWN = 0 → s.dom k = domOff → (∀ x ∈ domChain 4 k, x ≠ k → s.dom x = domOn) → ∃ s', exec (.domainOn host id d) s = .next s' ∧ s.onlyMd s' ∧
        s'.dom k = domRampOn ∧ (∀ x, x ≠ k → s'.dom x = s.dom x) ∧ s'.rd MR.DOM_RESULT = 0 ∧ s'.rd MR.DOM_RESULT_NUM = k) ∧
      (s.dom k = domOn → (∀ x ∈ domUsers k, s.dom x = domOff ∨ s.dom x = domFailed) →
        (∀ x ∈ domChain 4 k, s.dom x ≠ domFailed) → ∃ s', exec (.domainOff host id d) s = .next s' ∧
        s'.dom k = domRampOff ∧ (∀ x, x ≠ k → s'.dom x = s.dom x) ∧ s'.rd MR.DOM_RESULT = 0 ∧ s'.rd MR.DOM_RESULT_NUM = k)) ∧
    (k < 264 → domIsLink k = false → s.rd MR.RUN_STATE ≠ rsHalted → ∀ i, i = .domainOn host id d ∨ i = .domainOff host id d →
      ∃ s', exec i s = .next s' ∧ s.onlyMd { s' with outbox := s.outbox } ∧ s'.rd MR.DOM_RESULT = 1 ∧ s'.rd MR.DOM_RESULT_NUM = k ∧
        s'.md.pw = s.md.pw ∧ s.saysBusy s' host id.toNat) ∧
    (s.md.pw.domWait = [] →
      (s.dom k = domRampOn → ∃ s', exec (.domainRampDone k) s = .next s' ∧ s'.dom k = domOn ∧ ∀ x, x ≠ k → s'.dom x = s.dom x) ∧
      (s.dom k = domRampOff → ∃ s', exec (.domainRampDone k) s = .next s' ∧ s'.dom k = domOff ∧ (∀ x, x ≠ k → s'.dom x = s.dom x) ∧
        (k < 224 → k % 4 = 2 → ∀ n a, regionOf n = k / 4 → (s'.core n).byteAt a = 0)) ∧
      (s.dom k = domPending → s.domFed k = true → ∃ s', exec (.domainRampDone k) s = .next s' ∧ s'.dom k = domRampOn)) ∧
    (s.dom k = domRampOn → ∃ s', exec (.domainRegulationTimeout k) s = .next s' ∧ s.onlyMd s' ∧ s'.dom k = domFailed ∧
      (∀ x, x ≠ k → s'.dom x = s.dom x) ∧ (s.rd MR.PD_VALID = 0 → s'.rd MR.PD_VALID = 1 ∧ s'.rd MR.PD_NUM = k) ∧
      if s.rd MR.RUN_STATE = rsRunning then s'.md.tu.inbox = s.md.tu.inbox ++ [.ofModule k logPowerDomain]
      else s.logged s' 2 logPowerDomain 0)

/-- Clock sources, dividers and power domains. -/
def Obligations.ClockAndDomainResult : Prop :=
  Sys2Proof.Claims.ClockResult ∧ Sys2Proof.Claims.DomainResult

/-- R361, R362, R365, R366: a sample's averages and what a breach of a region's rail does; filler engages, adjusts its duty and
disengages; a new duty goes to the cores of the region as a message, which each takes. -/
def Sys2Proof.Claims.PowerResult : Prop :=
  ∀ s : State,
    (∀ rails pin, ∃ s', exec (.railSample rails pin) s = .next s' ∧ s'.hbm = s.hbm ∧ s'.cores = s.cores ∧
      (∀ i, i < 68 → s'.rail i = (nth (0, 0) rails i :: s.rail i).take 5) ∧
      s'.rd MR.P_IN_W = lastSum 5 (pin :: s.md.pw.pin) / 5000 % 2 ^ 16 ∧
      ∀ r, r < 56 → (s'.region r).rd RR.RAIL_P_W = (nth (0, 0) rails r).2 / 1000 % 2 ^ 16 ∧
        (s'.region r).rd RR.RAIL_I_A = (nth (0, 0) rails r).1 / 1000 % 2 ^ 16 ∧
        (1000 * clampTo 100 1000 ((s.region r).regs.inForce RR.RAIL_I1_A) < (nth (0, 0) rails r).1 →
          (s.region r).dutyGoes (s'.region r) r 0 ∧ (s'.region r).rd RR.BREACH_COUNT = satAdd 16 ((s.region r).rd RR.BREACH_COUNT) 1)) ∧
    (∀ r, let g := s.region r
      let p1 : Rat := (((s.rail r).head?.getD (0, 0)).2 : Nat)
      (s.md.regs.inForce MR.FILLER_EN = 0 ∨ s.eclipsed r = true → ∃ s', exec (.fillerUpdate r) s = .next s' ∧ s.onlyRegion s' r ∧
        (s'.region r).rd RR.FILLER_ON = 0 ∧ (s'.region r).rd RR.FILLER_DUTY = 0 ∧ (s'.region r).rd RR.FLOOR_W = 0) ∧
      (s.md.regs.inForce MR.FILLER_EN = 1 → s.eclipsed r = false →
        (g.rd RR.FILLER_ON = 0 →
          let span := clampTo 100 10000 (s.md.regs.inForce MR.FILLER_REF_US)
          p1 < s.fillFloor ((lastSum span g.pw.window : Nat) / (max 1 (min span g.pw.window.length) : Nat)) 0 →
          ∃ s', exec (.fillerUpdate r) s = .next s' ∧ s.onlyRegion s' r ∧ (s'.region r).rd RR.FILLER_ON = 1) ∧
        (g.rd RR.FILLER_ON = 1 → p1 < min (s.share s.budget r) (s.fillFloor g.pw.pref (g.pw.fillAge + 1)) →
          ∃ s', exec (.fillerUpdate r) s = .next s' ∧ s.onlyRegion s' r ∧
            g.dutyGoes (s'.region r) r (min 128 (g.rd RR.FILLER_DUTY + 16)) ∧
            (s'.region r).rd RR.FILLER_US = satAdd 32 (g.rd RR.FILLER_US) 1) ∧
        (g.rd RR.FILLER_ON = 1 → min (s.share s.budget r) (s.fillFloor g.pw.pref (g.pw.fillAge + 1)) + g.pw.pref / 50 < p1 →
          0 ≤ g.pw.pref →
          (g.rd RR.FILLER_DUTY ≠ 0 → g.rd RR.FILLER_DUTY ≤ 128 → ∃ s', exec (.fillerUpdate r) s = .next s' ∧ s.onlyRegion s' r ∧
            g.dutyGoes (s'.region r) r (g.rd RR.FILLER_DUTY - 16)) ∧
          (g.rd RR.FILLER_DUTY = 0 → g.pw.cut = false → ∃ s', exec (.fillerUpdate r) s = .next s' ∧ s.onlyRegion s' r ∧
            (s'.region r).rd RR.FILLER_ON = 0 ∧ (s'.region r).rd RR.FLOOR_W = 0)))) ∧
    ∀ n, (∀ k m v, ((s.region (regionOf n)).duties.find? fun m => decide ((s.core n).dutyTaken < m.1)) = some (k, m) →
        m.body = .duty v → ∃ s', exec (.fillerDuty n) s = .next s' ∧ s.keepsOutside s' n ∧
          s'.core n = { s.core n with fillerDuty := v, dutyTaken := k }) ∧
      (((s.region (regionOf n)).duties.all fun m => decide (m.1 ≤ (s.core n).dutyTaken)) = true → exec (.fillerDuty n) s = .next s)

/-- R368, R369, R370, R371, R373, R374: sensors hold their corrected readings, two hot ones trip the region or shut the module down;
THERMAL_D steps by the temperature; eclipse masks are written and applied. -/
def Sys2Proof.Claims.ThermalResult : Prop :=
  ∀ (r : Nat) (s : State), r < 56 →
    (∀ ts, let new (k : Nat) : Int := (nth (0 : BitVec 16) ts k).toInt + (factoryCal 2 (9 * r + k) + s.calUser 2 (9 * r + k))
      ∃ s', exec (.sensorSample r ts) s = .next s' ∧ s'.hbm = s.hbm ∧ s'.cores = s.cores ∧
        (∀ k, k < 9 → (s'.region r).rd (RR.SENSOR_T.at (4 * k)) = tempReg (new k)) ∧
        ((s.region r).rd RR.TRIPPED = 0 → (∃ k, k < 9 ∧ degC s.tripC ≤ tempOf ((s.region r).rd (RR.SENSOR_T.at (4 * k))) ∧
            degC s.tripC ≤ new k) →
          (s'.region r).rd RR.TRIPPED = 1 ∧ s'.eclForce.testBit r = true ∧ s.abortSent s' r (.ofRegion r logThermalTrip))) ∧
    (∀ h ts, h < 4 → s.rd MR.THERMAL_SHUTDOWN = 0 → degC 110 ≤ tempOf ((s.hub h).rd HR.HUB_T0) →
      degC 110 ≤ (nth (0 : BitVec 16) ts 0).toInt + (factoryCal 2 (504 + 2 * h) + s.calUser 2 (504 + 2 * h)) →
      ∃ s', exec (.sensorSample (56 + h) ts) s = .next s' ∧ s'.rd MR.THERMAL_SHUTDOWN = 1 ∧ s'.rd MR.MOD_STATE = 4 ∧
        AbortMsg.ofModule h logThermalShutdown ∈ s'.md.tu.inbox) ∧
    (let g := s.region r
      let d := g.rd RR.THERMAL_D
      let hotter := min g.autoFloor (stepTo (max d (g.rd RR.CCLK_D)) 255)
      let cooler := stepTo d (max 64 (g.regs.inForce RR.CCLK_TARGET_D))
      (degC s.throttleC ≤ tempOf (g.rd RR.REGION_TEMP) → ∃ s', exec (.thermalStep r) s = .next s' ∧ s.onlyRegion s' r ∧
        (s'.region r).rd RR.THERMAL_D = hotter % 2 ^ 8 ∧ (s'.region r).rd RR.THROTTLING = b2n (decide (hotter ≠ 0))) ∧
      (tempOf (g.rd RR.REGION_TEMP) < degC s.throttleC - degC s.hystC → d ≠ 0 → max 64 (g.regs.inForce RR.CCLK_TARGET_D) < cooler →
        max 64 (g.regs.inForce RR.CCLK_TARGET_D) < d →
        ∃ s', exec (.thermalStep r) s = .next s' ∧ s.onlyRegion s' r ∧ (s'.region r).rd RR.THERMAL_D = cooler % 2 ^ 8)) ∧
    (∀ (hi : Bool) (v : BitVec 32),
      ((∀ q, q < 56 → (s.region q).rd RR.TRIPPED = 0) → ∃ s', exec (.eclipseWrite hi v) s = .next s' ∧
        s.onlyMdRegs s' [if hi then MR.ECLIPSE_HI else MR.ECLIPSE_LO] ∧
        s'.rd (if hi then MR.ECLIPSE_HI else MR.ECLIPSE_LO) = if hi then v.toNat % 2 ^ 24 else v.toNat) ∧
      (r / 32 = b2n hi → (s.region r).rd RR.TRIPPED = 1 → v.toNat.testBit (r % 32) = false →
        degC s.tripClearC ≤ tempOf ((s.region r).rd RR.REGION_TEMP) → ∃ s', exec (.eclipseWrite hi v) s = .next s' ∧
        s.onlyMdRegs s' [MR.TRIP_CLEAR_REFUSED] ∧ s'.rd MR.TRIP_CLEAR_REFUSED = 1)) ∧
    (s.ticksTaken r = true → s.regionQuiet r = true → s.abortSettled r = true →
      (s.eclipsed r = false → s.eclForce.testBit r = true → ∃ s', exec (.eclipseApply r) s = .next s' ∧
        (s'.rd (if r < 32 then MR.ECL_NOW_LO else MR.ECL_NOW_HI)).testBit (r % 32) = true ∧
        (s'.region r).pw.eclPhase = 1 ∧ s'.hbm = s.hbm ∧ s'.cores = s.cores) ∧
      (s.eclipsed r = true → s.eclForce.testBit r = false → ∃ s', exec (.eclipseApply r) s = .next s' ∧
        (s'.rd (if r < 32 then MR.ECL_NOW_LO else MR.ECL_NOW_HI)).testBit (r % 32) = false ∧
        (s'.region r).pw.eclPhase = 2 ∧
        (s'.region r).rd RR.CCLK_D = if s.dom (4 * r) = domOff then (s.region r).autoFloor % 2 ^ 8 else (s.region r).rd RR.CCLK_D))

/-- Power samples and filler, temperature and eclipse. -/
def Obligations.PowerAndThermalResult : Prop :=
  Sys2Proof.Claims.PowerResult ∧ Sys2Proof.Claims.ThermalResult

/-- R377, R387, R390, R413, R415, R416: stages 1 to 4 and 7 of the start and how each ends; stage 2 counts the bring-up in the flash and
takes the body of an image that passes its checks; one that fails them leads to RECOVERY, in which P0 takes LANE_RATE 1 and regions that
were on go off; stage 8 begins with a check of the topology. -/
def Sys2Proof.Claims.StartStageResult : Prop :=
  ∀ s : State,
    (s.inStage 1 = true → s.md.input.start = 3 → ∀ pll,
      (∃ s', exec (.stagePower true pll) s = .next s' ∧ s'.atStage 2 ∧ s.logged s' 1 1 0 ∧ s'.hbm = s.hbm ∧ s'.cores = s.cores) ∧
      ∃ s', exec (.stagePower false pll) s = .next s' ∧ s.onlyMd s' ∧ s'.failedAt 1 pll 3 ∧ s.logged s' 1 1 2) ∧
    (s.inStage 2 = true → ∀ readOk,
      let code := s.countBoot.flashImageCode readOk
      (code = 0 → ∃ s', exec (.stageImage readOk) s = .next s' ∧ s'.atStage 3 ∧ s.bootCounted s' ∧
        s'.rd MR.RECOVERY_CODE = 0 ∧ s'.rd MR.IMAGE_ROLLBACK = fieldOf s.imageHeader 8 1 ∧
        s'.md.sec.body = s.imageBody (fieldOf s.imageHeader 0x10 4) ∧ s'.md.sec.entry = some (fieldOf s.imageHeader 0x14 4)) ∧
      (code ≠ 0 → ∃ s', exec (.stageImage readOk) s = .next s' ∧ s'.failedAt 2 code 2 ∧ s'.rd MR.RECOVERY = 1 ∧
        s'.rd MR.RECOVERY_CODE = code % 2 ^ 8 ∧ s.bootCounted s' ∧ s'.portRd 0 PR.LANE_RATE = 1 ∧
        (s.md.pw.domWait = [] → ∀ r, r < 56 → s.dom (4 * r + 3) = domOn → (∀ x ∈ domUsers (4 * r + 3), s.dom x = domOff) →
          s'.dom (4 * r + 3) = domRampOff))) ∧
    (s.inStage 3 = true → (∀ d ∈ stageDomains 3, s.dom d = domOn) → ∀ h,
      (∃ s', exec (.stageHubs false h) s = .next s' ∧ s'.atStage 4 ∧ s.logged s' 1 3 0) ∧
      ∃ s', exec (.stageHubs true h) s = .next s' ∧ s.onlyMd s' ∧ s'.failedAt 3 h 3 ∧ s.logged s' 1 3 2) ∧
    (s.inStage 4 = true → (∀ d ∈ stageDomains 4, s.dom d = domOn) → ∀ dead,
      (s.regionDead = none →
        ((∀ d, d < 224 → s.dom d = domOn) → s.md.pw.domWait = [] → ∃ s', exec (.stageRegions none dead) s = .next s' ∧
          s.onlyMd s' ∧ s'.atStage 5 ∧ s.logged s' 1 4 0) ∧
        (∃ s', exec (.stageRegions none []) s = .next s' ∧ s'.atStage 5) ∧
        ∀ r, ∃ s', exec (.stageRegions (some r) dead) s = .next s' ∧ s.onlyMd s' ∧ s'.failedAt 4 r 3 ∧ s.logged s' 1 4 2) ∧
      ∀ fail d, s.regionDead = some d → ∃ s', exec (.stageRegions fail dead) s = .next s' ∧ s.onlyMd s' ∧ s'.failedAt 4 (d / 4) 3 ∧
        s.logged s' 1 4 2) ∧
    (s.inStage 7 = true → (∀ d ∈ stageDomains 7, s.dom d = domOn) → ∀ stack channel,
      ((∃ p, p < 36 ∧ s.portRd p PR.LINK_UP = 1) → s.md.pw.domWait = [] →
        ∃ s', exec (.stageTrain false stack channel) s = .next s' ∧ s.logged s' 1 7 0 ∧
          (∀ h i, h < 4 → i < 4 → (s'.hub h).rd (ctl i KR.TRAINED) = 1 ∧ (s'.hub h).rd (ctl i KR.CH_FAILED) = 0) ∧
          if s.rd MR.TOPO_EXPECT_VALID = 0 then s'.atStage 8
          else match s'.topoMissing with
            | [] => s'.rd MR.MOD_STATE = 1 ∧ s'.rd MR.RUN_STATE = rsHalted ∧ s'.rd MR.STAGE = 9 ∧ s'.rd MR.STAGE_RESULT = 0
            | p :: _ => s'.atStage 8 ∧ s'.rd MR.DETAIL = p) ∧
      ((∀ p, p < 36 → s.portRd p PR.LINK_UP = 0) → ∃ s', exec (.stageTrain false stack channel) s = .next s' ∧ s.onlyMd s' ∧
        s'.failedAt 7 0xFFFF 3) ∧
      ∃ s', exec (.stageTrain true stack channel) s = .next s' ∧ s.onlyMd s' ∧ s'.failedAt 7 (32 * stack + channel) 3)

/-- R380, R382, R384, R386: two neighbours' FAIL verdicts retire a core; stage 6 appends the retired cores to the defect list, in the flash
where that takes the entry, and puts the remap in force; SCAN runs the vote again on a HALTED module that is READY, with stage 5 in
progress meanwhile, and ends with stage 9 shown. -/
def Sys2Proof.Claims.DefectStageResult : Prop :=
  ∀ s : State,
    (∀ verdicts c a b da db, a ≠ b → physNbr a da = some c → physNbr b db = some c → a ∈ physNbrs c → b ∈ physNbrs c →
      c ∉ s.md.unusable → a ∉ s.md.unusable → b ∉ s.md.unusable → (a.region, a.row, a.col, da) ∈ verdicts →
      (b.region, b.row, b.col, db) ∈ verdicts →
      (s.inStage 5 = true → ∃ s', exec (.stageNeighbour [] verdicts) s = .next s' ∧ s'.atStage 6 ∧ (c, 2) ∈ s'.md.boot.retired) ∧
      (s.md.boot.scan = true → ∃ s', exec (.scanComplete [] verdicts true) s = .next s' ∧ c ∈ s'.md.unusable ∧
        s'.md.boot.scan = false ∧ s'.rd MR.RUN_STATE = rsHalted ∧ s'.rd MR.STAGE = 9 ∧ s'.rd MR.STAGE_RESULT = 0)) ∧
    (s.inStage 6 = true → ∀ c why, s.md.boot.retired = [(c, why)] → c ∉ s.md.unusable →
      ∃ s', exec (.stageDefects true) s = .next s' ∧ s'.atStage 7 ∧
        s'.md.defects = s.md.defects ++ [⟨c, why, s.rd MR.BOOT_COUNT % 2 ^ 16⟩] ∧ s'.md.boot.retired = [] ∧
        s'.flashPeek (defectAddr (defectEntries s.md.sec.flash).length) 8 = Defect.bytes ⟨c, why, s.rd MR.BOOT_COUNT % 2 ^ 16⟩ ∧
        (s.md.boot.cold = true → s'.md.remap = s.md.unusable ++ [c])) ∧
    (s.inStage 6 = true → ∃ s', exec (.stageDefects false) s = .next s' ∧ s'.atStage 7 ∧ s'.md.sec.flash = s.md.sec.flash ∧
      s'.md.boot.retired = [] ∧ ∀ e ∈ s.md.boot.retired, e.1 ∈ s'.md.unusable) ∧
    (s.rd MR.RUN_STATE = rsHalted → s.rd MR.MOD_STATE = 1 → ∃ s', exec .bootScan s = .next s' ∧ s'.rd MR.RUN_STATE = rsLoading ∧
      s'.rd MR.RESUME_VALID = 0 ∧ s'.md.boot.scan = true ∧ s'.atStage 5 ∧ s'.hbm = s.hbm ∧ ∀ n a, (s'.core n).byteAt a = 0) ∧
    (s.rd MR.RUN_STATE ≠ rsHalted ∨ s.rd MR.MOD_STATE ≠ 1 → ∃ s', exec .bootScan s = .next s' ∧ s.onlyMdRegs s' [MR.CMD_IGNORED, MR.CMD_IGNORED_SAT])

/-- The stages of bring-up. -/
def Obligations.BringUpResult : Prop :=
  Sys2Proof.Claims.StartStageResult ∧ Sys2Proof.Claims.DefectStageResult

/-- R388, R389, R390: HELLO goes out of an UP port without an answer and is answered; the answer names the peer; the expected
topology is written. -/
def Obligations.DiscoveryResult : Prop :=
  ∀ (p : Nat) (s : State),
    (s.inStage 8 = true → s.portRd p PR.LINK_UP = 1 → p ∉ s.md.boot.greeted →
      ∃ s', exec (.helloTimer p) s = .next s' ∧ s.greets s' p 1) ∧
    (∀ b body, (s.linkLocalOk p 1 b body → ∃ s', exec (.hello p b) s = .next s' ∧ s.greets s' p 2) ∧
      (s.linkLocalOk p 2 b body → 24 ≤ body.length → ∃ s', exec (.helloAck p b) s = .next s' ∧ p ∈ s'.md.boot.greeted ∧
        Sparse.slice 0 s'.md.boot.disc (16 * p) 1 = [1] ∧ Sparse.slice 0 s'.md.boot.disc (16 * p + 1) 1 = (body.drop 16).take 1 ∧
        Sparse.slice 0 s'.md.boot.disc (16 * p + 8) 8 = (body.drop 8).take 8 ∧ s'.cores = s.cores)) ∧
    ∀ (off : BitVec 16) (v : BitVec 32),
      (off = 0x84C → ∃ s', exec (.topoExpectWrite off v) s = .next s' ∧ s'.rd MR.TOPO_EXPECT_VALID = v.toNat / 2 ^ 31 ∧
        s'.cores = s.cores) ∧
      (0x900 ≤ off.toNat → off.toNat < 0xB40 → off.toNat % 4 = 0 → ∃ s', exec (.topoExpectWrite off v) s = .next s' ∧
        Sparse.slice 0 s'.md.boot.exp (off.toNat - 0x900) 4 = leBytes 4 v.toNat ∧
        (∀ a, a < off.toNat - 0x900 ∨ off.toNat - 0x900 + 4 ≤ a → Sparse.get 0 s'.md.boot.exp a = Sparse.get 0 s.md.boot.exp a) ∧
        s'.cores = s.cores)

/-- R391, R392, R394, R400: RESET_CMD resets a core, a region, a hub or the module and records it; a tick in progress refuses the
first two with BUSY, heat after a thermal shutdown the module's with HOT; a release ends a reset and purges what it held; the MP watchdog
resets the module, unless such heat holds. -/
def Obligations.ResetResult : Prop :=
  ∀ (cause : BitVec 4) (id : BitVec 16) (s : State),
    (s.rd MR.RUN_STATE ≠ rsRunning → s.rd MR.RUN_STATE ≠ rsPreempting →
      (∀ n, n < numCores → absentIn s.md.remap n = false → s.inReset 0 n = false → s.inReset 1 (regionOf n) = false →
        ∃ s', exec (.resetCoreCmd cause id n) s = .next s' ∧ s.coreIsReset s' n ∧ s'.rd MR.RESET_RESULT = 0 ∧
          s'.lastReset 0 n cause.toNat ∧ s.logged s' 4 cause.toNat 0 ∧ (0, n) ∈ s'.md.boot.held ∧ s'.hbm = s.hbm ∧ s'.hubs = s.hubs) ∧
      (∀ r, r < 56 → s.inReset 1 r = false → ∃ s', exec (.resetRegionCmd cause id r) s = .next s' ∧ s'.rd MR.RESET_RESULT = 0 ∧
        s'.lastReset 1 r cause.toNat ∧ s.logged s' 4 cause.toNat 0 ∧ (1, r) ∈ s'.md.boot.held ∧ s'.hbm = s.hbm ∧ s'.hubs = s.hubs ∧
        (s'.region r).rd RR.REGION_GEN = ((s.region r).rd RR.REGION_GEN + 1) % 2 ^ 8 ∧
        ∀ n, regionOf n = r → (s'.core n).threads = [] ∧ ∀ a, (s'.core n).byteAt a = 0)) ∧
    (s.rd MR.RUN_STATE = rsRunning ∨ s.rd MR.RUN_STATE = rsPreempting → ∀ i,
      (∃ n, n < numCores ∧ absentIn s.md.remap n = false ∧ i = .resetCoreCmd cause id n) ∨ (∃ r, r < 56 ∧ i = .resetRegionCmd cause id r) →
      ∃ s', exec i s = .next s' ∧ s.onlyMd { s' with outbox := s.outbox } ∧ s'.rd MR.RESET_RESULT = 1 ∧ s'.md.boot = s.md.boot ∧
        s.saysBusy s' (decide (cause = 1)) id.toNat) ∧
    (s.isRunning = false → s.isReady = false → ∀ h, h < 4 → ∃ s', exec (.resetHubCmd cause id h) s = .next s' ∧
      s'.rd MR.RESET_RESULT = 0 ∧ s'.lastReset 2 h cause.toNat ∧ s.logged s' 4 cause.toNat 0 ∧ (s'.hub h).tx = [] ∧ (s'.hub h).rx = [] ∧
      (s'.hub h).msgs = [] ∧ (s'.hub h).held = [] ∧ (s'.hub h).cache = [] ∧
      (s'.hub h).rd HR.HUB_GEN = ((s.hub h).rd HR.HUB_GEN + 1) % 2 ^ 8 ∧ s'.md.slots = [] ∧ s'.hbm = s.hbm) ∧
    (s.rd MR.THERMAL_SHUTDOWN = 0 → ∃ s', exec (.resetModuleCmd cause id) s = .next s' ∧ s.moduleIsReset s' ∧
      s'.lastReset 3 0 cause.toNat) ∧
    (s.resetHot = true → exec .mpWatchdogExpiry s = .next s ∧ ∃ s', exec (.resetModuleCmd cause id) s = .next s' ∧
      s.onlyMdRegs s' [MR.RESET_RESULT] ∧ s'.rd MR.RESET_RESULT = 3) ∧
    (s.resetHot = false → ∃ s', exec .mpWatchdogExpiry s = .next s' ∧ s.moduleIsReset s' ∧ s'.lastReset 3 0 4) ∧
    (∀ n, s.inReset 0 n = true → (s.core n).lost = false → ∃ s', exec (.resetRelease false n) s = .next s' ∧ s'.inReset 0 n = false ∧
      ∀ h, h < 4 → (s'.hub h).held = (s.hub h).held.filter fun x => !x.ofDomain 0 n) ∧
    ∀ r, s.inReset 1 r = true → ∃ s', exec (.resetRelease true r) s = .next s' ∧ s'.inReset 1 r = false

/-- R395, R396, R398: the operations of the service ring at the core they name; the host and the MP are refused those that change a
core whose section runs and whose region applies no abort; with the TRANSIT domain not ON no agent answers. -/
def Obligations.ServiceRingResult : Prop :=
  ∀ (own : BitVec 2) (r l n off : Nat) (v : BitVec 32) (s : State), s.srReaches r l n →
    (own ≠ 0 → ∃ s', exec (.srRead own r l off) s = .next s' ∧ (s'.region r).rd RR.SR_STATUS = 0 ∧
      (s'.region r).rd RR.SR_DATA = ((s.srStatus own r 0).coreRead n off).1 % 2 ^ 32) ∧
    (own ≠ 0 → ∃ s', exec (.srLiveness own r l) s = .next s' ∧ s.onlyRegion s' r ∧ (s'.region r).rd RR.SR_STATUS = 0 ∧
      (s'.region r).rd RR.SR_DATA = (s.core n).live % 2 ^ 32) ∧
    (own ≠ 0 → (s.core n).inSection = true → (s.region r).rd RR.ABORTING = 0 →
      ∀ i ∈ [Instr.srWrite own r l off v, .srStop own r l true, .srFlush own r l, .srResetCore own r l, .srGate own r l],
        ∃ s', exec i s = .next s' ∧ s.onlyRegion s' r ∧ (s'.region r).rd RR.SR_STATUS = 3) ∧
    (s.srRefused own r n = false →
      exec (.srWrite own r l off v) s = .next ((s.srStatus own r 0).coreWrite n off v.toNat none) ∧
      (∃ s', exec (.srStop own r l true) s = .next s' ∧ s'.hbm = s.hbm ∧ s'.hubs = s.hubs ∧ (s'.core n).eng.queue = [] ∧
        (s'.core n).dma.stopped = true ∧ (∀ t, t < 8 → ((s'.core n).thread t).status =
          match ((s.core n).thread t).status with | .ready => .stopped | .waiting => .stopped | x => x) ∧
        ∀ m, m ≠ n → s'.core m = s.core m) ∧
      (∃ s', exec (.srStop own r l false) s = .next s' ∧ s.onlyRegion s' r ∧ (s'.region r).stopWait = some n ∧
        (own ≠ 0 → (s'.region r).rd RR.SR_STATUS = 1)) ∧
      (∃ s', exec (.srFlush own r l) s = .next s' ∧ s'.hbm = s.hbm ∧ s'.hubs = s.hubs ∧ (s'.core n).threads = (s.core n).threads ∧
        (∀ port cls, port < 5 → cls < 4 → (s'.core n).inBuf port cls =
          if port = 0 then ((s.core n).inBuf 0 cls).filter (Entry.ofController n) else []) ∧
        (s'.core n).hold = [] ∧ (s'.core n).early = [] ∧
        ∀ q, q < 32 → ((s'.core n).queue q).gen = (((s.core n).queue q).gen + 1) % 16) ∧
      (s.inReset 0 n = false → s.inReset 1 r = false → ∃ s', exec (.srResetCore own r l) s = .next s' ∧ s.coreIsReset s' n ∧
        s'.lastReset 0 n (if own = 1 then 1 else if own = 2 then 7 else 6) ∧ (0, n) ∈ s'.md.boot.held ∧ s'.hbm = s.hbm) ∧
      ∃ s', exec (.srGate own r l) s = .next s' ∧ s'.hbm = s.hbm ∧ s'.hubs = s.hubs ∧ (s'.core n).gated = true ∧
        (s'.core n).threads = [] ∧ ∀ a, (s'.core n).byteAt a = 0) ∧
    ∀ q, s.dom (4 * q + 3) ≠ domOn → own ≠ 0 →
      ∀ i ∈ [Instr.srRead own q l off, .srLiveness own q l, .srWrite own q l off v, .srStop own q l true, .srFlush own q l,
        .srResetCore own q l, .srGate own q l],
        ∃ s', exec i s = .next s' ∧ s.onlyRegion s' q ∧ (s'.region q).rd RR.SR_STATUS = 2

/-- R82, R398, R399, R400, R401: liveness words advance and are judged, in a region of one listed core; a core that stands still, does not
answer, or leaves a STOP unanswered is lost; a missing heartbeat aborts the tick and resets its region, and the second within 1 s ends the
module; the core watchdog names the lowest waiting thread, or free values where none waits (log 34). -/
def Obligations.WatchdogResult : Prop :=
  ∀ (n r : Nat) (s : State),
    (s.dom (4 * regionOf n) = domOn → (s.core n).gated = false → ∃ s', exec (.livenessAdvance n) s = .next s' ∧ s.keepsOutside s' n ∧
      s'.core n = { s.core n with live := ((s.core n).live + 1) % 2 ^ 32 }) ∧
    (s.dom (4 * r + 3) ≠ domOn → ∀ deaf, exec (.livenessSweep (r, deaf)) s = .next s) ∧
    (∀ c, s.dom (4 * r + 3) = domOn → s.cores = [(n, c)] → regionOf n = r → c.inSection = true → c.lost = false →
      (absentIn s.md.remap n = false → ∃ s', exec (.livenessSweep (r, [n])) s = .next s' ∧ s.losesCore s' n) ∧
      ((s.region r).live.find? (fun e => decide (e.1 = n)) = none → ∃ s', exec (.livenessSweep (r, [])) s = .next s' ∧ s.onlyRegion s' r ∧
        (n, c.live, 0) ∈ (s'.region r).live) ∧
      (∀ k, (s.region r).live.find? (fun e => decide (e.1 = n)) = some (n, c.live, k) →
        ((k + 1) * 2500 < clampTo 5 1000 ((s.region r).regs.inForce RR.REGION_WDOG_MS) * 1000 →
          ∃ s', exec (.livenessSweep (r, [])) s = .next s' ∧ s.onlyRegion s' r ∧ (n, c.live, k + 1) ∈ (s'.region r).live) ∧
        (clampTo 5 1000 ((s.region r).regs.inForce RR.REGION_WDOG_MS) * 1000 ≤ (k + 1) * 2500 →
          ∃ s', exec (.livenessSweep (r, [])) s = .next s' ∧ s.losesCore s' n))) ∧
    ((s.region r).stopWait = some n → (s.core n).lost = false → ∃ s', exec (.stopAckTimeout r) s = .next s' ∧ s.losesCore s' n ∧
      (s'.region r).stopWait = none ∧ ((s.region r).rd RR.SR_STATUS = 1 → (s'.region r).rd RR.SR_STATUS = 2)) ∧
    exec (.regionHeartbeat r) s = .next s ∧ exec .modWdogPet s = .next s ∧
    (s.md.boot.heard.find? (fun e => decide (e.1 = r)) = none → ∃ s', exec (.heartbeatTimeout r) s = .next s' ∧
      AbortMsg.mk r logRegionLost 3 r ∈ s'.md.tu.inbox ∧ s'.inReset 1 r = true ∧ (r, s.now) ∈ s'.md.boot.heard ∧
      s'.lastReset 1 r 5 ∧ (s'.region r).rd RR.REGION_GEN = ((s.region r).rd RR.REGION_GEN + 1) % 2 ^ 8) ∧
    (∀ t, s.md.boot.heard.find? (fun e => decide (e.1 = r)) = some (r, t) → s.now < t + 1050000000 →
      ∃ s', exec (.heartbeatTimeout r) s = .next s' ∧ AbortMsg.mk r logRegionLost 3 r ∈ s'.md.tu.inbox ∧ s'.inReset 1 r = true ∧
        (s'.region r).rd RR.REGION_GEN = ((s.region r).rd RR.REGION_GEN + 1) % 2 ^ 8 ∧
        (s'.region r).failed = true ∧ s'.md.boot.dead = true ∧ (s.md.tu.active = [] → s'.rd MR.MOD_STATE = 3)) ∧
    ((s.core n).inSection = true → (s.core n).wdogHolds = false →
      (∀ t, t < 8 → ((s.core n).thread t).status = .waiting → (∀ u, u < t → ((s.core n).thread u).status ≠ .waiting) →
        ∃ s', exec (.coreWatchdogExpiry n) s = .next s' ∧ (regionOf n < 56 → s.abortSent s' (regionOf n) (.ofCore n 0x05)) ∧
          (s.core n).recorded (s'.core n) n 0 t 0x05 ((s.core n).thread t).pc.toNat 0 ∧ (s'.core n).threads = (s.core n).threads) ∧
      ((∀ t, t < 8 → ((s.core n).thread t).status ≠ .waiting) → ∃ s' t pc, exec (.coreWatchdogExpiry n) s = .next s' ∧
        (regionOf n < 56 → s.abortSent s' (regionOf n) (.ofCore n 0x05)) ∧ (s.core n).recorded (s'.core n) n 0 t 0x05 pc 0 ∧
        (s'.core n).threads = (s.core n).threads))

/-- R405, R407, R408: the bridge posts a member's STATUS, RESET_REPORT or DEFECT to FM_RING, and no other module accepts one; the fabric
manager's PEER_RESET, MEMBER_LOST (at a module that is not the master) and SET_MASTER are carried out, from any other node dropped; a record
of FM_CMD_RING for another node is sent on and HEAD passes it. -/
def Obligations.FabricManagerResult : Prop :=
  ∀ (h i : Nat) (m : RxMsg) (s : State),
    (∀ typ c, (typ, c) ∈ [(3, Instr.fmStatus h i), (4, .fmResetReport h i), (5, .fmDefect h i)] → s.fmAt h i typ m →
      (s.rd MR.BRIDGE_EN = 0 → ∃ s', exec c s = .next s' ∧ s.onlyHub s' h ∧ (s'.hub h).msgs = (s.hub h).msgs.eraseIdx i ∧
        (s'.hub h).rd HR.RX_DROPPED = satAdd 32 ((s.hub h).rd HR.RX_DROPPED) 1) ∧
      (∀ e g, s.rd MR.BRIDGE_EN = 1 → s.node m.node = some e → e.member = true → s.md.ringWait = [] → s.ring (s.rd MR.FM_RING) = some g →
        g.notify = false → s.refusedAt (some (s.rd MR.FM_RING / 2 ^ 16)) (s.ringAddr (s.rd MR.FM_RING) + 16) 8 = none →
        ((s.msgTaken h i).ringPost (s.rd MR.FM_RING) typ m.body).1 = .ok → ∃ s', exec c s = .next s' ∧
        s.tailIs s' (s.rd MR.FM_RING) (g.after m.body.length) ∧ (s'.hub h).msgs = (s.hub h).msgs.eraseIdx i ∧ s'.cores = s.cores)) ∧
    (∀ typ c, (typ, c) ∈ [(6, Instr.peerReset h i), (7, .memberLost h i), (8, .setMaster h i)] → s.fmAt h i typ m →
      m.node ≠ s.rd MR.FM_NODE → ∃ s', exec c s = .next s' ∧ s.onlyHub s' h ∧
        (s'.hub h).rd HR.RX_DROPPED = satAdd 32 ((s.hub h).rd HR.RX_DROPPED) 1) ∧
    (m.node = s.rd MR.FM_NODE →
      (s.fmAt h i 6 m → let node := leNat ((m.body.drop 4).take 4)
        ∃ s', exec (.peerReset h i) s = .next s' ∧ { s' with hubs := s.hubs } = s ∧ ∀ k, k < 4 →
          (leNat ((m.body.drop 16).take 1)).testBit k = true →
          (∀ f, f ∈ (s'.hub k).tx ↔ f ∈ (s.hub k).tx ∧ f.node ≠ node) ∧ (∀ f, f ∈ (s'.hub k).rx ↔ f ∈ (s.hub k).rx ∧ f.node ≠ node) ∧
          Sparse.get 256 (s'.hub k).peerGen node = leNat ((m.body.drop (17 + k)).take 1)) ∧
      (s.fmAt h i 7 m → s.isMaster = false → let node := leNat ((m.body.drop 4).take 4)
        ∃ s', exec (.memberLost h i) s = .next s' ∧ s'.cores = s.cores ∧ s'.hbm = s.hbm ∧
          (∀ e ∈ s'.md.slots, e.2.job.nodes.contains node = true → e.2.aborted = true ∧ e.2.running = false) ∧
          s'.md.tu.inbox = if s.rd MR.RUN_STATE = rsRunning then s.md.tu.inbox ++ [.ofModule node logMemberLost]
            else s.md.tu.inbox) ∧
      (s.fmAt h i 8 m → s.rd MR.RUN_STATE = rsHalted → ∃ s', exec (.setMaster h i) s = .next s' ∧ s'.cores = s.cores ∧ s'.hbm = s.hbm ∧
        s'.rd MR.MASTER_NODE = leNat ((m.body.drop 16).take 4) % 2 ^ 10 ∧
        s'.md.regs.inForce MR.MASTER_NODE = leNat ((m.body.drop 16).take 4) % 2 ^ 10 ∧
        s'.rd MR.GROUP_MASTER = leNat ((m.body.drop 20).take 1) % 2 ∧
        s'.md.regs.inForce MR.GROUP_MASTER = leNat ((m.body.drop 20).take 1) % 2)) ∧
    ∀ g hd msg s1 s2, s.rd MR.BRIDGE_EN = 1 → s.ring (s.rd MR.FM_CMD_RING) = some g → g.valid = true → 12 ≤ g.sizeLog → g.sizeLog ≤ 30 →
      g.head < g.tail → s.vRead (g.base + g.head % 2 ^ g.sizeLog) 8 false = (.ok hd, s1) → leNat (hd.take 4) < 2 ^ 30 →
      s1.vRead (g.base + g.head % 2 ^ g.sizeLog + 8) (leNat (hd.take 4)) false = (.ok msg, s2) → leNat (msg.take 4) ≠ s.rd MR.NODE_ID →
      s.flowReady 0 (leNat (msg.take 4)) 0 → s.noPosts → s.refusedAt none (s.ringAddr (s.rd MR.FM_CMD_RING) + 24) 8 = none →
      ∃ s', exec .fmCommandRecord s = .next s' ∧ s'.cores = s.cores ∧
        s'.hbmPeek (s.ringAddr (s.rd MR.FM_CMD_RING) + 24) 8 = leBytes 8 (g.head + recordSize (leNat (hd.take 4))) ∧
        ∃ f f', s.txFlow 0 (leNat (msg.take 4)) 0 = some f ∧ s'.txFlow 0 (leNat (msg.take 4)) 0 = some f' ∧
          f'.unacked = f.unacked ++ [⟨f.nextSeq, ⟨7, 0, 0, msg.drop 8, none⟩, 0⟩]

/-- R416: in RECOVERY a good WRITE packet stores its data in the image area, a COMMIT checks the image and resets the module or
keeps the new code, a STATUS is answered; a bad packet is answered BAD_PACKET, and one that the ROM cannot take now BUSY. -/
def Sys2Proof.Claims.RecoveryResult : Prop :=
  ∀ (mac : BitVec 48) (src : BitVec 128) (port : BitVec 16) (b : List Byte) (s : State), s.portRd 0 PR.LINK_UP ≠ 0 →
    s.rd MR.MOD_STATE = 2 →
    (recoveryOk b = true →
      (fieldOf b 0 1 = 1 → ∃ s', exec (.recoveryWrite mac (src, port) b false) s = .next s' ∧
        s'.flashPeek (fieldOf b 4 4) (fieldOf b 8 2) = (b.drop 12).take (fieldOf b 8 2) ∧
        (∀ a, a < fieldOf b 4 4 ∨ fieldOf b 4 4 + fieldOf b 8 2 ≤ a → Sparse.get 0xFF s'.md.sec.flash a = Sparse.get 0xFF s.md.sec.flash a) ∧
        s.recoveryAnswered s' 0x81 0 (fieldOf b 4 4) (s.rd MR.RECOVERY_CODE) ∧ s'.hbm = s.hbm ∧ s'.cores = s.cores) ∧
      (fieldOf b 0 1 = 2 → ∀ readOk, let code := s.flashImageCode readOk
        (code ≠ 0 → ∃ s', exec (.recoveryCommit mac (src, port) b false readOk) s = .next s' ∧ s'.rd MR.MOD_STATE = 2 ∧
          s'.rd MR.RECOVERY_CODE = code % 2 ^ 8 ∧ s.recoveryAnswered s' 0x82 0 (fieldOf b 4 4) (code % 2 ^ 8) ∧ s'.hbm = s.hbm) ∧
        (code = 0 → ∃ s', exec (.recoveryCommit mac (src, port) b false readOk) s = .next s' ∧ s.moduleIsReset s' ∧ s'.lastReset 3 0 7)) ∧
      (fieldOf b 0 1 = 3 → ∃ s', exec (.recoveryStatus mac src port b) s = .next s' ∧
        { s' with outbox := s.outbox, freeCount := s.freeCount } = s ∧
        s.recoveryAnswered s' 0x83 0 (fieldOf b 4 4) (s.rd MR.RECOVERY_CODE)) ∧
      ∀ i op readOk, (fieldOf b 0 1 = 1 ∧ i = .recoveryWrite mac (src, port) b true ∧ op = 0x81) ∨
        (fieldOf b 0 1 = 2 ∧ i = .recoveryCommit mac (src, port) b true readOk ∧ op = 0x82) →
        ∃ s', exec i s = .next s' ∧ { s' with outbox := s.outbox, freeCount := s.freeCount } = s ∧
          s.recoveryAnswered s' op 2 (fieldOf b 4 4) (s.rd MR.RECOVERY_CODE)) ∧
    (recoveryOk b = false → ∀ i busy readOk, (fieldOf b 0 1 = 1 ∧ i = .recoveryWrite mac (src, port) b busy) ∨
      (fieldOf b 0 1 = 2 ∧ i = .recoveryCommit mac (src, port) b busy readOk) ∨
      (fieldOf b 0 1 ≠ 1 ∧ fieldOf b 0 1 ≠ 2 ∧ i = .recoveryStatus mac src port b) → ∃ s' k, exec i s = .next s' ∧
      { s' with outbox := s.outbox, freeCount := s.freeCount } = s ∧ s'.outbox = s.outbox ++ [.ryudon k] ∧ k.payload[1]? = some 1)

/-- R418: an update whose staged bytes pass its checks begins, one that fails is refused with its code, and one during another is ignored;
the end of its writing leaves the image, or the record with its new SEQ in the other slot, or the result FLASH_ERROR. -/
def Sys2Proof.Claims.UpdateResult : Prop :=
  ∀ s : State,
    (s.rd MR.UPD_BUSY = 1 → ∀ i ∈ [Instr.fwUpdate, .ucalUpdate, .bootcfgUpdate, .rollbackCommit],
      ∃ s', exec i s = .next s' ∧ s.onlyMdRegs s' [MR.CMD_IGNORED, MR.CMD_IGNORED_SAT]) ∧
    (s.rd MR.UPD_BUSY = 0 → ∀ b s1,
      (s.staged 0x2001000 = (b, s1) → let n := fieldOf (b.take 4096) 0x10 4
        let code := if b.length < 4096 + n then 1 else imageCode s.rollbackLevel (b.take 4096) fun n => (b.drop 4096).take n
        ∃ s', exec .fwUpdate s = .next s' ∧ s'.hbm = s.hbm ∧ s'.cores = s.cores ∧ s'.md.sec.flash = s.md.sec.flash ∧
          if code = 0 then s'.rd MR.UPD_BUSY = 1 ∧ s'.rd MR.UPD_RESULT = 1 ∧ s'.md.sec.update = some ⟨1, b.take (4096 + n)⟩
          else s'.rd MR.UPD_RESULT = (code + 2) % 2 ^ 4 ∧ s'.rd MR.UPD_BUSY = 0) ∧
      (s.staged 0x8000 = (b, s1) → ∃ s', exec .ucalUpdate s = .next s' ∧ s'.hbm = s.hbm ∧ s'.md.sec.flash = s.md.sec.flash ∧
        if ucalOk (ucalRecord b) = false then s'.rd MR.UPD_RESULT = 3
        else if ucalInBounds (ucalRecord b) = false then s'.rd MR.UPD_RESULT = 7
        else s'.rd MR.UPD_BUSY = 1 ∧ s'.md.sec.update = some ⟨2, ucalRecord b⟩) ∧
      (s.staged 64 = (b, s1) → ∃ s', exec .bootcfgUpdate s = .next s' ∧ s'.hbm = s.hbm ∧ s'.md.sec.flash = s.md.sec.flash ∧
        if bootCfgForm b = false then s'.rd MR.UPD_RESULT = 3
        else if bootCfgOk b = false then s'.rd MR.UPD_RESULT = 7
        else s'.rd MR.UPD_BUSY = 1 ∧ s'.md.sec.update = some ⟨4, b⟩)) ∧
    (∀ u, s.md.sec.update = some u →
      (∃ s', exec (.updateWriteDone true) s = .next s' ∧ s.onlyMd s' ∧ s'.rd MR.UPD_BUSY = 0 ∧ s'.rd MR.UPD_RESULT = 0 ∧
        s'.md.sec.update = none ∧ (u.cmd = 1 → s'.flashPeek 0 u.bytes.length = u.bytes) ∧
        (u.cmd = 2 → let x := nextSlot 8 s.ucalNewest
          let r := withSeq u.bytes 8 x.2
          s'.flashPeek (ucalSlot x.1) r.length = r) ∧
        (u.cmd = 4 → u.bytes.length = 64 → let x := nextSlot 0xC s.bootCfg
          s'.flashPeek (bootCfgSlot x.1) 64 = withSeq u.bytes 0xC x.2)) ∧
      ∃ s', exec (.updateWriteDone false) s = .next s' ∧ s.onlyMd s' ∧ s'.rd MR.UPD_BUSY = 0 ∧ s'.rd MR.UPD_RESULT = 10)

/-- Recovery packets and updates. -/
def Obligations.RecoveryAndUpdateResult : Prop :=
  Sys2Proof.Claims.RecoveryResult ∧ Sys2Proof.Claims.UpdateResult

/-- R421, R422, R424, R425: a report begins and is written with its signature; a challenge draws a nonce, a submission is checked and opens debug
access, sets or revokes an owner slot, or fails and counts, CLOSE ends the access; JTAG submits too. While debug access is closed its other inputs do nothing. -/
def Sys2Proof.Claims.SecurityResult : Prop :=
  ∀ s : State,
    (s.rd MR.ATT_BUSY = 0 → s.rd MR.MOD_STATE ≠ 2 → ∃ s', exec .attestationRequest s = .next s' ∧ s.onlyMd s' ∧ s'.rd MR.ATT_BUSY = 1 ∧
      s'.md.sec.report = some (s.rd MR.ATT_DEST_LO / 64 * 64 + 2 ^ 32 * s.rd MR.ATT_DEST_HI, s.reportBytes)) ∧
    (∀ dest b, s.md.sec.report = some (dest, b) → b.length = 256 → (∀ x ∈ blocksOf dest 1536, s.goodBlock (64 * x) = true) →
      s.refusedAt none dest 1536 = none →
      ∃ s', exec .attestationWritten s = .next s' ∧ s'.hbmPeek dest 256 = b ∧ s'.hbmPeek (dest + 256) 1280 = (s.sign (shake256 b 64)).1 ∧ s'.rd MR.ATT_BUSY = 0 ∧ s'.md.sec.report = none ∧
        s'.cores = s.cores) ∧
    (s.md.sec.waitUntil ≤ s.now → ∃ s', exec .dbgChallenge s = .next s' ∧ s'.md.sec.nonce = true ∧ s'.md.sec.nonceAt = s.now ∧
      s'.rdBytes MR.DBG_NONCE 8 = leBytes 32 (Config.freeValue 256 s.freeCount).toNat ∧ s'.hbm = s.hbm ∧ s'.cores = s.cores) ∧
    (s.now < s.md.sec.waitUntil → exec .dbgChallenge s = .next s) ∧
    (s.rd MR.DBG_BUSY = 0 → (∃ s', exec .dbgSubmit s = .next s' ∧ s.onlyMd s' ∧ s'.rd MR.DBG_BUSY = 1 ∧ s'.md.sec.nonce = false ∧
        s'.md.sec.submission = some ⟨s.respBuf, s.rdBytes MR.DBG_NONCE 8,
          s.md.sec.nonce && decide (s.now < s.md.sec.nonceAt + 60 * 1050000000)⟩) ∧
      ∀ b, b.length ≤ 0xD00 → ∃ s', exec (.jtagDbgAuth b) s = .next s' ∧ s.onlyMd s' ∧ s'.rd MR.DBG_BUSY = 1 ∧
        s'.md.sec.submission.map (·.buf) = some (b ++ List.replicate (0xD00 - b.length) 0)) ∧
    (s.rd MR.DBG_BUSY = 1 → ∃ s', exec .dbgSubmit s = .next s' ∧ s.onlyMdRegs s' [MR.DBG_RESULT] ∧ s'.rd MR.DBG_RESULT = 1) ∧
    (∃ s', exec .dbgClose s = .next s' ∧ s.onlyMdRegs s' [MR.DEBUG_STATE] ∧ s'.rd MR.DEBUG_STATE = 0) ∧
    (∀ x, s.md.sec.submission = some x →
      (s.dbgCheck x = 0 → fieldOf x.buf 0 1 = 1 → ∃ s', exec .dbgCheckDone s = .next s' ∧ s.onlyMd s' ∧ s'.rd MR.DBG_BUSY = 0 ∧
        s'.rd MR.DBG_RESULT = 0 ∧ s'.rd MR.DEBUG_EVER = 1 ∧ s'.rd MR.DEBUG_STATE = if fieldOf x.buf 1 1 = 255 then 2 else 1) ∧
      (s.dbgCheck x = 0 → fieldOf x.buf 0 1 = 2 → ∃ s', exec .dbgCheckDone s = .next s' ∧ s.onlyMd s' ∧ s'.rd MR.DBG_RESULT = 0 ∧
        s'.ownerSlot (fieldOf x.buf 2 1) = (x.buf.drop 0x10).take 32) ∧
      (s.dbgCheck x = 0 → fieldOf x.buf 0 1 = 3 → ∃ s', exec .dbgCheckDone s = .next s' ∧ s.onlyMd s' ∧ s'.rd MR.DBG_RESULT = 0 ∧
        s'.md.sec.revoked.testBit (fieldOf x.buf 2 1) = true) ∧
      (s.dbgCheck x ≠ 0 → ∃ s', exec .dbgCheckDone s = .next s' ∧ s.onlyMd s' ∧ s'.rd MR.DBG_BUSY = 0 ∧
        s'.rd MR.DBG_RESULT = s.dbgCheck x ∧ s'.rd MR.DBG_FAILS = satAdd 16 (s.rd MR.DBG_FAILS) 1 ∧
        s'.rd MR.DEBUG_STATE = s.rd MR.DEBUG_STATE ∧
        s'.md.sec.waitUntil = s.now + 2 ^ min (s'.rd MR.DBG_FAILS - 1) 6 * 1050000000)) ∧
    exec (.jtagInstruction 0) s = .next s ∧
    (∃ s', exec (.jtagInstruction 1) s = .next s' ∧ { s' with outbox := s.outbox } = s ∧
      s'.outbox = s.outbox ++ [.readData (s.rd MR.WAFER_STEP % 16 * 2 ^ 28 + 0x02860ACF)]) ∧
    (s.rd MR.DEBUG_STATE = 0 → (∀ i, i = 2 ∨ i = 3 → exec (.jtagInstruction i) s = .next s) ∧
      ∀ b, exec (.mpDebugPortInput b) s = .next s)

/-- R424: what a debugger does while debug access is open is not in the spec, and the model stops there by name. -/
def Sys2Proof.Claims.DebugAccessStops : Prop :=
  ∀ s : State,
    (s.rd MR.DEBUG_STATE ≠ 0 → exec (.jtagInstruction 3) s = .refused .debugAccess ∧
      ∀ b, exec (.mpDebugPortInput b) s = .refused .debugAccess) ∧
    (s.rd MR.DEBUG_STATE = 2 → exec (.jtagInstruction 2) s = .refused .debugAccess) ∧
    (s.rd MR.DEBUG_STATE = 1 → exec (.jtagInstruction 2) s = .next s)

/-- Attestation, debug access, JTAG and the MP debug port. -/
def Obligations.SecurityResult : Prop :=
  Sys2Proof.Claims.SecurityResult ∧ Sys2Proof.Claims.DebugAccessStops

/-- R431 to R435, R438: the input's start, samples and warnings, the causes of a power fail and its end; contacts, coolant, and the
loss and return of the reference. -/
def Obligations.InputResult : Prop :=
  ∀ s : State,
    (s.md.input.failing = false →
      (s.md.input.start = 0 → ∃ s', exec .islandUp s = .next s' ∧ s.onlyMd s' ∧ s'.md.input = { s.md.input with start := 1 }) ∧
      (s.md.input.start = 1 → ∃ s', exec .inrushStart s = .next s' ∧ s.onlyMd s' ∧ s'.md.input = { s.md.input with start := 2 }) ∧
      (s.md.input.start = 2 → ∃ s', exec .powerGood s = .next s' ∧ s.onlyMd s' ∧ s'.md.input = { s.md.input with start := 3 } ∧
        s'.rd MR.REF_SETTLE_US = s.refSettle % 2 ^ 20) ∧
      (s.md.input.start = 3 → ∀ mv ma,
        (46000 ≤ mv → mv ≤ 56000 → ma ≤ 640000 → ∃ s', exec (.inputSample mv ma) s = .next s' ∧ s.onlyMd s' ∧
          s'.rd MR.V_IN = mean5 ((mv :: s.md.input.volts).take 5) / 10 % 2 ^ 16 ∧
          s'.rd MR.I_IN = mean5 ((ma :: s.md.input.amps).take 5) / 100 % 2 ^ 16 ∧ s'.md.input.uv = 0 ∧ s'.md.input.ov = 0 ∧
          s'.rd MR.UV_WARN = s.rd MR.UV_WARN ∧ s'.rd MR.OV_WARN = s.rd MR.OV_WARN) ∧
        (mv < 44000 → 4 ≤ s.md.input.uvFail → ∃ s', exec (.inputSample mv ma) s = .next s' ∧ s'.md.input.failing = true ∧
          s'.rd MR.POWER_FAIL = 1 ∧ s'.rd MR.PF_CAUSE = 1 ∧ s'.lastReset 3 0 0 ∧ ∀ d, d < 264 → s'.dom d = domOff)) ∧
      (s.md.input.start ≠ 0 → ∀ ts k, k < 8 → 105 ≤ nth 0 ts k → k ∈ s.md.input.hotPairs → ∃ s', exec (.contactSample ts) s = .next s' ∧
        s'.rd MR.CONTACT_HOT = 1 ∧ s'.rd MR.POWER_FAIL = 1 ∧ s'.rd MR.PF_CAUSE = 4)) ∧
    (∀ ts, (∀ k, k < 8 → nth 0 ts k < 105) → ∃ s', exec (.contactSample ts) s = .next s' ∧ s.onlyMd s' ∧ s'.md.input.hotPairs = [] ∧
      s'.rd MR.POWER_FAIL = s.rd MR.POWER_FAIL) ∧
    (∀ inlet outlet, ∃ s', exec (.coolantSample inlet outlet) s = .next s' ∧ s.onlyMd s' ∧ s'.rd MR.COOLANT_IN_T = inlet.toNat ∧
      s'.rd MR.COOLANT_OUT_T = outlet.toNat ∧ s'.md.input.hotInlet = decide (648 ≤ inlet.toInt) ∧
      (648 ≤ inlet.toInt → s.md.input.hotInlet = true → s'.rd MR.COOLANT_HOT = 1)) ∧
    (s.md.input.failing = true → ∃ s', exec .powerFailHoldEnd s = .next s' ∧ s'.hbm = [] ∧ s'.cores = [] ∧ s'.hubs = [] ∧
      s'.regions = [] ∧ s'.md.tu = .reset ∧ s'.rd MR.STAGE = 1 ∧
      s'.rd MR.BOOT_COUNT = bootNewest s.md.sec.restart.flash % 2 ^ 32) ∧
    (s.md.pw.refLost = false → ∃ s', exec .refLoss s = .next s' ∧ s.onlyMd s' ∧ s'.md.pw.refLost = true ∧ s'.rd MR.REF_HOLDOVER = 1 ∧
      s'.rd MR.REF_LOSS = 1 ∧ s'.rd MR.RESUME_VALID = 0 ∧ s'.md.tu.inbox = s.md.tu.inbox ++ [.ofModule 0 logRefLoss]) ∧
    (s.md.pw.refLost = true → (∃ s', exec (.refReturn false) s = .next s' ∧ s.onlyMd s' ∧ s'.md.pw.refLost = false ∧
        s'.rd MR.REF_HOLDOVER = 0) ∧
      (s.rd MR.REF_SOURCE_REQ = 0 → ∃ s', exec (.refReturn true) s = .next s' ∧ s'.md.pw.refLost = false ∧ s'.rd MR.REF_HOLDOVER = 0 ∧
        ∀ p, p < 36 → s'.portRd p PR.LINK_UP ≠ 1))

/-- R439, R440, R441: the answers to the commands of the management interface, with the status of each access, in RECOVERY and before stage 3
has ended too; each names its command and TAG. The layout of an answer is the model's (log 31). -/
def Obligations.ManagementResult : Prop :=
  ∀ (tag : BitVec 8) (s : State),
    (∀ addr len, (∀ x s1, devFieldsOk addr.toNat len.toNat = true → s.notReady = false ∨ inModuleWindow addr.toNat len.toNat = true →
        s.devRead mgmtWriter addr.toNat len.toNat = (x, s1) →
        ∃ s', exec (.readDev tag addr len) s = .next s' ∧ s1.mctpSays s' ([0x81] ++ leBytes 1 tag.toNat ++ mgmtBytes x)) ∧
      (devFieldsOk addr.toNat len.toNat = true → s.notReady = true → inModuleWindow addr.toNat len.toNat = false →
        ∃ s', exec (.readDev tag addr len) s = .next s' ∧ s.mctpSays s' ([0x81] ++ leBytes 1 tag.toNat ++ [2, 0])) ∧
      (devFieldsOk addr.toNat len.toNat = false → ∃ s', exec (.readDev tag addr len) s = .next s' ∧
        s.mctpSays s' ([0x81] ++ leBytes 1 tag.toNat ++ [3, 0]))) ∧
    (∀ addr b, s.inRecovery = false →
      (∀ x s1, devFieldsOk addr.toNat b.length = true → s.notReady = false ∨ inModuleWindow addr.toNat b.length = true →
        s.devWrite mgmtWriter addr.toNat b = (x, s1) →
        ∃ s', exec (.writeDev tag addr b) s = .next s' ∧ s1.mctpSays s' ([0x82] ++ leBytes 1 tag.toNat ++ mgmtBytes x)) ∧
      (devFieldsOk addr.toNat b.length = true → s.notReady = true → inModuleWindow addr.toNat b.length = false →
        ∃ s', exec (.writeDev tag addr b) s = .next s' ∧ s.mctpSays s' ([0x82] ++ leBytes 1 tag.toNat ++ [2, 0])) ∧
      (devFieldsOk addr.toNat b.length = false →
        ∃ s', exec (.writeDev tag addr b) s = .next s' ∧ s.mctpSays s' ([0x82] ++ leBytes 1 tag.toNat ++ [3, 0]))) ∧
    (s.inRecovery = true → ∀ k i, (∃ addr b, k = 0x82 ∧ i = .writeDev tag addr b) ∨ (∃ off b, k = 0x84 ∧ i = .dbgPut tag off b) ∨
      (∃ typ, k = 0x85 ∧ i = .getFm tag typ) →
      ∃ s', exec i s = .next s' ∧ s.mctpSays s' ([k] ++ leBytes 1 tag.toNat ++ [2, 0])) ∧
    (∀ seq, ∃ s', exec (.readLog tag seq) s = .next s' ∧
      s.mctpSays s' ([0x83] ++ leBytes 1 tag.toNat ++ [0, 0] ++ s.logBytes (seq.toNat % 1024))) ∧
    (∀ off b, s.inRecovery = false → off.toNat % 32 = 0 → off.toNat ≤ 0xCE0 → b.length = 32 → ∃ s', exec (.dbgPut tag off b) s = .next s' ∧
      s'.outbox = s.outbox ++ [.mctp ([0x84] ++ leBytes 1 tag.toNat ++ [0, 0])] ∧ Sparse.slice 0 s'.md.sec.resp off.toNat 32 = b ∧
      s'.hbm = s.hbm ∧ s'.cores = s.cores) ∧
    (s.inRecovery = false → (s.md.fmStatus ≠ [] → ∃ s', exec (.getFm tag 3) s = .next s' ∧
        s.mctpSays s' ([0x85] ++ leBytes 1 tag.toNat ++ [0, 0] ++ s.md.fmStatus)) ∧
      (s.md.fmReset ≠ [] → ∃ s', exec (.getFm tag 4) s = .next s' ∧
        s.mctpSays s' ([0x85] ++ leBytes 1 tag.toNat ++ [0, 0] ++ s.md.fmReset))) ∧
    (∀ b, ∃ s', exec (.mctpControl b) s = .next s' ∧ { s' with outbox := s.outbox } = s ∧ s'.outbox = s.outbox ++ [.mctpControl b]) ∧
    ∃ s', exec .smbusAlertResponse s = .next s' ∧ { s' with outbox := s.outbox } = s ∧
      s'.outbox = s.outbox ++ [.alertAddress (0x68 + Config.straps.toNat)]
end

