-- ==== Sys2Proof/Laws/Store.lean ====
section
/-!
SUPPORT. Laws of the sparse maps and of the register stores: a read after a write, and the canonical form that every write keeps.
-/
namespace Sys2Proof.Machine

variable {α : Type}

@[simp] theorem Sparse.get_nil (d : α) (k : Nat) : Sparse.get d [] k = d := rfl

@[simp] theorem Sparse.get_erase_self (d : α) (m : Sparse α) (k : Nat) : Sparse.get d (m.erase k) k = d := by
  induction m with
  | nil => rfl
  | cons e m ih =>
    obtain ⟨j, v⟩ := e
    by_cases h : j = k <;> simp [Sparse.erase, Sparse.get, h, ih]

theorem Sparse.get_erase_ne (d : α) (m : Sparse α) {k i : Nat} (h : i ≠ k) :
    Sparse.get d (m.erase k) i = Sparse.get d m i := by
  induction m with
  | nil => rfl
  | cons e m ih =>
    obtain ⟨j, v⟩ := e
    by_cases hj : j = k
    · have : j ≠ i := fun h2 => h (h2 ▸ hj)
      simp [Sparse.erase, Sparse.get, hj, ih, Ne.symm h]
    · simp [Sparse.erase, Sparse.get, hj, ih]

@[simp] theorem Sparse.get_insertAt_self (d : α) (m : Sparse α) (k : Nat) (v : α) :
    Sparse.get d (Sparse.insertAt k v (m.erase k)) k = v := by
  induction m with
  | nil => simp [Sparse.erase, Sparse.insertAt, Sparse.get]
  | cons e m ih =>
    obtain ⟨j, w⟩ := e
    by_cases hj : j = k
    · simp [Sparse.erase, hj, ih]
    · by_cases hk : k < j <;> simp [Sparse.erase, hj, Sparse.insertAt, hk, Sparse.get, ih]

theorem Sparse.get_insertAt_ne (d : α) (m : Sparse α) {k i : Nat} (v : α) (h : i ≠ k) :
    Sparse.get d (Sparse.insertAt k v m) i = Sparse.get d m i := by
  induction m with
  | nil => simp [Sparse.insertAt, Sparse.get, Ne.symm h]
  | cons e m ih =>
    obtain ⟨j, w⟩ := e
    by_cases hk : k < j <;> simp [Sparse.insertAt, hk, Sparse.get, ih, Ne.symm h]

@[simp] theorem Sparse.get_put_self (d : α) (m : Sparse α) (k : Nat) (v : α) : Sparse.get d (m.put k v) k = v := by
  simp [Sparse.put]

theorem Sparse.get_put_ne (d : α) (m : Sparse α) {k i : Nat} (v : α) (h : i ≠ k) :
    Sparse.get d (m.put k v) i = Sparse.get d m i := by
  rw [Sparse.put, Sparse.get_insertAt_ne d _ v h, Sparse.get_erase_ne d m h]

/-- A read after a `put`. -/
theorem Sparse.get_put (d : α) (m : Sparse α) (k i : Nat) (v : α) :
    Sparse.get d (m.put k v) i = if i = k then v else Sparse.get d m i := by
  by_cases h : i = k
  · simp [h]
  · simp [h, Sparse.get_put_ne d m v h]

/-- A read after a `set`. -/
theorem Sparse.get_set [DecidableEq α] (d : α) (m : Sparse α) (k i : Nat) (v : α) :
    Sparse.get d (Sparse.set d m k v) i = if i = k then v else Sparse.get d m i := by
  unfold Sparse.set
  by_cases hv : v = d
  · by_cases h : i = k
    · simp [hv, h]
    · simp [hv, h, Sparse.get_erase_ne d m h]
  · simp [hv, Sparse.get_put]

@[simp] theorem Sparse.get_set_self [DecidableEq α] (d : α) (m : Sparse α) (k : Nat) (v : α) :
    Sparse.get d (Sparse.set d m k v) k = v := by simp [Sparse.get_set]

theorem Sparse.get_set_ne [DecidableEq α] (d d' : α) (m : Sparse α) {k i : Nat} (v : α) (h : i ≠ k) :
    Sparse.get d (Sparse.set d' m k v) i = Sparse.get d m i := by
  unfold Sparse.set
  by_cases hv : v = d'
  · simp [hv, Sparse.get_erase_ne d m h]
  · simp [hv, Sparse.get_put_ne d m v h]

/-- A read after a `blit`. -/
theorem Sparse.get_blit [DecidableEq α] (d : α) (vs : List α) (m : Sparse α) (k i : Nat) :
    Sparse.get d (Sparse.blit d m k vs) i = if k ≤ i ∧ i < k + vs.length then (vs[i - k]?).getD d else Sparse.get d m i := by
  induction vs generalizing m k with
  | nil => simp [Sparse.blit]
  | cons v vs ih =>
    rw [Sparse.blit, ih, Sparse.get_set]
    by_cases hi : i = k
    · subst hi; simp
    · by_cases h : k + 1 ≤ i ∧ i < k + 1 + vs.length
      · have h2 : k ≤ i ∧ i < k + (v :: vs).length := by simp; omega
        have h3 : i - k = (i - (k + 1)) + 1 := by omega
        rw [if_pos h, if_pos h2, h3]; rfl
      · have h2 : ¬ (k ≤ i ∧ i < k + (v :: vs).length) := by simp; omega
        rw [if_neg h, if_neg h2, if_neg hi]

/-! ### The canonical form -/

/-- Every key of the map is above `k`. -/
def Sparse.above (k : Nat) (m : Sparse α) : Prop := ∀ e ∈ m, k < e.1

theorem Sparse.sorted_cons {j : Nat} {v : α} {m : Sparse α} :
    Sparse.sorted ((j, v) :: m) = true ↔ Sparse.above j m ∧ Sparse.sorted m = true := by
  induction m generalizing j v with
  | nil => simp [Sparse.sorted, Sparse.above]
  | cons e m ih =>
    obtain ⟨i, w⟩ := e
    rw [Sparse.sorted, Bool.and_eq_true, decide_eq_true_eq, ih]
    constructor
    · rintro ⟨h1, h2, h3⟩
      refine ⟨fun e he => ?_, h2, h3⟩
      rcases List.mem_cons.1 he with rfl | he
      · exact h1
      · exact Nat.lt_trans h1 (h2 e he)
    · rintro ⟨h1, h2, h3⟩
      exact ⟨h1 _ (List.mem_cons_self ..), h2, h3⟩

theorem Sparse.mem_erase {m : Sparse α} {k : Nat} {e : Nat × α} (h : e ∈ m.erase k) : e ∈ m ∧ e.1 ≠ k := by
  induction m with
  | nil => simp [Sparse.erase] at h
  | cons f m ih =>
    obtain ⟨j, v⟩ := f
    by_cases hj : j = k
    · simp only [Sparse.erase, hj, if_true] at h
      exact ⟨List.mem_cons_of_mem _ (ih h).1, (ih h).2⟩
    · simp only [Sparse.erase, hj, if_false, List.mem_cons] at h
      rcases h with rfl | h
      · exact ⟨List.mem_cons_self .., hj⟩
      · exact ⟨List.mem_cons_of_mem _ (ih h).1, (ih h).2⟩

theorem Sparse.sorted_erase {m : Sparse α} (k : Nat) (h : Sparse.sorted m = true) : Sparse.sorted (m.erase k) = true := by
  induction m with
  | nil => rfl
  | cons f m ih =>
    obtain ⟨j, v⟩ := f
    rw [Sparse.sorted_cons] at h
    by_cases hj : j = k
    · simp only [Sparse.erase, hj, if_true]; exact ih h.2
    · simp only [Sparse.erase, hj, if_false]
      exact Sparse.sorted_cons.2 ⟨fun e he => h.1 e (Sparse.mem_erase he).1, ih h.2⟩

theorem Sparse.mem_insertAt {m : Sparse α} {k : Nat} {v : α} {e : Nat × α} (h : e ∈ Sparse.insertAt k v m) :
    e = (k, v) ∨ e ∈ m := by
  induction m with
  | nil => simpa [Sparse.insertAt] using h
  | cons f m ih =>
    obtain ⟨j, w⟩ := f
    by_cases hk : k < j
    · simpa [Sparse.insertAt, hk] using h
    · simp only [Sparse.insertAt, hk, if_false, List.mem_cons] at h
      rcases h with rfl | h
      · exact .inr (List.mem_cons_self ..)
      · rcases ih h with h | h
        · exact .inl h
        · exact .inr (List.mem_cons_of_mem _ h)

theorem Sparse.sorted_insertAt {m : Sparse α} {k : Nat} {v : α} (h : Sparse.sorted m = true) (hk : ∀ e ∈ m, e.1 ≠ k) :
    Sparse.sorted (Sparse.insertAt k v m) = true := by
  induction m with
  | nil => rfl
  | cons f m ih =>
    obtain ⟨j, w⟩ := f
    have hs := Sparse.sorted_cons.1 h
    by_cases hlt : k < j
    · simp only [Sparse.insertAt, hlt, if_true]
      refine Sparse.sorted_cons.2 ⟨fun e he => ?_, h⟩
      rcases List.mem_cons.1 he with rfl | he
      · exact hlt
      · exact Nat.lt_trans hlt (hs.1 e he)
    · simp only [Sparse.insertAt, hlt, if_false]
      refine Sparse.sorted_cons.2 ⟨fun e he => ?_, ih hs.2 fun e he => hk e (List.mem_cons_of_mem _ he)⟩
      rcases Sparse.mem_insertAt he with rfl | he
      · have := hk (j, w) (List.mem_cons_self ..)
        simp only at this ⊢; omega
      · exact hs.1 e he

theorem Sparse.sorted_put {m : Sparse α} (k : Nat) (v : α) (h : Sparse.sorted m = true) : Sparse.sorted (m.put k v) = true :=
  Sparse.sorted_insertAt (Sparse.sorted_erase k h) fun _ he => (Sparse.mem_erase he).2

theorem Sparse.wf_iff [DecidableEq α] {d : α} {m : Sparse α} :
    Sparse.wf d m = true ↔ Sparse.sorted m = true ∧ ∀ e ∈ m, e.2 ≠ d := by
  simp [Sparse.wf, List.all_eq_true]

/-- Writing a key keeps the canonical form. -/
theorem Sparse.wf_set [DecidableEq α] {d : α} {m : Sparse α} (k : Nat) (v : α) (h : Sparse.wf d m = true) :
    Sparse.wf d (Sparse.set d m k v) = true := by
  obtain ⟨hs, hd⟩ := Sparse.wf_iff.1 h
  unfold Sparse.set
  by_cases hv : v = d
  · simp only [hv, if_true]
    exact Sparse.wf_iff.2 ⟨Sparse.sorted_erase k hs, fun e he => hd e (Sparse.mem_erase he).1⟩
  · simp only [hv, if_false]
    refine Sparse.wf_iff.2 ⟨Sparse.sorted_put k v hs, fun e he => ?_⟩
    rcases Sparse.mem_insertAt he with rfl | he
    · exact hv
    · exact hd e (Sparse.mem_erase he).1

/-- Writing a run of keys keeps the canonical form. -/
theorem Sparse.wf_blit [DecidableEq α] {d : α} (vs : List α) {m : Sparse α} (k : Nat) (h : Sparse.wf d m = true) :
    Sparse.wf d (Sparse.blit d m k vs) = true := by
  induction vs generalizing m k with
  | nil => exact h
  | cons v vs ih => exact ih (k + 1) (Sparse.wf_set k v h)

/-! ### Register stores -/

/-- A field reads what was written to it, cut to its width. -/
@[simp] theorem Regs.rd_wr_self (r : Regs) (f : Fld) (v : Nat) : (r.wr f v).rd f = v % 2 ^ f.w := by
  simp [Regs.rd, Regs.wr]

/-- A write leaves the fields at other places alone. -/
theorem Regs.rd_wr_ne (r : Regs) {f g : Fld} (v : Nat) (h : g.key ≠ f.key) : (r.wr f v).rd g = r.rd g := by
  simp [Regs.rd, Regs.wr, Sparse.get_set_ne g.rst f.rst r.cur _ h]

@[simp] theorem Regs.force_wr (r : Regs) (f : Fld) (v : Nat) : (r.wr f v).force = r.force := rfl

end Sys2Proof.Machine
end

