-- ==== Sys2Proof/Laws/State.lean ====
section
/-!
SUPPORT. What each update of the state leaves alone, one lemma per field, and what a unit reads after an update.
-/
namespace Sys2Proof.Machine

variable {s : State} {n : Nat}

/-! ### Updates of the machine -/

@[simp] theorem State.setCore_pending (s : State) (i : Nat) (c : Core) : (s.setCore i c).pending = s.pending := rfl
@[simp] theorem State.setCore_now (s : State) (i : Nat) (c : Core) : (s.setCore i c).now = s.now := rfl
@[simp] theorem State.setCore_md (s : State) (i : Nat) (c : Core) : (s.setCore i c).md = s.md := rfl
@[simp] theorem State.setCore_regions (s : State) (i : Nat) (c : Core) : (s.setCore i c).regions = s.regions := rfl
@[simp] theorem State.setCore_hubs (s : State) (i : Nat) (c : Core) : (s.setCore i c).hubs = s.hubs := rfl
@[simp] theorem State.setCore_hbm (s : State) (i : Nat) (c : Core) : (s.setCore i c).hbm = s.hbm := rfl
@[simp] theorem State.setCore_hbmFail (s : State) (i : Nat) (c : Core) : (s.setCore i c).hbmFail = s.hbmFail := rfl
@[simp] theorem State.setCore_hbmCrc (s : State) (i : Nat) (c : Core) : (s.setCore i c).hbmCrc = s.hbmCrc := rfl
@[simp] theorem State.setCore_freeCount (s : State) (i : Nat) (c : Core) : (s.setCore i c).freeCount = s.freeCount := rfl
@[simp] theorem State.setCore_outbox (s : State) (i : Nat) (c : Core) : (s.setCore i c).outbox = s.outbox := rfl
@[simp] theorem State.updCore_pending (s : State) (i : Nat) (f : Core → Core) : (s.updCore i f).pending = s.pending := rfl
@[simp] theorem State.updCore_now (s : State) (i : Nat) (f : Core → Core) : (s.updCore i f).now = s.now := rfl
@[simp] theorem State.updCore_md (s : State) (i : Nat) (f : Core → Core) : (s.updCore i f).md = s.md := rfl
@[simp] theorem State.updCore_regions (s : State) (i : Nat) (f : Core → Core) : (s.updCore i f).regions = s.regions := rfl
@[simp] theorem State.updCore_hubs (s : State) (i : Nat) (f : Core → Core) : (s.updCore i f).hubs = s.hubs := rfl
@[simp] theorem State.updCore_hbm (s : State) (i : Nat) (f : Core → Core) : (s.updCore i f).hbm = s.hbm := rfl
@[simp] theorem State.updCore_hbmFail (s : State) (i : Nat) (f : Core → Core) : (s.updCore i f).hbmFail = s.hbmFail := rfl
@[simp] theorem State.updCore_hbmCrc (s : State) (i : Nat) (f : Core → Core) : (s.updCore i f).hbmCrc = s.hbmCrc := rfl
@[simp] theorem State.updCore_freeCount (s : State) (i : Nat) (f : Core → Core) : (s.updCore i f).freeCount = s.freeCount := rfl
@[simp] theorem State.updCore_outbox (s : State) (i : Nat) (f : Core → Core) : (s.updCore i f).outbox = s.outbox := rfl
@[simp] theorem State.updRegion_pending (s : State) (i : Nat) (f : Region → Region) : (s.updRegion i f).pending = s.pending := rfl
@[simp] theorem State.updRegion_now (s : State) (i : Nat) (f : Region → Region) : (s.updRegion i f).now = s.now := rfl
@[simp] theorem State.updRegion_md (s : State) (i : Nat) (f : Region → Region) : (s.updRegion i f).md = s.md := rfl
@[simp] theorem State.updRegion_cores (s : State) (i : Nat) (f : Region → Region) : (s.updRegion i f).cores = s.cores := rfl
@[simp] theorem State.updRegion_hubs (s : State) (i : Nat) (f : Region → Region) : (s.updRegion i f).hubs = s.hubs := rfl
@[simp] theorem State.updRegion_hbm (s : State) (i : Nat) (f : Region → Region) : (s.updRegion i f).hbm = s.hbm := rfl
@[simp] theorem State.updRegion_hbmFail (s : State) (i : Nat) (f : Region → Region) : (s.updRegion i f).hbmFail = s.hbmFail := rfl
@[simp] theorem State.updRegion_hbmCrc (s : State) (i : Nat) (f : Region → Region) : (s.updRegion i f).hbmCrc = s.hbmCrc := rfl
@[simp] theorem State.updRegion_freeCount (s : State) (i : Nat) (f : Region → Region) : (s.updRegion i f).freeCount = s.freeCount := rfl
@[simp] theorem State.updRegion_outbox (s : State) (i : Nat) (f : Region → Region) : (s.updRegion i f).outbox = s.outbox := rfl
@[simp] theorem State.updHub_pending (s : State) (i : Nat) (f : Hub → Hub) : (s.updHub i f).pending = s.pending := rfl
@[simp] theorem State.updHub_now (s : State) (i : Nat) (f : Hub → Hub) : (s.updHub i f).now = s.now := rfl
@[simp] theorem State.updHub_md (s : State) (i : Nat) (f : Hub → Hub) : (s.updHub i f).md = s.md := rfl
@[simp] theorem State.updHub_regions (s : State) (i : Nat) (f : Hub → Hub) : (s.updHub i f).regions = s.regions := rfl
@[simp] theorem State.updHub_cores (s : State) (i : Nat) (f : Hub → Hub) : (s.updHub i f).cores = s.cores := rfl
@[simp] theorem State.updHub_hbm (s : State) (i : Nat) (f : Hub → Hub) : (s.updHub i f).hbm = s.hbm := rfl
@[simp] theorem State.updHub_hbmFail (s : State) (i : Nat) (f : Hub → Hub) : (s.updHub i f).hbmFail = s.hbmFail := rfl
@[simp] theorem State.updHub_hbmCrc (s : State) (i : Nat) (f : Hub → Hub) : (s.updHub i f).hbmCrc = s.hbmCrc := rfl
@[simp] theorem State.updHub_freeCount (s : State) (i : Nat) (f : Hub → Hub) : (s.updHub i f).freeCount = s.freeCount := rfl
@[simp] theorem State.updHub_outbox (s : State) (i : Nat) (f : Hub → Hub) : (s.updHub i f).outbox = s.outbox := rfl
@[simp] theorem State.updMd_pending (s : State) (f : Module → Module) : (s.updMd f).pending = s.pending := rfl
@[simp] theorem State.updMd_now (s : State) (f : Module → Module) : (s.updMd f).now = s.now := rfl
@[simp] theorem State.updMd_regions (s : State) (f : Module → Module) : (s.updMd f).regions = s.regions := rfl
@[simp] theorem State.updMd_cores (s : State) (f : Module → Module) : (s.updMd f).cores = s.cores := rfl
@[simp] theorem State.updMd_hubs (s : State) (f : Module → Module) : (s.updMd f).hubs = s.hubs := rfl
@[simp] theorem State.updMd_hbm (s : State) (f : Module → Module) : (s.updMd f).hbm = s.hbm := rfl
@[simp] theorem State.updMd_hbmFail (s : State) (f : Module → Module) : (s.updMd f).hbmFail = s.hbmFail := rfl
@[simp] theorem State.updMd_hbmCrc (s : State) (f : Module → Module) : (s.updMd f).hbmCrc = s.hbmCrc := rfl
@[simp] theorem State.updMd_freeCount (s : State) (f : Module → Module) : (s.updMd f).freeCount = s.freeCount := rfl
@[simp] theorem State.updMd_outbox (s : State) (f : Module → Module) : (s.updMd f).outbox = s.outbox := rfl
@[simp] theorem State.emit_pending (s : State) (o : Output) : (s.emit o).pending = s.pending := rfl
@[simp] theorem State.emit_now (s : State) (o : Output) : (s.emit o).now = s.now := rfl
@[simp] theorem State.emit_md (s : State) (o : Output) : (s.emit o).md = s.md := rfl
@[simp] theorem State.emit_regions (s : State) (o : Output) : (s.emit o).regions = s.regions := rfl
@[simp] theorem State.emit_cores (s : State) (o : Output) : (s.emit o).cores = s.cores := rfl
@[simp] theorem State.emit_hubs (s : State) (o : Output) : (s.emit o).hubs = s.hubs := rfl
@[simp] theorem State.emit_hbm (s : State) (o : Output) : (s.emit o).hbm = s.hbm := rfl
@[simp] theorem State.emit_hbmFail (s : State) (o : Output) : (s.emit o).hbmFail = s.hbmFail := rfl
@[simp] theorem State.emit_hbmCrc (s : State) (o : Output) : (s.emit o).hbmCrc = s.hbmCrc := rfl
@[simp] theorem State.emit_freeCount (s : State) (o : Output) : (s.emit o).freeCount = s.freeCount := rfl
@[simp] theorem State.wr_pending (s : State) (f : Fld) (v : Nat) : (s.wr f v).pending = s.pending := rfl
@[simp] theorem State.wr_now (s : State) (f : Fld) (v : Nat) : (s.wr f v).now = s.now := rfl
@[simp] theorem State.wr_regions (s : State) (f : Fld) (v : Nat) : (s.wr f v).regions = s.regions := rfl
@[simp] theorem State.wr_cores (s : State) (f : Fld) (v : Nat) : (s.wr f v).cores = s.cores := rfl
@[simp] theorem State.wr_hubs (s : State) (f : Fld) (v : Nat) : (s.wr f v).hubs = s.hubs := rfl
@[simp] theorem State.wr_hbm (s : State) (f : Fld) (v : Nat) : (s.wr f v).hbm = s.hbm := rfl
@[simp] theorem State.wr_hbmFail (s : State) (f : Fld) (v : Nat) : (s.wr f v).hbmFail = s.hbmFail := rfl
@[simp] theorem State.wr_hbmCrc (s : State) (f : Fld) (v : Nat) : (s.wr f v).hbmCrc = s.hbmCrc := rfl
@[simp] theorem State.wr_freeCount (s : State) (f : Fld) (v : Nat) : (s.wr f v).freeCount = s.freeCount := rfl
@[simp] theorem State.wr_outbox (s : State) (f : Fld) (v : Nat) : (s.wr f v).outbox = s.outbox := rfl
@[simp] theorem State.wrs_pending (s : State) (l : List (Fld × Nat)) : (s.wrs l).pending = s.pending := rfl
@[simp] theorem State.wrs_now (s : State) (l : List (Fld × Nat)) : (s.wrs l).now = s.now := rfl
@[simp] theorem State.wrs_regions (s : State) (l : List (Fld × Nat)) : (s.wrs l).regions = s.regions := rfl
@[simp] theorem State.wrs_cores (s : State) (l : List (Fld × Nat)) : (s.wrs l).cores = s.cores := rfl
@[simp] theorem State.wrs_hubs (s : State) (l : List (Fld × Nat)) : (s.wrs l).hubs = s.hubs := rfl
@[simp] theorem State.wrs_hbm (s : State) (l : List (Fld × Nat)) : (s.wrs l).hbm = s.hbm := rfl
@[simp] theorem State.wrs_hbmFail (s : State) (l : List (Fld × Nat)) : (s.wrs l).hbmFail = s.hbmFail := rfl
@[simp] theorem State.wrs_hbmCrc (s : State) (l : List (Fld × Nat)) : (s.wrs l).hbmCrc = s.hbmCrc := rfl
@[simp] theorem State.wrs_freeCount (s : State) (l : List (Fld × Nat)) : (s.wrs l).freeCount = s.freeCount := rfl
@[simp] theorem State.wrs_outbox (s : State) (l : List (Fld × Nat)) : (s.wrs l).outbox = s.outbox := rfl
@[simp] theorem State.count_pending (s : State) (f : Fld) : (s.count f).pending = s.pending := rfl
@[simp] theorem State.count_now (s : State) (f : Fld) : (s.count f).now = s.now := rfl
@[simp] theorem State.count_regions (s : State) (f : Fld) : (s.count f).regions = s.regions := rfl
@[simp] theorem State.count_cores (s : State) (f : Fld) : (s.count f).cores = s.cores := rfl
@[simp] theorem State.count_hubs (s : State) (f : Fld) : (s.count f).hubs = s.hubs := rfl
@[simp] theorem State.count_hbm (s : State) (f : Fld) : (s.count f).hbm = s.hbm := rfl
@[simp] theorem State.count_hbmFail (s : State) (f : Fld) : (s.count f).hbmFail = s.hbmFail := rfl
@[simp] theorem State.count_hbmCrc (s : State) (f : Fld) : (s.count f).hbmCrc = s.hbmCrc := rfl
@[simp] theorem State.count_freeCount (s : State) (f : Fld) : (s.count f).freeCount = s.freeCount := rfl
@[simp] theorem State.count_outbox (s : State) (f : Fld) : (s.count f).outbox = s.outbox := rfl
@[simp] theorem State.sendAbort_pending (s : State) (a : AbortMsg) : (s.sendAbort a).pending = s.pending := by
  unfold State.sendAbort; split <;> rfl
@[simp] theorem State.sendAbort_now (s : State) (a : AbortMsg) : (s.sendAbort a).now = s.now := by
  unfold State.sendAbort; split <;> rfl
@[simp] theorem State.sendAbort_cores (s : State) (a : AbortMsg) : (s.sendAbort a).cores = s.cores := by
  unfold State.sendAbort; split <;> rfl
@[simp] theorem State.sendAbort_hubs (s : State) (a : AbortMsg) : (s.sendAbort a).hubs = s.hubs := by
  unfold State.sendAbort; split <;> rfl
@[simp] theorem State.sendAbort_hbm (s : State) (a : AbortMsg) : (s.sendAbort a).hbm = s.hbm := by
  unfold State.sendAbort; split <;> rfl
@[simp] theorem State.sendAbort_hbmFail (s : State) (a : AbortMsg) : (s.sendAbort a).hbmFail = s.hbmFail := by
  unfold State.sendAbort; split <;> rfl
@[simp] theorem State.sendAbort_hbmCrc (s : State) (a : AbortMsg) : (s.sendAbort a).hbmCrc = s.hbmCrc := by
  unfold State.sendAbort; split <;> rfl
@[simp] theorem State.sendAbort_freeCount (s : State) (a : AbortMsg) : (s.sendAbort a).freeCount = s.freeCount := by
  unfold State.sendAbort; split <;> rfl
@[simp] theorem State.sendAbort_outbox (s : State) (a : AbortMsg) : (s.sendAbort a).outbox = s.outbox := by
  unfold State.sendAbort; split <;> rfl
@[simp] theorem State.retire_pending (s : State) (i t : Nat) (f : Thread → Thread) : (s.retire i t f).pending = s.pending := rfl
@[simp] theorem State.retire_now (s : State) (i t : Nat) (f : Thread → Thread) : (s.retire i t f).now = s.now := rfl
@[simp] theorem State.retire_md (s : State) (i t : Nat) (f : Thread → Thread) : (s.retire i t f).md = s.md := rfl
@[simp] theorem State.retire_regions (s : State) (i t : Nat) (f : Thread → Thread) : (s.retire i t f).regions = s.regions := rfl
@[simp] theorem State.retire_hubs (s : State) (i t : Nat) (f : Thread → Thread) : (s.retire i t f).hubs = s.hubs := rfl
@[simp] theorem State.retire_hbm (s : State) (i t : Nat) (f : Thread → Thread) : (s.retire i t f).hbm = s.hbm := rfl
@[simp] theorem State.retire_hbmFail (s : State) (i t : Nat) (f : Thread → Thread) : (s.retire i t f).hbmFail = s.hbmFail := rfl
@[simp] theorem State.retire_hbmCrc (s : State) (i t : Nat) (f : Thread → Thread) : (s.retire i t f).hbmCrc = s.hbmCrc := rfl
@[simp] theorem State.retire_freeCount (s : State) (i t : Nat) (f : Thread → Thread) : (s.retire i t f).freeCount = s.freeCount := rfl
@[simp] theorem State.retire_outbox (s : State) (i t : Nat) (f : Thread → Thread) : (s.retire i t f).outbox = s.outbox := rfl
@[simp] theorem State.spin_pending (s : State) (i t : Nat) (w : WaitOn) : (s.spin i t w).pending = s.pending := rfl
@[simp] theorem State.spin_now (s : State) (i t : Nat) (w : WaitOn) : (s.spin i t w).now = s.now := rfl
@[simp] theorem State.spin_md (s : State) (i t : Nat) (w : WaitOn) : (s.spin i t w).md = s.md := rfl
@[simp] theorem State.spin_regions (s : State) (i t : Nat) (w : WaitOn) : (s.spin i t w).regions = s.regions := rfl
@[simp] theorem State.spin_hubs (s : State) (i t : Nat) (w : WaitOn) : (s.spin i t w).hubs = s.hubs := rfl
@[simp] theorem State.spin_hbm (s : State) (i t : Nat) (w : WaitOn) : (s.spin i t w).hbm = s.hbm := rfl
@[simp] theorem State.spin_hbmFail (s : State) (i t : Nat) (w : WaitOn) : (s.spin i t w).hbmFail = s.hbmFail := rfl
@[simp] theorem State.spin_hbmCrc (s : State) (i t : Nat) (w : WaitOn) : (s.spin i t w).hbmCrc = s.hbmCrc := rfl
@[simp] theorem State.spin_freeCount (s : State) (i t : Nat) (w : WaitOn) : (s.spin i t w).freeCount = s.freeCount := rfl
@[simp] theorem State.spin_outbox (s : State) (i t : Nat) (w : WaitOn) : (s.spin i t w).outbox = s.outbox := rfl
@[simp] theorem State.hold_pending (s : State) (i t : Nat) : (s.hold i t).pending = s.pending := rfl
@[simp] theorem State.hold_now (s : State) (i t : Nat) : (s.hold i t).now = s.now := rfl
@[simp] theorem State.hold_md (s : State) (i t : Nat) : (s.hold i t).md = s.md := rfl
@[simp] theorem State.hold_regions (s : State) (i t : Nat) : (s.hold i t).regions = s.regions := rfl
@[simp] theorem State.hold_hubs (s : State) (i t : Nat) : (s.hold i t).hubs = s.hubs := rfl
@[simp] theorem State.hold_hbm (s : State) (i t : Nat) : (s.hold i t).hbm = s.hbm := rfl
@[simp] theorem State.hold_hbmFail (s : State) (i t : Nat) : (s.hold i t).hbmFail = s.hbmFail := rfl
@[simp] theorem State.hold_hbmCrc (s : State) (i t : Nat) : (s.hold i t).hbmCrc = s.hbmCrc := rfl
@[simp] theorem State.hold_freeCount (s : State) (i t : Nat) : (s.hold i t).freeCount = s.freeCount := rfl
@[simp] theorem State.hold_outbox (s : State) (i t : Nat) : (s.hold i t).outbox = s.outbox := rfl

/-! ### Updates of a core -/

@[simp] theorem Core.wr_sec (c : Core) (f : Fld) (v : Nat) : (c.wr f v).sec = c.sec := rfl
@[simp] theorem Core.wr_secTick (c : Core) (f : Fld) (v : Nat) : (c.wr f v).secTick = c.secTick := rfl
@[simp] theorem Core.wr_finalClasp (c : Core) (f : Fld) (v : Nat) : (c.wr f v).finalClasp = c.finalClasp := rfl
@[simp] theorem Core.wr_finalDone (c : Core) (f : Fld) (v : Nat) : (c.wr f v).finalDone = c.finalDone := rfl
@[simp] theorem Core.wr_faulted (c : Core) (f : Fld) (v : Nat) : (c.wr f v).faulted = c.faulted := rfl
@[simp] theorem Core.wr_folds (c : Core) (f : Fld) (v : Nat) : (c.wr f v).folds = c.folds := rfl
@[simp] theorem Core.wr_secSince (c : Core) (f : Fld) (v : Nat) : (c.wr f v).secSince = c.secSince := rfl
@[simp] theorem Core.wr_next (c : Core) (f : Fld) (v : Nat) : (c.wr f v).next = c.next := rfl
@[simp] theorem Core.wr_tickSeen (c : Core) (f : Fld) (v : Nat) : (c.wr f v).tickSeen = c.tickSeen := rfl
@[simp] theorem Core.wr_tickTaken (c : Core) (f : Fld) (v : Nat) : (c.wr f v).tickTaken = c.tickTaken := rfl
@[simp] theorem Core.wr_cutDue (c : Core) (f : Fld) (v : Nat) : (c.wr f v).cutDue = c.cutDue := rfl
@[simp] theorem Core.wr_doneFor (c : Core) (f : Fld) (v : Nat) : (c.wr f v).doneFor = c.doneFor := rfl
@[simp] theorem Core.wr_doneOut (c : Core) (f : Fld) (v : Nat) : (c.wr f v).doneOut = c.doneOut := rfl
@[simp] theorem Core.wr_abortTaken (c : Core) (f : Fld) (v : Nat) : (c.wr f v).abortTaken = c.abortTaken := rfl
@[simp] theorem Core.wr_epochTimer (c : Core) (f : Fld) (v : Nat) : (c.wr f v).epochTimer = c.epochTimer := rfl
@[simp] theorem Core.wr_slots (c : Core) (f : Fld) (v : Nat) : (c.wr f v).slots = c.slots := rfl
@[simp] theorem Core.wr_early (c : Core) (f : Fld) (v : Nat) : (c.wr f v).early = c.early := rfl
@[simp] theorem Core.wr_threads (c : Core) (f : Fld) (v : Nat) : (c.wr f v).threads = c.threads := rfl
@[simp] theorem Core.wr_lastIssued (c : Core) (f : Fld) (v : Nat) : (c.wr f v).lastIssued = c.lastIssued := rfl
@[simp] theorem Core.wr_gen (c : Core) (f : Fld) (v : Nat) : (c.wr f v).gen = c.gen := rfl
@[simp] theorem Core.wr_cycleBase (c : Core) (f : Fld) (v : Nat) : (c.wr f v).cycleBase = c.cycleBase := rfl
@[simp] theorem Core.wr_spad (c : Core) (f : Fld) (v : Nat) : (c.wr f v).spad = c.spad := rfl
@[simp] theorem Core.wr_single (c : Core) (f : Fld) (v : Nat) : (c.wr f v).single = c.single := rfl
@[simp] theorem Core.wr_double (c : Core) (f : Fld) (v : Nat) : (c.wr f v).double = c.double := rfl
@[simp] theorem Core.wr_writebacks (c : Core) (f : Fld) (v : Nat) : (c.wr f v).writebacks = c.writebacks := rfl
@[simp] theorem Core.wr_bezels (c : Core) (f : Fld) (v : Nat) : (c.wr f v).bezels = c.bezels := rfl
@[simp] theorem Core.wr_shadows (c : Core) (f : Fld) (v : Nat) : (c.wr f v).shadows = c.shadows := rfl
@[simp] theorem Core.wr_bzOut (c : Core) (f : Fld) (v : Nat) : (c.wr f v).bzOut = c.bzOut := rfl
@[simp] theorem Core.wr_lane (c : Core) (f : Fld) (v : Nat) : (c.wr f v).lane = c.lane := rfl
@[simp] theorem Core.wr_lastDir (c : Core) (f : Fld) (v : Nat) : (c.wr f v).lastDir = c.lastDir := rfl
@[simp] theorem Core.wr_heldArr (c : Core) (f : Fld) (v : Nat) : (c.wr f v).heldArr = c.heldArr := rfl
@[simp] theorem Core.wr_eng (c : Core) (f : Fld) (v : Nat) : (c.wr f v).eng = c.eng := rfl
@[simp] theorem Core.wr_comp (c : Core) (f : Fld) (v : Nat) : (c.wr f v).comp = c.comp := rfl
@[simp] theorem Core.wr_dma (c : Core) (f : Fld) (v : Nat) : (c.wr f v).dma = c.dma := rfl
@[simp] theorem Core.wr_router (c : Core) (f : Fld) (v : Nat) : (c.wr f v).router = c.router := rfl
@[simp] theorem Core.wr_queues (c : Core) (f : Fld) (v : Nat) : (c.wr f v).queues = c.queues := rfl
@[simp] theorem Core.wr_routes (c : Core) (f : Fld) (v : Nat) : (c.wr f v).routes = c.routes := rfl
@[simp] theorem Core.wr_hold (c : Core) (f : Fld) (v : Nat) : (c.wr f v).hold = c.hold := rfl
@[simp] theorem Core.wr_clasps (c : Core) (f : Fld) (v : Nat) : (c.wr f v).clasps = c.clasps := rfl
@[simp] theorem Core.wr_claspIn (c : Core) (f : Fld) (v : Nat) : (c.wr f v).claspIn = c.claspIn := rfl
@[simp] theorem Core.wr_ctrlOut (c : Core) (f : Fld) (v : Nat) : (c.wr f v).ctrlOut = c.ctrlOut := rfl
@[simp] theorem Core.wr_balance (c : Core) (f : Fld) (v : Nat) : (c.wr f v).balance = c.balance := rfl
@[simp] theorem Core.wr_memWait (c : Core) (f : Fld) (v : Nat) : (c.wr f v).memWait = c.memWait := rfl
@[simp] theorem Core.wr_fillerDuty (c : Core) (f : Fld) (v : Nat) : (c.wr f v).fillerDuty = c.fillerDuty := rfl
@[simp] theorem Core.wr_dutyTaken (c : Core) (f : Fld) (v : Nat) : (c.wr f v).dutyTaken = c.dutyTaken := rfl
@[simp] theorem Core.wr_live (c : Core) (f : Fld) (v : Nat) : (c.wr f v).live = c.live := rfl
@[simp] theorem Core.wr_lost (c : Core) (f : Fld) (v : Nat) : (c.wr f v).lost = c.lost := rfl
@[simp] theorem Core.wr_gated (c : Core) (f : Fld) (v : Nat) : (c.wr f v).gated = c.gated := rfl
@[simp] theorem Core.wrs_sec (c : Core) (l : List (Fld × Nat)) : (c.wrs l).sec = c.sec := rfl
@[simp] theorem Core.wrs_secTick (c : Core) (l : List (Fld × Nat)) : (c.wrs l).secTick = c.secTick := rfl
@[simp] theorem Core.wrs_finalClasp (c : Core) (l : List (Fld × Nat)) : (c.wrs l).finalClasp = c.finalClasp := rfl
@[simp] theorem Core.wrs_finalDone (c : Core) (l : List (Fld × Nat)) : (c.wrs l).finalDone = c.finalDone := rfl
@[simp] theorem Core.wrs_faulted (c : Core) (l : List (Fld × Nat)) : (c.wrs l).faulted = c.faulted := rfl
@[simp] theorem Core.wrs_folds (c : Core) (l : List (Fld × Nat)) : (c.wrs l).folds = c.folds := rfl
@[simp] theorem Core.wrs_secSince (c : Core) (l : List (Fld × Nat)) : (c.wrs l).secSince = c.secSince := rfl
@[simp] theorem Core.wrs_next (c : Core) (l : List (Fld × Nat)) : (c.wrs l).next = c.next := rfl
@[simp] theorem Core.wrs_tickSeen (c : Core) (l : List (Fld × Nat)) : (c.wrs l).tickSeen = c.tickSeen := rfl
@[simp] theorem Core.wrs_tickTaken (c : Core) (l : List (Fld × Nat)) : (c.wrs l).tickTaken = c.tickTaken := rfl
@[simp] theorem Core.wrs_cutDue (c : Core) (l : List (Fld × Nat)) : (c.wrs l).cutDue = c.cutDue := rfl
@[simp] theorem Core.wrs_doneFor (c : Core) (l : List (Fld × Nat)) : (c.wrs l).doneFor = c.doneFor := rfl
@[simp] theorem Core.wrs_doneOut (c : Core) (l : List (Fld × Nat)) : (c.wrs l).doneOut = c.doneOut := rfl
@[simp] theorem Core.wrs_abortTaken (c : Core) (l : List (Fld × Nat)) : (c.wrs l).abortTaken = c.abortTaken := rfl
@[simp] theorem Core.wrs_epochTimer (c : Core) (l : List (Fld × Nat)) : (c.wrs l).epochTimer = c.epochTimer := rfl
@[simp] theorem Core.wrs_slots (c : Core) (l : List (Fld × Nat)) : (c.wrs l).slots = c.slots := rfl
@[simp] theorem Core.wrs_early (c : Core) (l : List (Fld × Nat)) : (c.wrs l).early = c.early := rfl
@[simp] theorem Core.wrs_threads (c : Core) (l : List (Fld × Nat)) : (c.wrs l).threads = c.threads := rfl
@[simp] theorem Core.wrs_lastIssued (c : Core) (l : List (Fld × Nat)) : (c.wrs l).lastIssued = c.lastIssued := rfl
@[simp] theorem Core.wrs_gen (c : Core) (l : List (Fld × Nat)) : (c.wrs l).gen = c.gen := rfl
@[simp] theorem Core.wrs_cycleBase (c : Core) (l : List (Fld × Nat)) : (c.wrs l).cycleBase = c.cycleBase := rfl
@[simp] theorem Core.wrs_spad (c : Core) (l : List (Fld × Nat)) : (c.wrs l).spad = c.spad := rfl
@[simp] theorem Core.wrs_single (c : Core) (l : List (Fld × Nat)) : (c.wrs l).single = c.single := rfl
@[simp] theorem Core.wrs_double (c : Core) (l : List (Fld × Nat)) : (c.wrs l).double = c.double := rfl
@[simp] theorem Core.wrs_writebacks (c : Core) (l : List (Fld × Nat)) : (c.wrs l).writebacks = c.writebacks := rfl
@[simp] theorem Core.wrs_bezels (c : Core) (l : List (Fld × Nat)) : (c.wrs l).bezels = c.bezels := rfl
@[simp] theorem Core.wrs_shadows (c : Core) (l : List (Fld × Nat)) : (c.wrs l).shadows = c.shadows := rfl
@[simp] theorem Core.wrs_bzOut (c : Core) (l : List (Fld × Nat)) : (c.wrs l).bzOut = c.bzOut := rfl
@[simp] theorem Core.wrs_lane (c : Core) (l : List (Fld × Nat)) : (c.wrs l).lane = c.lane := rfl
@[simp] theorem Core.wrs_lastDir (c : Core) (l : List (Fld × Nat)) : (c.wrs l).lastDir = c.lastDir := rfl
@[simp] theorem Core.wrs_heldArr (c : Core) (l : List (Fld × Nat)) : (c.wrs l).heldArr = c.heldArr := rfl
@[simp] theorem Core.wrs_eng (c : Core) (l : List (Fld × Nat)) : (c.wrs l).eng = c.eng := rfl
@[simp] theorem Core.wrs_comp (c : Core) (l : List (Fld × Nat)) : (c.wrs l).comp = c.comp := rfl
@[simp] theorem Core.wrs_dma (c : Core) (l : List (Fld × Nat)) : (c.wrs l).dma = c.dma := rfl
@[simp] theorem Core.wrs_router (c : Core) (l : List (Fld × Nat)) : (c.wrs l).router = c.router := rfl
@[simp] theorem Core.wrs_queues (c : Core) (l : List (Fld × Nat)) : (c.wrs l).queues = c.queues := rfl
@[simp] theorem Core.wrs_routes (c : Core) (l : List (Fld × Nat)) : (c.wrs l).routes = c.routes := rfl
@[simp] theorem Core.wrs_hold (c : Core) (l : List (Fld × Nat)) : (c.wrs l).hold = c.hold := rfl
@[simp] theorem Core.wrs_clasps (c : Core) (l : List (Fld × Nat)) : (c.wrs l).clasps = c.clasps := rfl
@[simp] theorem Core.wrs_claspIn (c : Core) (l : List (Fld × Nat)) : (c.wrs l).claspIn = c.claspIn := rfl
@[simp] theorem Core.wrs_ctrlOut (c : Core) (l : List (Fld × Nat)) : (c.wrs l).ctrlOut = c.ctrlOut := rfl
@[simp] theorem Core.wrs_balance (c : Core) (l : List (Fld × Nat)) : (c.wrs l).balance = c.balance := rfl
@[simp] theorem Core.wrs_memWait (c : Core) (l : List (Fld × Nat)) : (c.wrs l).memWait = c.memWait := rfl
@[simp] theorem Core.wrs_fillerDuty (c : Core) (l : List (Fld × Nat)) : (c.wrs l).fillerDuty = c.fillerDuty := rfl
@[simp] theorem Core.wrs_dutyTaken (c : Core) (l : List (Fld × Nat)) : (c.wrs l).dutyTaken = c.dutyTaken := rfl
@[simp] theorem Core.wrs_live (c : Core) (l : List (Fld × Nat)) : (c.wrs l).live = c.live := rfl
@[simp] theorem Core.wrs_lost (c : Core) (l : List (Fld × Nat)) : (c.wrs l).lost = c.lost := rfl
@[simp] theorem Core.wrs_gated (c : Core) (l : List (Fld × Nat)) : (c.wrs l).gated = c.gated := rfl
@[simp] theorem Core.count_sec (c : Core) (f : Fld) (k : Nat) : (c.count f k).sec = c.sec := rfl
@[simp] theorem Core.count_secTick (c : Core) (f : Fld) (k : Nat) : (c.count f k).secTick = c.secTick := rfl
@[simp] theorem Core.count_finalClasp (c : Core) (f : Fld) (k : Nat) : (c.count f k).finalClasp = c.finalClasp := rfl
@[simp] theorem Core.count_finalDone (c : Core) (f : Fld) (k : Nat) : (c.count f k).finalDone = c.finalDone := rfl
@[simp] theorem Core.count_faulted (c : Core) (f : Fld) (k : Nat) : (c.count f k).faulted = c.faulted := rfl
@[simp] theorem Core.count_folds (c : Core) (f : Fld) (k : Nat) : (c.count f k).folds = c.folds := rfl
@[simp] theorem Core.count_secSince (c : Core) (f : Fld) (k : Nat) : (c.count f k).secSince = c.secSince := rfl
@[simp] theorem Core.count_next (c : Core) (f : Fld) (k : Nat) : (c.count f k).next = c.next := rfl
@[simp] theorem Core.count_tickSeen (c : Core) (f : Fld) (k : Nat) : (c.count f k).tickSeen = c.tickSeen := rfl
@[simp] theorem Core.count_tickTaken (c : Core) (f : Fld) (k : Nat) : (c.count f k).tickTaken = c.tickTaken := rfl
@[simp] theorem Core.count_cutDue (c : Core) (f : Fld) (k : Nat) : (c.count f k).cutDue = c.cutDue := rfl
@[simp] theorem Core.count_doneFor (c : Core) (f : Fld) (k : Nat) : (c.count f k).doneFor = c.doneFor := rfl
@[simp] theorem Core.count_doneOut (c : Core) (f : Fld) (k : Nat) : (c.count f k).doneOut = c.doneOut := rfl
@[simp] theorem Core.count_abortTaken (c : Core) (f : Fld) (k : Nat) : (c.count f k).abortTaken = c.abortTaken := rfl
@[simp] theorem Core.count_epochTimer (c : Core) (f : Fld) (k : Nat) : (c.count f k).epochTimer = c.epochTimer := rfl
@[simp] theorem Core.count_slots (c : Core) (f : Fld) (k : Nat) : (c.count f k).slots = c.slots := rfl
@[simp] theorem Core.count_early (c : Core) (f : Fld) (k : Nat) : (c.count f k).early = c.early := rfl
@[simp] theorem Core.count_threads (c : Core) (f : Fld) (k : Nat) : (c.count f k).threads = c.threads := rfl
@[simp] theorem Core.count_lastIssued (c : Core) (f : Fld) (k : Nat) : (c.count f k).lastIssued = c.lastIssued := rfl
@[simp] theorem Core.count_gen (c : Core) (f : Fld) (k : Nat) : (c.count f k).gen = c.gen := rfl
@[simp] theorem Core.count_cycleBase (c : Core) (f : Fld) (k : Nat) : (c.count f k).cycleBase = c.cycleBase := rfl
@[simp] theorem Core.count_spad (c : Core) (f : Fld) (k : Nat) : (c.count f k).spad = c.spad := rfl
@[simp] theorem Core.count_single (c : Core) (f : Fld) (k : Nat) : (c.count f k).single = c.single := rfl
@[simp] theorem Core.count_double (c : Core) (f : Fld) (k : Nat) : (c.count f k).double = c.double := rfl
@[simp] theorem Core.count_writebacks (c : Core) (f : Fld) (k : Nat) : (c.count f k).writebacks = c.writebacks := rfl
@[simp] theorem Core.count_bezels (c : Core) (f : Fld) (k : Nat) : (c.count f k).bezels = c.bezels := rfl
@[simp] theorem Core.count_shadows (c : Core) (f : Fld) (k : Nat) : (c.count f k).shadows = c.shadows := rfl
@[simp] theorem Core.count_bzOut (c : Core) (f : Fld) (k : Nat) : (c.count f k).bzOut = c.bzOut := rfl
@[simp] theorem Core.count_lane (c : Core) (f : Fld) (k : Nat) : (c.count f k).lane = c.lane := rfl
@[simp] theorem Core.count_lastDir (c : Core) (f : Fld) (k : Nat) : (c.count f k).lastDir = c.lastDir := rfl
@[simp] theorem Core.count_heldArr (c : Core) (f : Fld) (k : Nat) : (c.count f k).heldArr = c.heldArr := rfl
@[simp] theorem Core.count_eng (c : Core) (f : Fld) (k : Nat) : (c.count f k).eng = c.eng := rfl
@[simp] theorem Core.count_comp (c : Core) (f : Fld) (k : Nat) : (c.count f k).comp = c.comp := rfl
@[simp] theorem Core.count_dma (c : Core) (f : Fld) (k : Nat) : (c.count f k).dma = c.dma := rfl
@[simp] theorem Core.count_router (c : Core) (f : Fld) (k : Nat) : (c.count f k).router = c.router := rfl
@[simp] theorem Core.count_queues (c : Core) (f : Fld) (k : Nat) : (c.count f k).queues = c.queues := rfl
@[simp] theorem Core.count_routes (c : Core) (f : Fld) (k : Nat) : (c.count f k).routes = c.routes := rfl
@[simp] theorem Core.count_hold (c : Core) (f : Fld) (k : Nat) : (c.count f k).hold = c.hold := rfl
@[simp] theorem Core.count_clasps (c : Core) (f : Fld) (k : Nat) : (c.count f k).clasps = c.clasps := rfl
@[simp] theorem Core.count_claspIn (c : Core) (f : Fld) (k : Nat) : (c.count f k).claspIn = c.claspIn := rfl
@[simp] theorem Core.count_ctrlOut (c : Core) (f : Fld) (k : Nat) : (c.count f k).ctrlOut = c.ctrlOut := rfl
@[simp] theorem Core.count_balance (c : Core) (f : Fld) (k : Nat) : (c.count f k).balance = c.balance := rfl
@[simp] theorem Core.count_memWait (c : Core) (f : Fld) (k : Nat) : (c.count f k).memWait = c.memWait := rfl
@[simp] theorem Core.count_fillerDuty (c : Core) (f : Fld) (k : Nat) : (c.count f k).fillerDuty = c.fillerDuty := rfl
@[simp] theorem Core.count_dutyTaken (c : Core) (f : Fld) (k : Nat) : (c.count f k).dutyTaken = c.dutyTaken := rfl
@[simp] theorem Core.count_live (c : Core) (f : Fld) (k : Nat) : (c.count f k).live = c.live := rfl
@[simp] theorem Core.count_lost (c : Core) (f : Fld) (k : Nat) : (c.count f k).lost = c.lost := rfl
@[simp] theorem Core.count_gated (c : Core) (f : Fld) (k : Nat) : (c.count f k).gated = c.gated := rfl
@[simp] theorem Core.progress_sec (c : Core)  : (c.progress).sec = c.sec := by
  unfold Core.progress; split <;> rfl
@[simp] theorem Core.progress_secTick (c : Core)  : (c.progress).secTick = c.secTick := by
  unfold Core.progress; split <;> rfl
@[simp] theorem Core.progress_finalClasp (c : Core)  : (c.progress).finalClasp = c.finalClasp := by
  unfold Core.progress; split <;> rfl
@[simp] theorem Core.progress_finalDone (c : Core)  : (c.progress).finalDone = c.finalDone := by
  unfold Core.progress; split <;> rfl
@[simp] theorem Core.progress_faulted (c : Core)  : (c.progress).faulted = c.faulted := by
  unfold Core.progress; split <;> rfl
@[simp] theorem Core.progress_folds (c : Core)  : (c.progress).folds = c.folds := by
  unfold Core.progress; split <;> rfl
@[simp] theorem Core.progress_secSince (c : Core)  : (c.progress).secSince = c.secSince := by
  unfold Core.progress; split <;> rfl
@[simp] theorem Core.progress_next (c : Core)  : (c.progress).next = c.next := by
  unfold Core.progress; split <;> rfl
@[simp] theorem Core.progress_tickSeen (c : Core)  : (c.progress).tickSeen = c.tickSeen := by
  unfold Core.progress; split <;> rfl
@[simp] theorem Core.progress_tickTaken (c : Core)  : (c.progress).tickTaken = c.tickTaken := by
  unfold Core.progress; split <;> rfl
@[simp] theorem Core.progress_cutDue (c : Core)  : (c.progress).cutDue = c.cutDue := by
  unfold Core.progress; split <;> rfl
@[simp] theorem Core.progress_doneFor (c : Core)  : (c.progress).doneFor = c.doneFor := by
  unfold Core.progress; split <;> rfl
@[simp] theorem Core.progress_doneOut (c : Core)  : (c.progress).doneOut = c.doneOut := by
  unfold Core.progress; split <;> rfl
@[simp] theorem Core.progress_abortTaken (c : Core)  : (c.progress).abortTaken = c.abortTaken := by
  unfold Core.progress; split <;> rfl
@[simp] theorem Core.progress_epochTimer (c : Core)  : (c.progress).epochTimer = c.epochTimer := by
  unfold Core.progress; split <;> rfl
@[simp] theorem Core.progress_slots (c : Core)  : (c.progress).slots = c.slots := by
  unfold Core.progress; split <;> rfl
@[simp] theorem Core.progress_early (c : Core)  : (c.progress).early = c.early := by
  unfold Core.progress; split <;> rfl
@[simp] theorem Core.progress_threads (c : Core)  : (c.progress).threads = c.threads := by
  unfold Core.progress; split <;> rfl
@[simp] theorem Core.progress_lastIssued (c : Core)  : (c.progress).lastIssued = c.lastIssued := by
  unfold Core.progress; split <;> rfl
@[simp] theorem Core.progress_gen (c : Core)  : (c.progress).gen = c.gen := by
  unfold Core.progress; split <;> rfl
@[simp] theorem Core.progress_cycleBase (c : Core)  : (c.progress).cycleBase = c.cycleBase := by
  unfold Core.progress; split <;> rfl
@[simp] theorem Core.progress_spad (c : Core)  : (c.progress).spad = c.spad := by
  unfold Core.progress; split <;> rfl
@[simp] theorem Core.progress_single (c : Core)  : (c.progress).single = c.single := by
  unfold Core.progress; split <;> rfl
@[simp] theorem Core.progress_double (c : Core)  : (c.progress).double = c.double := by
  unfold Core.progress; split <;> rfl
@[simp] theorem Core.progress_writebacks (c : Core)  : (c.progress).writebacks = c.writebacks := by
  unfold Core.progress; split <;> rfl
@[simp] theorem Core.progress_bezels (c : Core)  : (c.progress).bezels = c.bezels := by
  unfold Core.progress; split <;> rfl
@[simp] theorem Core.progress_shadows (c : Core)  : (c.progress).shadows = c.shadows := by
  unfold Core.progress; split <;> rfl
@[simp] theorem Core.progress_bzOut (c : Core)  : (c.progress).bzOut = c.bzOut := by
  unfold Core.progress; split <;> rfl
@[simp] theorem Core.progress_lane (c : Core)  : (c.progress).lane = c.lane := by
  unfold Core.progress; split <;> rfl
@[simp] theorem Core.progress_lastDir (c : Core)  : (c.progress).lastDir = c.lastDir := by
  unfold Core.progress; split <;> rfl
@[simp] theorem Core.progress_heldArr (c : Core)  : (c.progress).heldArr = c.heldArr := by
  unfold Core.progress; split <;> rfl
@[simp] theorem Core.progress_eng (c : Core)  : (c.progress).eng = c.eng := by
  unfold Core.progress; split <;> rfl
@[simp] theorem Core.progress_comp (c : Core)  : (c.progress).comp = c.comp := by
  unfold Core.progress; split <;> rfl
@[simp] theorem Core.progress_dma (c : Core)  : (c.progress).dma = c.dma := by
  unfold Core.progress; split <;> rfl
@[simp] theorem Core.progress_router (c : Core)  : (c.progress).router = c.router := by
  unfold Core.progress; split <;> rfl
@[simp] theorem Core.progress_queues (c : Core)  : (c.progress).queues = c.queues := by
  unfold Core.progress; split <;> rfl
@[simp] theorem Core.progress_routes (c : Core)  : (c.progress).routes = c.routes := by
  unfold Core.progress; split <;> rfl
@[simp] theorem Core.progress_hold (c : Core)  : (c.progress).hold = c.hold := by
  unfold Core.progress; split <;> rfl
@[simp] theorem Core.progress_clasps (c : Core)  : (c.progress).clasps = c.clasps := by
  unfold Core.progress; split <;> rfl
@[simp] theorem Core.progress_claspIn (c : Core)  : (c.progress).claspIn = c.claspIn := by
  unfold Core.progress; split <;> rfl
@[simp] theorem Core.progress_ctrlOut (c : Core)  : (c.progress).ctrlOut = c.ctrlOut := by
  unfold Core.progress; split <;> rfl
@[simp] theorem Core.progress_balance (c : Core)  : (c.progress).balance = c.balance := by
  unfold Core.progress; split <;> rfl
@[simp] theorem Core.progress_memWait (c : Core)  : (c.progress).memWait = c.memWait := by
  unfold Core.progress; split <;> rfl
@[simp] theorem Core.progress_fillerDuty (c : Core)  : (c.progress).fillerDuty = c.fillerDuty := by
  unfold Core.progress; split <;> rfl
@[simp] theorem Core.progress_dutyTaken (c : Core)  : (c.progress).dutyTaken = c.dutyTaken := by
  unfold Core.progress; split <;> rfl
@[simp] theorem Core.progress_live (c : Core)  : (c.progress).live = c.live := by
  unfold Core.progress; split <;> rfl
@[simp] theorem Core.progress_lost (c : Core)  : (c.progress).lost = c.lost := by
  unfold Core.progress; split <;> rfl
@[simp] theorem Core.progress_gated (c : Core)  : (c.progress).gated = c.gated := by
  unfold Core.progress; split <;> rfl
@[simp] theorem Core.updThread_regs (c : Core) (t : Nat) (f : Thread → Thread) : (c.updThread t f).regs = c.regs := rfl
@[simp] theorem Core.updThread_sec (c : Core) (t : Nat) (f : Thread → Thread) : (c.updThread t f).sec = c.sec := rfl
@[simp] theorem Core.updThread_secTick (c : Core) (t : Nat) (f : Thread → Thread) : (c.updThread t f).secTick = c.secTick := rfl
@[simp] theorem Core.updThread_finalClasp (c : Core) (t : Nat) (f : Thread → Thread) : (c.updThread t f).finalClasp = c.finalClasp := rfl
@[simp] theorem Core.updThread_finalDone (c : Core) (t : Nat) (f : Thread → Thread) : (c.updThread t f).finalDone = c.finalDone := rfl
@[simp] theorem Core.updThread_faulted (c : Core) (t : Nat) (f : Thread → Thread) : (c.updThread t f).faulted = c.faulted := rfl
@[simp] theorem Core.updThread_folds (c : Core) (t : Nat) (f : Thread → Thread) : (c.updThread t f).folds = c.folds := rfl
@[simp] theorem Core.updThread_secSince (c : Core) (t : Nat) (f : Thread → Thread) : (c.updThread t f).secSince = c.secSince := rfl
@[simp] theorem Core.updThread_next (c : Core) (t : Nat) (f : Thread → Thread) : (c.updThread t f).next = c.next := rfl
@[simp] theorem Core.updThread_tickSeen (c : Core) (t : Nat) (f : Thread → Thread) : (c.updThread t f).tickSeen = c.tickSeen := rfl
@[simp] theorem Core.updThread_tickTaken (c : Core) (t : Nat) (f : Thread → Thread) : (c.updThread t f).tickTaken = c.tickTaken := rfl
@[simp] theorem Core.updThread_cutDue (c : Core) (t : Nat) (f : Thread → Thread) : (c.updThread t f).cutDue = c.cutDue := rfl
@[simp] theorem Core.updThread_doneFor (c : Core) (t : Nat) (f : Thread → Thread) : (c.updThread t f).doneFor = c.doneFor := rfl
@[simp] theorem Core.updThread_doneOut (c : Core) (t : Nat) (f : Thread → Thread) : (c.updThread t f).doneOut = c.doneOut := rfl
@[simp] theorem Core.updThread_abortTaken (c : Core) (t : Nat) (f : Thread → Thread) : (c.updThread t f).abortTaken = c.abortTaken := rfl
@[simp] theorem Core.updThread_epochTimer (c : Core) (t : Nat) (f : Thread → Thread) : (c.updThread t f).epochTimer = c.epochTimer := rfl
@[simp] theorem Core.updThread_slots (c : Core) (t : Nat) (f : Thread → Thread) : (c.updThread t f).slots = c.slots := rfl
@[simp] theorem Core.updThread_early (c : Core) (t : Nat) (f : Thread → Thread) : (c.updThread t f).early = c.early := rfl
@[simp] theorem Core.updThread_lastIssued (c : Core) (t : Nat) (f : Thread → Thread) : (c.updThread t f).lastIssued = c.lastIssued := rfl
@[simp] theorem Core.updThread_gen (c : Core) (t : Nat) (f : Thread → Thread) : (c.updThread t f).gen = c.gen := rfl
@[simp] theorem Core.updThread_cycleBase (c : Core) (t : Nat) (f : Thread → Thread) : (c.updThread t f).cycleBase = c.cycleBase := rfl
@[simp] theorem Core.updThread_spad (c : Core) (t : Nat) (f : Thread → Thread) : (c.updThread t f).spad = c.spad := rfl
@[simp] theorem Core.updThread_single (c : Core) (t : Nat) (f : Thread → Thread) : (c.updThread t f).single = c.single := rfl
@[simp] theorem Core.updThread_double (c : Core) (t : Nat) (f : Thread → Thread) : (c.updThread t f).double = c.double := rfl
@[simp] theorem Core.updThread_writebacks (c : Core) (t : Nat) (f : Thread → Thread) : (c.updThread t f).writebacks = c.writebacks := rfl
@[simp] theorem Core.updThread_bezels (c : Core) (t : Nat) (f : Thread → Thread) : (c.updThread t f).bezels = c.bezels := rfl
@[simp] theorem Core.updThread_shadows (c : Core) (t : Nat) (f : Thread → Thread) : (c.updThread t f).shadows = c.shadows := rfl
@[simp] theorem Core.updThread_bzOut (c : Core) (t : Nat) (f : Thread → Thread) : (c.updThread t f).bzOut = c.bzOut := rfl
@[simp] theorem Core.updThread_lane (c : Core) (t : Nat) (f : Thread → Thread) : (c.updThread t f).lane = c.lane := rfl
@[simp] theorem Core.updThread_lastDir (c : Core) (t : Nat) (f : Thread → Thread) : (c.updThread t f).lastDir = c.lastDir := rfl
@[simp] theorem Core.updThread_heldArr (c : Core) (t : Nat) (f : Thread → Thread) : (c.updThread t f).heldArr = c.heldArr := rfl
@[simp] theorem Core.updThread_eng (c : Core) (t : Nat) (f : Thread → Thread) : (c.updThread t f).eng = c.eng := rfl
@[simp] theorem Core.updThread_comp (c : Core) (t : Nat) (f : Thread → Thread) : (c.updThread t f).comp = c.comp := rfl
@[simp] theorem Core.updThread_dma (c : Core) (t : Nat) (f : Thread → Thread) : (c.updThread t f).dma = c.dma := rfl
@[simp] theorem Core.updThread_router (c : Core) (t : Nat) (f : Thread → Thread) : (c.updThread t f).router = c.router := rfl
@[simp] theorem Core.updThread_queues (c : Core) (t : Nat) (f : Thread → Thread) : (c.updThread t f).queues = c.queues := rfl
@[simp] theorem Core.updThread_routes (c : Core) (t : Nat) (f : Thread → Thread) : (c.updThread t f).routes = c.routes := rfl
@[simp] theorem Core.updThread_hold (c : Core) (t : Nat) (f : Thread → Thread) : (c.updThread t f).hold = c.hold := rfl
@[simp] theorem Core.updThread_clasps (c : Core) (t : Nat) (f : Thread → Thread) : (c.updThread t f).clasps = c.clasps := rfl
@[simp] theorem Core.updThread_claspIn (c : Core) (t : Nat) (f : Thread → Thread) : (c.updThread t f).claspIn = c.claspIn := rfl
@[simp] theorem Core.updThread_ctrlOut (c : Core) (t : Nat) (f : Thread → Thread) : (c.updThread t f).ctrlOut = c.ctrlOut := rfl
@[simp] theorem Core.updThread_balance (c : Core) (t : Nat) (f : Thread → Thread) : (c.updThread t f).balance = c.balance := rfl
@[simp] theorem Core.updThread_memWait (c : Core) (t : Nat) (f : Thread → Thread) : (c.updThread t f).memWait = c.memWait := rfl
@[simp] theorem Core.updThread_fillerDuty (c : Core) (t : Nat) (f : Thread → Thread) : (c.updThread t f).fillerDuty = c.fillerDuty := rfl
@[simp] theorem Core.updThread_dutyTaken (c : Core) (t : Nat) (f : Thread → Thread) : (c.updThread t f).dutyTaken = c.dutyTaken := rfl
@[simp] theorem Core.updThread_live (c : Core) (t : Nat) (f : Thread → Thread) : (c.updThread t f).live = c.live := rfl
@[simp] theorem Core.updThread_lost (c : Core) (t : Nat) (f : Thread → Thread) : (c.updThread t f).lost = c.lost := rfl
@[simp] theorem Core.updThread_gated (c : Core) (t : Nat) (f : Thread → Thread) : (c.updThread t f).gated = c.gated := rfl
@[simp] theorem Core.retire_sec (c : Core) (t : Nat) (f : Thread → Thread) : (c.retire t f).sec = c.sec := by
  unfold Core.retire Core.progress; split <;> rfl
@[simp] theorem Core.retire_secTick (c : Core) (t : Nat) (f : Thread → Thread) : (c.retire t f).secTick = c.secTick := by
  unfold Core.retire Core.progress; split <;> rfl
@[simp] theorem Core.retire_finalClasp (c : Core) (t : Nat) (f : Thread → Thread) : (c.retire t f).finalClasp = c.finalClasp := by
  unfold Core.retire Core.progress; split <;> rfl
@[simp] theorem Core.retire_finalDone (c : Core) (t : Nat) (f : Thread → Thread) : (c.retire t f).finalDone = c.finalDone := by
  unfold Core.retire Core.progress; split <;> rfl
@[simp] theorem Core.retire_faulted (c : Core) (t : Nat) (f : Thread → Thread) : (c.retire t f).faulted = c.faulted := by
  unfold Core.retire Core.progress; split <;> rfl
@[simp] theorem Core.retire_folds (c : Core) (t : Nat) (f : Thread → Thread) : (c.retire t f).folds = c.folds := by
  unfold Core.retire Core.progress; split <;> rfl
@[simp] theorem Core.retire_secSince (c : Core) (t : Nat) (f : Thread → Thread) : (c.retire t f).secSince = c.secSince := by
  unfold Core.retire Core.progress; split <;> rfl
@[simp] theorem Core.retire_next (c : Core) (t : Nat) (f : Thread → Thread) : (c.retire t f).next = c.next := by
  unfold Core.retire Core.progress; split <;> rfl
@[simp] theorem Core.retire_tickSeen (c : Core) (t : Nat) (f : Thread → Thread) : (c.retire t f).tickSeen = c.tickSeen := by
  unfold Core.retire Core.progress; split <;> rfl
@[simp] theorem Core.retire_tickTaken (c : Core) (t : Nat) (f : Thread → Thread) : (c.retire t f).tickTaken = c.tickTaken := by
  unfold Core.retire Core.progress; split <;> rfl
@[simp] theorem Core.retire_cutDue (c : Core) (t : Nat) (f : Thread → Thread) : (c.retire t f).cutDue = c.cutDue := by
  unfold Core.retire Core.progress; split <;> rfl
@[simp] theorem Core.retire_doneFor (c : Core) (t : Nat) (f : Thread → Thread) : (c.retire t f).doneFor = c.doneFor := by
  unfold Core.retire Core.progress; split <;> rfl
@[simp] theorem Core.retire_doneOut (c : Core) (t : Nat) (f : Thread → Thread) : (c.retire t f).doneOut = c.doneOut := by
  unfold Core.retire Core.progress; split <;> rfl
@[simp] theorem Core.retire_abortTaken (c : Core) (t : Nat) (f : Thread → Thread) : (c.retire t f).abortTaken = c.abortTaken := by
  unfold Core.retire Core.progress; split <;> rfl
@[simp] theorem Core.retire_epochTimer (c : Core) (t : Nat) (f : Thread → Thread) : (c.retire t f).epochTimer = c.epochTimer := by
  unfold Core.retire Core.progress; split <;> rfl
@[simp] theorem Core.retire_slots (c : Core) (t : Nat) (f : Thread → Thread) : (c.retire t f).slots = c.slots := by
  unfold Core.retire Core.progress; split <;> rfl
@[simp] theorem Core.retire_early (c : Core) (t : Nat) (f : Thread → Thread) : (c.retire t f).early = c.early := by
  unfold Core.retire Core.progress; split <;> rfl
@[simp] theorem Core.retire_lastIssued (c : Core) (t : Nat) (f : Thread → Thread) : (c.retire t f).lastIssued = c.lastIssued := by
  unfold Core.retire Core.progress; split <;> rfl
@[simp] theorem Core.retire_gen (c : Core) (t : Nat) (f : Thread → Thread) : (c.retire t f).gen = c.gen := by
  unfold Core.retire Core.progress; split <;> rfl
@[simp] theorem Core.retire_cycleBase (c : Core) (t : Nat) (f : Thread → Thread) : (c.retire t f).cycleBase = c.cycleBase := by
  unfold Core.retire Core.progress; split <;> rfl
@[simp] theorem Core.retire_spad (c : Core) (t : Nat) (f : Thread → Thread) : (c.retire t f).spad = c.spad := by
  unfold Core.retire Core.progress; split <;> rfl
@[simp] theorem Core.retire_single (c : Core) (t : Nat) (f : Thread → Thread) : (c.retire t f).single = c.single := by
  unfold Core.retire Core.progress; split <;> rfl
@[simp] theorem Core.retire_double (c : Core) (t : Nat) (f : Thread → Thread) : (c.retire t f).double = c.double := by
  unfold Core.retire Core.progress; split <;> rfl
@[simp] theorem Core.retire_writebacks (c : Core) (t : Nat) (f : Thread → Thread) : (c.retire t f).writebacks = c.writebacks := by
  unfold Core.retire Core.progress; split <;> rfl
@[simp] theorem Core.retire_bezels (c : Core) (t : Nat) (f : Thread → Thread) : (c.retire t f).bezels = c.bezels := by
  unfold Core.retire Core.progress; split <;> rfl
@[simp] theorem Core.retire_shadows (c : Core) (t : Nat) (f : Thread → Thread) : (c.retire t f).shadows = c.shadows := by
  unfold Core.retire Core.progress; split <;> rfl
@[simp] theorem Core.retire_bzOut (c : Core) (t : Nat) (f : Thread → Thread) : (c.retire t f).bzOut = c.bzOut := by
  unfold Core.retire Core.progress; split <;> rfl
@[simp] theorem Core.retire_lane (c : Core) (t : Nat) (f : Thread → Thread) : (c.retire t f).lane = c.lane := by
  unfold Core.retire Core.progress; split <;> rfl
@[simp] theorem Core.retire_lastDir (c : Core) (t : Nat) (f : Thread → Thread) : (c.retire t f).lastDir = c.lastDir := by
  unfold Core.retire Core.progress; split <;> rfl
@[simp] theorem Core.retire_heldArr (c : Core) (t : Nat) (f : Thread → Thread) : (c.retire t f).heldArr = c.heldArr := by
  unfold Core.retire Core.progress; split <;> rfl
@[simp] theorem Core.retire_eng (c : Core) (t : Nat) (f : Thread → Thread) : (c.retire t f).eng = c.eng := by
  unfold Core.retire Core.progress; split <;> rfl
@[simp] theorem Core.retire_comp (c : Core) (t : Nat) (f : Thread → Thread) : (c.retire t f).comp = c.comp := by
  unfold Core.retire Core.progress; split <;> rfl
@[simp] theorem Core.retire_dma (c : Core) (t : Nat) (f : Thread → Thread) : (c.retire t f).dma = c.dma := by
  unfold Core.retire Core.progress; split <;> rfl
@[simp] theorem Core.retire_router (c : Core) (t : Nat) (f : Thread → Thread) : (c.retire t f).router = c.router := by
  unfold Core.retire Core.progress; split <;> rfl
@[simp] theorem Core.retire_queues (c : Core) (t : Nat) (f : Thread → Thread) : (c.retire t f).queues = c.queues := by
  unfold Core.retire Core.progress; split <;> rfl
@[simp] theorem Core.retire_routes (c : Core) (t : Nat) (f : Thread → Thread) : (c.retire t f).routes = c.routes := by
  unfold Core.retire Core.progress; split <;> rfl
@[simp] theorem Core.retire_hold (c : Core) (t : Nat) (f : Thread → Thread) : (c.retire t f).hold = c.hold := by
  unfold Core.retire Core.progress; split <;> rfl
@[simp] theorem Core.retire_clasps (c : Core) (t : Nat) (f : Thread → Thread) : (c.retire t f).clasps = c.clasps := by
  unfold Core.retire Core.progress; split <;> rfl
@[simp] theorem Core.retire_claspIn (c : Core) (t : Nat) (f : Thread → Thread) : (c.retire t f).claspIn = c.claspIn := by
  unfold Core.retire Core.progress; split <;> rfl
@[simp] theorem Core.retire_ctrlOut (c : Core) (t : Nat) (f : Thread → Thread) : (c.retire t f).ctrlOut = c.ctrlOut := by
  unfold Core.retire Core.progress; split <;> rfl
@[simp] theorem Core.retire_balance (c : Core) (t : Nat) (f : Thread → Thread) : (c.retire t f).balance = c.balance := by
  unfold Core.retire Core.progress; split <;> rfl
@[simp] theorem Core.retire_memWait (c : Core) (t : Nat) (f : Thread → Thread) : (c.retire t f).memWait = c.memWait := by
  unfold Core.retire Core.progress; split <;> rfl
@[simp] theorem Core.retire_fillerDuty (c : Core) (t : Nat) (f : Thread → Thread) : (c.retire t f).fillerDuty = c.fillerDuty := by
  unfold Core.retire Core.progress; split <;> rfl
@[simp] theorem Core.retire_dutyTaken (c : Core) (t : Nat) (f : Thread → Thread) : (c.retire t f).dutyTaken = c.dutyTaken := by
  unfold Core.retire Core.progress; split <;> rfl
@[simp] theorem Core.retire_live (c : Core) (t : Nat) (f : Thread → Thread) : (c.retire t f).live = c.live := by
  unfold Core.retire Core.progress; split <;> rfl
@[simp] theorem Core.retire_lost (c : Core) (t : Nat) (f : Thread → Thread) : (c.retire t f).lost = c.lost := by
  unfold Core.retire Core.progress; split <;> rfl
@[simp] theorem Core.retire_gated (c : Core) (t : Nat) (f : Thread → Thread) : (c.retire t f).gated = c.gated := by
  unfold Core.retire Core.progress; split <;> rfl

/-! ### Updates of a region controller and of a hub -/

@[simp] theorem Region.wr_sunk (r : Region) (f : Fld) (v : Nat) : (r.wr f v).sunk = r.sunk := rfl
@[simp] theorem Region.wr_lateSeen (r : Region) (f : Fld) (v : Nat) : (r.wr f v).lateSeen = r.lateSeen := rfl
@[simp] theorem Region.wr_bzClosedSeen (r : Region) (f : Fld) (v : Nat) : (r.wr f v).bzClosedSeen = r.bzClosedSeen := rfl
@[simp] theorem Region.wr_chanClosedSeen (r : Region) (f : Fld) (v : Nat) : (r.wr f v).chanClosedSeen = r.chanClosedSeen := rfl
@[simp] theorem Region.wr_snapLeft (r : Region) (f : Fld) (v : Nat) : (r.wr f v).snapLeft = r.snapLeft := rfl
@[simp] theorem Region.wr_snapHead (r : Region) (f : Fld) (v : Nat) : (r.wr f v).snapHead = r.snapHead := rfl
@[simp] theorem Region.wr_replies (r : Region) (f : Fld) (v : Nat) : (r.wr f v).replies = r.replies := rfl
@[simp] theorem Region.wr_ctrlOut (r : Region) (f : Fld) (v : Nat) : (r.wr f v).ctrlOut = r.ctrlOut := rfl
@[simp] theorem Region.wr_memOut (r : Region) (f : Fld) (v : Nat) : (r.wr f v).memOut = r.memOut := rfl
@[simp] theorem Region.wr_ctrlGen (r : Region) (f : Fld) (v : Nat) : (r.wr f v).ctrlGen = r.ctrlGen := rfl
@[simp] theorem Region.wr_duties (r : Region) (f : Fld) (v : Nat) : (r.wr f v).duties = r.duties := rfl
@[simp] theorem Region.wr_dutySent (r : Region) (f : Fld) (v : Nat) : (r.wr f v).dutySent = r.dutySent := rfl
@[simp] theorem Region.wr_idleShare (r : Region) (f : Fld) (v : Nat) : (r.wr f v).idleShare = r.idleShare := rfl
@[simp] theorem Region.wr_tickIn (r : Region) (f : Fld) (v : Nat) : (r.wr f v).tickIn = r.tickIn := rfl
@[simp] theorem Region.wr_ticks (r : Region) (f : Fld) (v : Nat) : (r.wr f v).ticks = r.ticks := rfl
@[simp] theorem Region.wr_tickCount (r : Region) (f : Fld) (v : Nat) : (r.wr f v).tickCount = r.tickCount := rfl
@[simp] theorem Region.wr_tickNow (r : Region) (f : Fld) (v : Nat) : (r.wr f v).tickNow = r.tickNow := rfl
@[simp] theorem Region.wr_dones (r : Region) (f : Fld) (v : Nat) : (r.wr f v).dones = r.dones := rfl
@[simp] theorem Region.wr_doneOut (r : Region) (f : Fld) (v : Nat) : (r.wr f v).doneOut = r.doneOut := rfl
@[simp] theorem Region.wr_abortIn (r : Region) (f : Fld) (v : Nat) : (r.wr f v).abortIn = r.abortIn := rfl
@[simp] theorem Region.wr_abortSerial (r : Region) (f : Fld) (v : Nat) : (r.wr f v).abortSerial = r.abortSerial := rfl
@[simp] theorem Region.wr_failed (r : Region) (f : Fld) (v : Nat) : (r.wr f v).failed = r.failed := rfl
@[simp] theorem Region.wr_boost (r : Region) (f : Fld) (v : Nat) : (r.wr f v).boost = r.boost := rfl
@[simp] theorem Region.wr_boostIn (r : Region) (f : Fld) (v : Nat) : (r.wr f v).boostIn = r.boostIn := rfl
@[simp] theorem Region.wr_pw (r : Region) (f : Fld) (v : Nat) : (r.wr f v).pw = r.pw := rfl
@[simp] theorem Region.wr_live (r : Region) (f : Fld) (v : Nat) : (r.wr f v).live = r.live := rfl
@[simp] theorem Region.wr_stopWait (r : Region) (f : Fld) (v : Nat) : (r.wr f v).stopWait = r.stopWait := rfl
@[simp] theorem Region.wr_coreGen (r : Region) (f : Fld) (v : Nat) : (r.wr f v).coreGen = r.coreGen := rfl
@[simp] theorem Region.wrs_sunk (r : Region) (l : List (Fld × Nat)) : (r.wrs l).sunk = r.sunk := rfl
@[simp] theorem Region.wrs_lateSeen (r : Region) (l : List (Fld × Nat)) : (r.wrs l).lateSeen = r.lateSeen := rfl
@[simp] theorem Region.wrs_bzClosedSeen (r : Region) (l : List (Fld × Nat)) : (r.wrs l).bzClosedSeen = r.bzClosedSeen := rfl
@[simp] theorem Region.wrs_chanClosedSeen (r : Region) (l : List (Fld × Nat)) : (r.wrs l).chanClosedSeen = r.chanClosedSeen := rfl
@[simp] theorem Region.wrs_snapLeft (r : Region) (l : List (Fld × Nat)) : (r.wrs l).snapLeft = r.snapLeft := rfl
@[simp] theorem Region.wrs_snapHead (r : Region) (l : List (Fld × Nat)) : (r.wrs l).snapHead = r.snapHead := rfl
@[simp] theorem Region.wrs_replies (r : Region) (l : List (Fld × Nat)) : (r.wrs l).replies = r.replies := rfl
@[simp] theorem Region.wrs_ctrlOut (r : Region) (l : List (Fld × Nat)) : (r.wrs l).ctrlOut = r.ctrlOut := rfl
@[simp] theorem Region.wrs_memOut (r : Region) (l : List (Fld × Nat)) : (r.wrs l).memOut = r.memOut := rfl
@[simp] theorem Region.wrs_ctrlGen (r : Region) (l : List (Fld × Nat)) : (r.wrs l).ctrlGen = r.ctrlGen := rfl
@[simp] theorem Region.wrs_duties (r : Region) (l : List (Fld × Nat)) : (r.wrs l).duties = r.duties := rfl
@[simp] theorem Region.wrs_dutySent (r : Region) (l : List (Fld × Nat)) : (r.wrs l).dutySent = r.dutySent := rfl
@[simp] theorem Region.wrs_idleShare (r : Region) (l : List (Fld × Nat)) : (r.wrs l).idleShare = r.idleShare := rfl
@[simp] theorem Region.wrs_tickIn (r : Region) (l : List (Fld × Nat)) : (r.wrs l).tickIn = r.tickIn := rfl
@[simp] theorem Region.wrs_ticks (r : Region) (l : List (Fld × Nat)) : (r.wrs l).ticks = r.ticks := rfl
@[simp] theorem Region.wrs_tickCount (r : Region) (l : List (Fld × Nat)) : (r.wrs l).tickCount = r.tickCount := rfl
@[simp] theorem Region.wrs_tickNow (r : Region) (l : List (Fld × Nat)) : (r.wrs l).tickNow = r.tickNow := rfl
@[simp] theorem Region.wrs_dones (r : Region) (l : List (Fld × Nat)) : (r.wrs l).dones = r.dones := rfl
@[simp] theorem Region.wrs_doneOut (r : Region) (l : List (Fld × Nat)) : (r.wrs l).doneOut = r.doneOut := rfl
@[simp] theorem Region.wrs_abortIn (r : Region) (l : List (Fld × Nat)) : (r.wrs l).abortIn = r.abortIn := rfl
@[simp] theorem Region.wrs_abortSerial (r : Region) (l : List (Fld × Nat)) : (r.wrs l).abortSerial = r.abortSerial := rfl
@[simp] theorem Region.wrs_failed (r : Region) (l : List (Fld × Nat)) : (r.wrs l).failed = r.failed := rfl
@[simp] theorem Region.wrs_boost (r : Region) (l : List (Fld × Nat)) : (r.wrs l).boost = r.boost := rfl
@[simp] theorem Region.wrs_boostIn (r : Region) (l : List (Fld × Nat)) : (r.wrs l).boostIn = r.boostIn := rfl
@[simp] theorem Region.wrs_pw (r : Region) (l : List (Fld × Nat)) : (r.wrs l).pw = r.pw := rfl
@[simp] theorem Region.wrs_live (r : Region) (l : List (Fld × Nat)) : (r.wrs l).live = r.live := rfl
@[simp] theorem Region.wrs_stopWait (r : Region) (l : List (Fld × Nat)) : (r.wrs l).stopWait = r.stopWait := rfl
@[simp] theorem Region.wrs_coreGen (r : Region) (l : List (Fld × Nat)) : (r.wrs l).coreGen = r.coreGen := rfl
@[simp] theorem Hub.wr_edgeIn (h : Hub) (f : Fld) (v : Nat) : (h.wr f v).edgeIn = h.edgeIn := rfl
@[simp] theorem Hub.wr_edgeOut (h : Hub) (f : Fld) (v : Nat) : (h.wr f v).edgeOut = h.edgeOut := rfl
@[simp] theorem Hub.wr_links (h : Hub) (f : Fld) (v : Nat) : (h.wr f v).links = h.links := rfl
@[simp] theorem Hub.wr_cache (h : Hub) (f : Fld) (v : Nat) : (h.wr f v).cache = h.cache := rfl
@[simp] theorem Hub.wr_walks (h : Hub) (f : Fld) (v : Nat) : (h.wr f v).walks = h.walks := rfl
@[simp] theorem Hub.wr_ready (h : Hub) (f : Fld) (v : Nat) : (h.wr f v).ready = h.ready := rfl
@[simp] theorem Hub.wr_held (h : Hub) (f : Fld) (v : Nat) : (h.wr f v).held = h.held := rfl
@[simp] theorem Hub.wr_walkCache (h : Hub) (f : Fld) (v : Nat) : (h.wr f v).walkCache = h.walkCache := rfl
@[simp] theorem Hub.wr_tx (h : Hub) (f : Fld) (v : Nat) : (h.wr f v).tx = h.tx := rfl
@[simp] theorem Hub.wr_rx (h : Hub) (f : Fld) (v : Nat) : (h.wr f v).rx = h.rx := rfl
@[simp] theorem Hub.wr_msgs (h : Hub) (f : Fld) (v : Nat) : (h.wr f v).msgs = h.msgs := rfl
@[simp] theorem Hub.wr_mgmtWait (h : Hub) (f : Fld) (v : Nat) : (h.wr f v).mgmtWait = h.mgmtWait := rfl
@[simp] theorem Hub.wr_txWait (h : Hub) (f : Fld) (v : Nat) : (h.wr f v).txWait = h.txWait := rfl
@[simp] theorem Hub.wr_peerGen (h : Hub) (f : Fld) (v : Nat) : (h.wr f v).peerGen = h.peerGen := rfl
@[simp] theorem Hub.wr_scrub (h : Hub) (f : Fld) (v : Nat) : (h.wr f v).scrub = h.scrub := rfl
@[simp] theorem Hub.wr_training (h : Hub) (f : Fld) (v : Nat) : (h.wr f v).training = h.training := rfl
@[simp] theorem Hub.wrs_edgeIn (h : Hub) (l : List (Fld × Nat)) : (h.wrs l).edgeIn = h.edgeIn := rfl
@[simp] theorem Hub.wrs_edgeOut (h : Hub) (l : List (Fld × Nat)) : (h.wrs l).edgeOut = h.edgeOut := rfl
@[simp] theorem Hub.wrs_links (h : Hub) (l : List (Fld × Nat)) : (h.wrs l).links = h.links := rfl
@[simp] theorem Hub.wrs_cache (h : Hub) (l : List (Fld × Nat)) : (h.wrs l).cache = h.cache := rfl
@[simp] theorem Hub.wrs_walks (h : Hub) (l : List (Fld × Nat)) : (h.wrs l).walks = h.walks := rfl
@[simp] theorem Hub.wrs_ready (h : Hub) (l : List (Fld × Nat)) : (h.wrs l).ready = h.ready := rfl
@[simp] theorem Hub.wrs_held (h : Hub) (l : List (Fld × Nat)) : (h.wrs l).held = h.held := rfl
@[simp] theorem Hub.wrs_walkCache (h : Hub) (l : List (Fld × Nat)) : (h.wrs l).walkCache = h.walkCache := rfl
@[simp] theorem Hub.wrs_tx (h : Hub) (l : List (Fld × Nat)) : (h.wrs l).tx = h.tx := rfl
@[simp] theorem Hub.wrs_rx (h : Hub) (l : List (Fld × Nat)) : (h.wrs l).rx = h.rx := rfl
@[simp] theorem Hub.wrs_msgs (h : Hub) (l : List (Fld × Nat)) : (h.wrs l).msgs = h.msgs := rfl
@[simp] theorem Hub.wrs_mgmtWait (h : Hub) (l : List (Fld × Nat)) : (h.wrs l).mgmtWait = h.mgmtWait := rfl
@[simp] theorem Hub.wrs_txWait (h : Hub) (l : List (Fld × Nat)) : (h.wrs l).txWait = h.txWait := rfl
@[simp] theorem Hub.wrs_peerGen (h : Hub) (l : List (Fld × Nat)) : (h.wrs l).peerGen = h.peerGen := rfl
@[simp] theorem Hub.wrs_scrub (h : Hub) (l : List (Fld × Nat)) : (h.wrs l).scrub = h.scrub := rfl
@[simp] theorem Hub.wrs_training (h : Hub) (l : List (Fld × Nat)) : (h.wrs l).training = h.training := rfl

/-! ### What a unit reads after an update -/

@[simp] theorem State.core_setCore (s : State) (n : Nat) (c : Core) : (s.setCore n c).core n = c := by
  simp [State.core, State.setCore]

theorem State.core_setCore_ne (s : State) {n m : Nat} (c : Core) (h : m ≠ n) : (s.setCore n c).core m = s.core m := by
  show Sparse.get (s.resting m) (Sparse.put s.cores n c) m = _
  rw [Sparse.get_put_ne _ _ _ h]; rfl

@[simp] theorem State.core_updCore (s : State) (n : Nat) (f : Core → Core) : (s.updCore n f).core n = f (s.core n) := by
  simp [State.updCore]

theorem State.core_updCore_ne (s : State) {n m : Nat} (f : Core → Core) (h : m ≠ n) :
    (s.updCore n f).core m = s.core m := State.core_setCore_ne s _ h

@[simp] theorem State.core_updHub (s : State) (n h : Nat) (f : Hub → Hub) : (s.updHub h f).core n = s.core n := rfl
@[simp] theorem State.core_updMd (s : State) (n : Nat) (f : Module → Module) : (s.updMd f).core n = s.core n := rfl
@[simp] theorem State.core_emit (s : State) (n : Nat) (o : Output) : (s.emit o).core n = s.core n := rfl
/-- A region's update that keeps what unlisted cores take from it leaves every core alone. -/
theorem State.core_updRegion (s : State) (n r : Nat) (f : Region → Region) (h1 : (f (s.region r)).coreGen = (s.region r).coreGen)
    (h2 : (f (s.region r)).idleShare = (s.region r).idleShare) (h3 : (f (s.region r)).abortSerial = (s.region r).abortSerial) :
    (s.updRegion r f).core n = s.core n := by
  have key {α : Type} (g : Region → α) (h : g (f (s.region r)) = g (s.region r)) (q : Nat) :
      g (Sparse.get .reset (s.updRegion r f).regions q) = g (Sparse.get .reset s.regions q) := by
    by_cases hq : q = r
    · subst hq
      show g (Sparse.get .reset (Sparse.put s.regions q (f (s.region q))) q) = _
      rw [Sparse.get_put_self]; exact h
    · show g (Sparse.get .reset (Sparse.put s.regions r (f (s.region r))) q) = _
      rw [Sparse.get_put_ne _ _ _ hq]
  have hg := key Region.coreGen h1
  have hs : (s.updRegion r f).restShadows n = s.restShadows n := by
    unfold State.restShadows State.restGen; simp only [hg]
  have hr : (s.updRegion r f).resting n = s.resting n := by
    unfold State.resting; simp only [hg, key Region.idleShare h2, key Region.abortSerial h3, hs]
  show Sparse.get ((s.updRegion r f).resting n) s.cores n = _
  rw [hr]; rfl

@[simp] theorem State.core_sendAbort (s : State) (n : Nat) (a : AbortMsg) : (s.sendAbort a).core n = s.core n := by
  unfold State.sendAbort
  split
  · exact State.core_updRegion s n _ _ rfl rfl rfl
  · rfl

@[simp] theorem State.region_setCore (s : State) (r n : Nat) (c : Core) : (s.setCore n c).region r = s.region r := rfl
@[simp] theorem State.region_updCore (s : State) (r n : Nat) (f : Core → Core) : (s.updCore n f).region r = s.region r := rfl
@[simp] theorem State.region_updHub (s : State) (r h : Nat) (f : Hub → Hub) : (s.updHub h f).region r = s.region r := rfl
@[simp] theorem State.region_updMd (s : State) (r : Nat) (f : Module → Module) : (s.updMd f).region r = s.region r := rfl
@[simp] theorem State.hub_updCore (s : State) (h n : Nat) (f : Core → Core) : (s.updCore n f).hub h = s.hub h := rfl
@[simp] theorem State.hub_setCore (s : State) (h n : Nat) (c : Core) : (s.setCore n c).hub h = s.hub h := rfl
@[simp] theorem State.hub_updMd (s : State) (h : Nat) (f : Module → Module) : (s.updMd f).hub h = s.hub h := rfl
@[simp] theorem State.hub_updRegion (s : State) (h r : Nat) (f : Region → Region) : (s.updRegion r f).hub h = s.hub h := rfl

@[simp] theorem State.region_updRegion (s : State) (r : Nat) (f : Region → Region) :
    (s.updRegion r f).region r = f (s.region r) := by simp [State.updRegion, State.region]

theorem State.region_updRegion_ne (s : State) {r q : Nat} (f : Region → Region) (h : q ≠ r) :
    (s.updRegion r f).region q = s.region q := by simp [State.updRegion, State.region, Sparse.get_put_ne _ _ _ h]

@[simp] theorem State.hub_updHub (s : State) (h : Nat) (f : Hub → Hub) : (s.updHub h f).hub h = f (s.hub h) := by
  simp [State.updHub, State.hub]

theorem State.hub_updHub_ne (s : State) {h k : Nat} (f : Hub → Hub) (hk : k ≠ h) : (s.updHub h f).hub k = s.hub k := by
  simp [State.updHub, State.hub, Sparse.get_put_ne _ _ _ hk]

@[simp] theorem State.md_updMd (s : State) (f : Module → Module) : (s.updMd f).md = f s.md := rfl

@[simp] theorem Core.thread_updThread (c : Core) (t : Nat) (f : Thread → Thread) : (c.updThread t f).thread t = f (c.thread t) := by
  simp [Core.thread, Core.updThread]

theorem Core.thread_updThread_ne (c : Core) {t u : Nat} (f : Thread → Thread) (h : u ≠ t) :
    (c.updThread t f).thread u = c.thread u := by simp [Core.thread, Core.updThread, Sparse.get_put_ne _ _ _ h]

@[simp] theorem Core.thread_wr (c : Core) (t : Nat) (f : Fld) (v : Nat) : (c.wr f v).thread t = c.thread t := rfl
@[simp] theorem Core.thread_count (c : Core) (t : Nat) (f : Fld) (k : Nat) : (c.count f k).thread t = c.thread t := rfl
@[simp] theorem Core.thread_progress (c : Core) (t : Nat) : c.progress.thread t = c.thread t := by
  unfold Core.progress; split <;> rfl
@[simp] theorem Core.rd_wr (c : Core) (f : Fld) (v : Nat) : (c.wr f v).rd f = v % 2 ^ f.w := Regs.rd_wr_self ..
@[simp] theorem Region.rd_wr (g : Region) (f : Fld) (v : Nat) : (g.wr f v).rd f = v % 2 ^ f.w := Regs.rd_wr_self ..
@[simp] theorem Hub.rd_wr (u : Hub) (f : Fld) (v : Nat) : (u.wr f v).rd f = v % 2 ^ f.w := Regs.rd_wr_self ..
@[simp] theorem State.rd_wr (s : State) (f : Fld) (v : Nat) : (s.wr f v).rd f = v % 2 ^ f.w := Regs.rd_wr_self ..
theorem Core.rd_wr_ne (c : Core) {f g : Fld} (v : Nat) (h : g.key ≠ f.key) : (c.wr f v).rd g = c.rd g := Regs.rd_wr_ne _ v h
/-- Progress leaves every register but the watchdog's count alone (R82). -/
theorem Core.rd_progress_ne (c : Core) {g : Fld} (h : g.key ≠ CR.WDOG_COUNT.key) : c.progress.rd g = c.rd g := by
  unfold Core.progress
  split
  · rfl
  · exact Core.rd_wr_ne c 0 h
theorem Region.rd_wr_ne (r : Region) {f g : Fld} (v : Nat) (h : g.key ≠ f.key) : (r.wr f v).rd g = r.rd g := Regs.rd_wr_ne _ v h
theorem Hub.rd_wr_ne (u : Hub) {f g : Fld} (v : Nat) (h : g.key ≠ f.key) : (u.wr f v).rd g = u.rd g := Regs.rd_wr_ne _ v h
theorem State.rd_wr_ne (s : State) {f g : Fld} (v : Nat) (h : g.key ≠ f.key) : (s.wr f v).rd g = s.rd g := Regs.rd_wr_ne _ v h

/-! ### Registers of a thread -/

/-- A g register read after a write; g0 reads 0. -/
theorem Thread.rg_wg (th : Thread) (i j : BitVec 5) (v : Word) :
    (th.wg i v).rg j = if j = 0 then 0 else if j = i then v else th.rg j := by
  unfold Thread.wg Thread.rg
  by_cases hj : j = 0
  · rw [if_pos hj, if_pos hj]
  · rw [if_neg hj, if_neg hj, if_neg hj]
    by_cases hi : i = 0
    · rw [if_pos hi, if_neg fun h => hj (h.trans hi)]
    · rw [if_neg hi]
      by_cases hji : j = i
      · subst hji; simp
      · rw [if_neg hji, Sparse.get_set_ne _ _ _ _ fun h => hji (BitVec.eq_of_toNat_eq h)]

/-- A p register read after a write; p0 reads 0xFFFF. -/
theorem Thread.rp_wp (th : Thread) (i j : BitVec 3) (v : BitVec 16) :
    (th.wp i v).rp j = if j = 0 then 0xFFFF else if j = i then v else th.rp j := by
  unfold Thread.wp Thread.rp
  by_cases hj : j = 0
  · rw [if_pos hj, if_pos hj]
  · rw [if_neg hj, if_neg hj, if_neg hj]
    by_cases hi : i = 0
    · rw [if_pos hi, if_neg fun h => hj (h.trans hi)]
    · rw [if_neg hi]
      by_cases hji : j = i
      · subst hji; simp
      · rw [if_neg hji, Sparse.get_set_ne _ _ _ _ fun h => hji (BitVec.eq_of_toNat_eq h)]

/-- A v register read after a write. -/
theorem Thread.rv_wv (th : Thread) (i j : BitVec 4) (v : Row) : (th.wv i v).rv j = if j = i then v else th.rv j := by
  unfold Thread.wv Thread.rv
  by_cases hji : j = i
  · subst hji; simp
  · rw [if_neg hji, Sparse.get_set_ne _ _ _ _ fun h => hji (BitVec.eq_of_toNat_eq h)]

@[simp] theorem Thread.wg_v (th : Thread) (i : BitVec 5) (v : Word) : (th.wg i v).v = th.v := by
  unfold Thread.wg; split <;> rfl
@[simp] theorem Thread.wg_p (th : Thread) (i : BitVec 5) (v : Word) : (th.wg i v).p = th.p := by
  unfold Thread.wg; split <;> rfl
@[simp] theorem Thread.wg_pc (th : Thread) (i : BitVec 5) (v : Word) : (th.wg i v).pc = th.pc := by
  unfold Thread.wg; split <;> rfl
@[simp] theorem Thread.wg_ec (th : Thread) (i : BitVec 5) (v : Word) : (th.wg i v).ec = th.ec := by
  unfold Thread.wg; split <;> rfl
@[simp] theorem Thread.wg_status (th : Thread) (i : BitVec 5) (v : Word) : (th.wg i v).status = th.status := by
  unfold Thread.wg; split <;> rfl
@[simp] theorem Thread.wg_sig (th : Thread) (i : BitVec 5) (v : Word) : (th.wg i v).sig = th.sig := by
  unfold Thread.wg; split <;> rfl
@[simp] theorem Thread.wg_fetchAddr (th : Thread) (i : BitVec 5) (v : Word) : (th.wg i v).fetchAddr = th.fetchAddr := by
  unfold Thread.wg; split <;> rfl
@[simp] theorem Thread.wg_fetchBuf (th : Thread) (i : BitVec 5) (v : Word) : (th.wg i v).fetchBuf = th.fetchBuf := by
  unfold Thread.wg; split <;> rfl
@[simp] theorem Thread.wg_wait (th : Thread) (i : BitVec 5) (v : Word) : (th.wg i v).wait = th.wait := by
  unfold Thread.wg; split <;> rfl
@[simp] theorem Thread.wg_farLoad (th : Thread) (i : BitVec 5) (v : Word) : (th.wg i v).farLoad = th.farLoad := by
  unfold Thread.wg; split <;> rfl
@[simp] theorem Thread.wg_farStores (th : Thread) (i : BitVec 5) (v : Word) : (th.wg i v).farStores = th.farStores := by
  unfold Thread.wg; split <;> rfl
@[simp] theorem Thread.wg_farHeld (th : Thread) (i : BitVec 5) (v : Word) : (th.wg i v).farHeld = th.farHeld := by
  unfold Thread.wg; split <;> rfl
@[simp] theorem Thread.wg_tags (th : Thread) (i : BitVec 5) (v : Word) : (th.wg i v).tags = th.tags := by
  unfold Thread.wg; split <;> rfl
@[simp] theorem Thread.wg_atBreak (th : Thread) (i : BitVec 5) (v : Word) : (th.wg i v).atBreak = th.atBreak := by
  unfold Thread.wg; split <;> rfl
@[simp] theorem Thread.wp_g (th : Thread) (i : BitVec 3) (v : BitVec 16) : (th.wp i v).g = th.g := by
  unfold Thread.wp; split <;> rfl
@[simp] theorem Thread.wp_v (th : Thread) (i : BitVec 3) (v : BitVec 16) : (th.wp i v).v = th.v := by
  unfold Thread.wp; split <;> rfl
@[simp] theorem Thread.wp_pc (th : Thread) (i : BitVec 3) (v : BitVec 16) : (th.wp i v).pc = th.pc := by
  unfold Thread.wp; split <;> rfl
@[simp] theorem Thread.wp_ec (th : Thread) (i : BitVec 3) (v : BitVec 16) : (th.wp i v).ec = th.ec := by
  unfold Thread.wp; split <;> rfl
@[simp] theorem Thread.wp_status (th : Thread) (i : BitVec 3) (v : BitVec 16) : (th.wp i v).status = th.status := by
  unfold Thread.wp; split <;> rfl
@[simp] theorem Thread.wp_sig (th : Thread) (i : BitVec 3) (v : BitVec 16) : (th.wp i v).sig = th.sig := by
  unfold Thread.wp; split <;> rfl
@[simp] theorem Thread.wp_fetchAddr (th : Thread) (i : BitVec 3) (v : BitVec 16) : (th.wp i v).fetchAddr = th.fetchAddr := by
  unfold Thread.wp; split <;> rfl
@[simp] theorem Thread.wp_fetchBuf (th : Thread) (i : BitVec 3) (v : BitVec 16) : (th.wp i v).fetchBuf = th.fetchBuf := by
  unfold Thread.wp; split <;> rfl
@[simp] theorem Thread.wp_wait (th : Thread) (i : BitVec 3) (v : BitVec 16) : (th.wp i v).wait = th.wait := by
  unfold Thread.wp; split <;> rfl
@[simp] theorem Thread.wp_farLoad (th : Thread) (i : BitVec 3) (v : BitVec 16) : (th.wp i v).farLoad = th.farLoad := by
  unfold Thread.wp; split <;> rfl
@[simp] theorem Thread.wp_farStores (th : Thread) (i : BitVec 3) (v : BitVec 16) : (th.wp i v).farStores = th.farStores := by
  unfold Thread.wp; split <;> rfl
@[simp] theorem Thread.wp_farHeld (th : Thread) (i : BitVec 3) (v : BitVec 16) : (th.wp i v).farHeld = th.farHeld := by
  unfold Thread.wp; split <;> rfl
@[simp] theorem Thread.wp_tags (th : Thread) (i : BitVec 3) (v : BitVec 16) : (th.wp i v).tags = th.tags := by
  unfold Thread.wp; split <;> rfl
@[simp] theorem Thread.wp_atBreak (th : Thread) (i : BitVec 3) (v : BitVec 16) : (th.wp i v).atBreak = th.atBreak := by
  unfold Thread.wp; split <;> rfl
@[simp] theorem Thread.wv_g (th : Thread) (i : BitVec 4) (v : Row) : (th.wv i v).g = th.g := rfl
@[simp] theorem Thread.wv_p (th : Thread) (i : BitVec 4) (v : Row) : (th.wv i v).p = th.p := rfl
@[simp] theorem Thread.wv_pc (th : Thread) (i : BitVec 4) (v : Row) : (th.wv i v).pc = th.pc := rfl
@[simp] theorem Thread.wv_ec (th : Thread) (i : BitVec 4) (v : Row) : (th.wv i v).ec = th.ec := rfl
@[simp] theorem Thread.wv_status (th : Thread) (i : BitVec 4) (v : Row) : (th.wv i v).status = th.status := rfl
@[simp] theorem Thread.wv_sig (th : Thread) (i : BitVec 4) (v : Row) : (th.wv i v).sig = th.sig := rfl
@[simp] theorem Thread.wv_fetchAddr (th : Thread) (i : BitVec 4) (v : Row) : (th.wv i v).fetchAddr = th.fetchAddr := rfl
@[simp] theorem Thread.wv_fetchBuf (th : Thread) (i : BitVec 4) (v : Row) : (th.wv i v).fetchBuf = th.fetchBuf := rfl
@[simp] theorem Thread.wv_wait (th : Thread) (i : BitVec 4) (v : Row) : (th.wv i v).wait = th.wait := rfl
@[simp] theorem Thread.wv_farLoad (th : Thread) (i : BitVec 4) (v : Row) : (th.wv i v).farLoad = th.farLoad := rfl
@[simp] theorem Thread.wv_farStores (th : Thread) (i : BitVec 4) (v : Row) : (th.wv i v).farStores = th.farStores := rfl
@[simp] theorem Thread.wv_farHeld (th : Thread) (i : BitVec 4) (v : Row) : (th.wv i v).farHeld = th.farHeld := rfl
@[simp] theorem Thread.wv_tags (th : Thread) (i : BitVec 4) (v : Row) : (th.wv i v).tags = th.tags := rfl
@[simp] theorem Thread.wv_atBreak (th : Thread) (i : BitVec 4) (v : Row) : (th.wv i v).atBreak = th.atBreak := rfl

/-- An instruction that completes: its thread is READY at the next instruction unless `f` moved it (R68, R70). -/
@[simp] theorem Core.thread_retire (c : Core) (t : Nat) (f : Thread → Thread) :
    (c.retire t f).thread t = f { c.thread t with status := .ready, wait := .none, pc := (c.thread t).pc + 4 } := by
  simp [Core.retire]

theorem Core.thread_retire_ne (c : Core) {t u : Nat} (f : Thread → Thread) (h : u ≠ t) :
    (c.retire t f).thread u = c.thread u := by simp [Core.retire, Core.thread_updThread_ne c _ h]

@[simp] theorem State.core_retire (s : State) (n t : Nat) (f : Thread → Thread) :
    (s.retire n t f).core n = (s.core n).retire t f := by simp [State.retire]

theorem State.core_retire_ne (s : State) {n m : Nat} (t : Nat) (f : Thread → Thread) (h : m ≠ n) :
    (s.retire n t f).core m = s.core m := State.core_updCore_ne s _ h

/-- The issue of an instruction by a thread that can issue and whose fetch succeeds. -/
theorem issue_ready {n insn : Nat} {t : BitVec 3} {body : State → State} {s s1 : State}
    (h : ((s.core n).thread t.toNat).canIssue = true) (hf : s.fetch n t.toNat = (s1, true)) :
    issue n t insn body s = body (s1.updCore n fun c => { c with lastIssued := t.toNat }) := by
  simp [issue, h, hf]

end Sys2Proof.Machine
end

