-- ==== Sys2Proof/Laws/Issue.lean ====
section
/-!
SUPPORT. What the shared operations of an issue can do: a fetch, an instruction that completes, a guard that is false.
-/
namespace Sys2Proof.Machine

/-! ### Counters -/

theorem Regs.rd_count_ne (r : Regs) {f g : Fld} (k : Nat) (h : g.key ≠ f.key) : (r.count f k).rd g = r.rd g :=
  Regs.rd_wr_ne _ _ h

theorem Regs.rd_countSat_ne (r : Regs) {f flag g : Fld} (k : Nat) (h : g.key ≠ f.key) (h2 : g.key ≠ flag.key) :
    (r.countSat f flag k).rd g = r.rd g := by
  show (if (r.count f k).rd f = 2 ^ f.w - 1 then (r.count f k).wr flag 1 else r.count f k).rd g = r.rd g
  split
  · rw [Regs.rd_wr_ne _ _ h2, Regs.rd_count_ne _ _ h]
  · exact Regs.rd_count_ne _ _ h

/-- A counter with its flag changes no register but those two. -/
theorem Core.countSat_eq (c : Core) (f flag : Fld) (k : Nat) : ∃ r, c.countSat f flag k = { c with regs := r } ∧
    ∀ g : Fld, g.key ≠ f.key → g.key ≠ flag.key → r.rd g = c.regs.rd g := by
  unfold Core.countSat
  split
  · exact ⟨c.regs, rfl, fun _ _ _ => rfl⟩
  · exact ⟨_, rfl, fun g h h2 => Regs.rd_countSat_ne _ _ h h2⟩

/-! ### The fetch -/

/-- What a successful read of the scratchpad leaves: registers that count corrections, and words due for write-back. -/
theorem Core.readSpad_ok {c c' : Core} {a len : Nat} {bs : List Byte} (h : c.readSpad a len = (.ok bs, c')) :
    bs = c.peek a len ∧ (∃ r w, c' = { c with regs := r, writebacks := w } ∧
      ∀ g : Fld, g.key ≠ CR.CE_COUNT.key → g.key ≠ CR.CE_SAT.key → r.rd g = c.regs.rd g) := by
  unfold Core.readSpad at h
  obtain ⟨r, hr, hk⟩ := Core.countSat_eq c CR.CE_COUNT CR.CE_SAT ((wordsOf a len).filter fun w => c.single.contains w).length
  simp only [hr] at h
  split at h
  · cases h
  · obtain ⟨h1, rfl⟩ := Prod.mk.inj h
    refine ⟨?_, r, _, rfl, hk⟩
    simpa [Core.peek] using h1.symm

/-- A read of the scratchpad succeeds where no word of it is uncorrectable. -/
theorem Core.readSpad_clean {c : Core} {a len : Nat} (h : c.cleanAt a len = true) :
    (c.readSpad a len).1 = .ok (c.peek a len) := by
  unfold Core.readSpad
  obtain ⟨r, hr, -⟩ := Core.countSat_eq c CR.CE_COUNT CR.CE_SAT ((wordsOf a len).filter fun w => c.single.contains w).length
  have hn : (wordsOf a len).find? (fun w => c.double.contains w) = none := by
    rw [List.find?_eq_none]
    intro w hw
    simpa using List.all_eq_true.1 h w hw
  simp only [hr, hn, Core.peek]

/-- What a successful fetch changes: the thread's buffer, the registers that count corrections, words due for write-back. -/
def State.fetchedTo (s s1 : State) (n t : Nat) : Prop :=
  s.keepsOutside s1 n ∧ (s1.core n).restored (s.core n) = s.core n ∧
  (∀ u, u ≠ t → (s1.core n).thread u = (s.core n).thread u) ∧
  (∃ a b, (s1.core n).thread t = { (s.core n).thread t with fetchAddr := a, fetchBuf := b }) ∧
  (s.core n).keepsRegs (s1.core n) [CR.CE_COUNT, CR.CE_SAT]

/-- A fetch that succeeds fills the thread's buffer, counts what it corrected, and does nothing else (R74, R99). -/
theorem State.fetch_ok {s s1 : State} {n t : Nat} (h : s.fetch n t = (s1, true)) : s.fetchedTo s1 n t := by
  unfold State.fetch at h
  simp only at h
  split at h
  · obtain ⟨rfl, -⟩ := Prod.mk.inj h
    exact ⟨⟨rfl, fun _ _ => rfl⟩, rfl, fun _ _ => rfl, ⟨_, _, rfl⟩, fun _ _ => rfl⟩
  · split at h
    · cases h
    · split at h
      · cases h
      · next bs c' hr =>
        obtain ⟨rfl, -⟩ := Prod.mk.inj h
        obtain ⟨-, r, w, rfl, hk⟩ := Core.readSpad_ok hr
        refine ⟨⟨rfl, fun m hm => State.core_setCore_ne s _ hm⟩, ?_, fun u hu => ?_, ?_, ?_⟩
        · rw [State.core_setCore]; rfl
        · rw [State.core_setCore, Core.thread_updThread_ne _ _ hu]; rfl
        · rw [State.core_setCore, Core.thread_updThread]; exact ⟨_, _, rfl⟩
        · intro g hg
          rw [State.core_setCore]
          exact hk g (hg _ (by simp)) (hg _ (by simp))

/-- The issue of an instruction that can run: the body runs on the fetched state with the thread noted as the last to issue. -/
theorem issue_canRun {s : State} {n : Nat} {t : BitVec 3} (h : s.canRun n t = true) :
    ∃ s1, s.fetchedTo s1 n t.toNat ∧
      ∀ insn body, issue n t insn body s = body (s1.updCore n fun c => { c with lastIssued := t.toNat }) := by
  obtain ⟨h1, h2⟩ := Bool.and_eq_true_iff.1 h
  have hf : s.fetch n t.toNat = ((s.fetch n t.toNat).1, true) := Prod.ext rfl h2
  exact ⟨_, State.fetch_ok hf, fun _ _ => issue_ready h1 hf⟩

/-- A thread READY at its next instruction, with a fetch buffer. -/
def Thread.goneOn (th : Thread) (a : Option Nat) (b : DWord) : Thread :=
  { th with fetchAddr := a, fetchBuf := b, status := .ready, wait := .none, pc := th.pc + 4 }

/-- The frame of an issue, after whatever its body does to the thread and to the registers. -/
theorem State.fetchedTo.retire {s s1 : State} {n : Nat} {t : BitVec 3} (h : s.fetchedTo s1 n t.toNat) (f : Thread → Thread) :
    let s' := (s1.updCore n fun c => { c with lastIssued := t.toNat }).retire n t.toNat f
    s.onlyThread s' n t ∧ ∃ a b, s'.thr n t = f ((s.thr n t).goneOn a b) := by
  obtain ⟨⟨h1, h2⟩, h3, h4, ⟨a, b, h5⟩, h6⟩ := h
  refine ⟨⟨⟨?_, fun m hm => ?_⟩, ?_, fun u hu => ?_, fun g hg => ?_⟩, a, b, ?_⟩
  · exact h1
  · rw [State.core_retire_ne _ _ _ hm, State.core_updCore_ne _ _ hm, h2 m hm]
  · rw [State.core_retire, State.core_updCore]
    refine Eq.trans ?_ h3
    simp [Core.restored]
  · rw [State.core_retire, State.core_updCore, Core.thread_retire_ne _ _ hu]; exact h4 u hu
  · rw [State.core_retire, State.core_updCore]
    refine (Core.rd_progress_ne _ (hg _ (by simp [issueRegs]))).trans ?_
    exact h6 g fun x hx => hg x (List.mem_cons_of_mem _ hx)
  · show ((State.core _ n).thread _) = _
    rw [State.core_retire, State.core_updCore, Core.thread_retire]
    show f _ = f _
    have : ({ s1.core n with lastIssued := t.toNat } : Core).thread t.toNat = (s1.core n).thread t.toNat := rfl
    rw [this, h5]; rfl

/-- A G-form instruction whose effect lies in its thread, with its guard true. -/
theorem issueGT_ran {s : State} {n : Nat} {t pg : BitVec 3} (h : s.canRunIf n t pg = true) (insn : Nat) (f : Thread → Thread) :
    s.onlyThread (issueGT n t pg insn f s) n t ∧ ∃ a b, (issueGT n t pg insn f s).thr n t =
      f ((s.thr n t).goneOn a b) := by
  obtain ⟨h1, h2⟩ := Bool.and_eq_true_iff.1 h
  obtain ⟨s1, hd, hi⟩ := issue_canRun h1
  have hg : ((((s1.updCore n fun c => { c with lastIssued := t.toNat }).core n).thread t.toNat).rp pg).getLsbD 0 = true := by
    obtain ⟨-, -, -, ⟨a, b, h5⟩, -⟩ := hd
    rw [State.core_updCore]
    show (((s1.core n).thread t.toNat).rp pg).getLsbD 0 = true
    rw [h5]; exact h2
  rw [issueGT, issueG, hi, if_pos hg]
  exact hd.retire f

/-- An I, B or J-form instruction whose effect lies in its thread. -/
theorem issueT_ran {s : State} {n : Nat} {t : BitVec 3} (h : s.canRun n t = true) (insn : Nat) (f : Thread → Thread) :
    s.onlyThread (issueT n t insn f s) n t ∧ ∃ a b, (issueT n t insn f s).thr n t =
      f ((s.thr n t).goneOn a b) := by
  obtain ⟨s1, hd, hi⟩ := issue_canRun h
  rw [issueT, hi]
  exact hd.retire f

/-- A G-form instruction whose guard is false only goes on (R68). -/
theorem issueG_false {s : State} {n : Nat} {t pg : BitVec 3} (h : s.canRun n t = true)
    (hp : ((s.thr n t).rp pg).getLsbD 0 = false) (insn : Nat) (body : State → State) :
    s.onlyThread (issueG n t pg insn body s) n t ∧ ∃ a b, (issueG n t pg insn body s).thr n t =
      (s.thr n t).goneOn a b := by
  obtain ⟨s1, hd, hi⟩ := issue_canRun h
  have hg : ¬ ((((s1.updCore n fun c => { c with lastIssued := t.toNat }).core n).thread t.toNat).rp pg).getLsbD 0 = true := by
    obtain ⟨-, -, -, ⟨a, b, h5⟩, -⟩ := hd
    rw [State.core_updCore]
    show ¬ (((s1.core n).thread t.toNat).rp pg).getLsbD 0 = true
    rw [h5]
    show ¬ ((s.thr n t).rp pg).getLsbD 0 = true
    rw [hp]; exact Bool.false_ne_true
  rw [issueG, hi, if_neg hg]
  exact hd.retire id

end Sys2Proof.Machine
end

