-- ==== Sys2Proof/Laws/Memory.lean ====
section
/-!
SUPPORT. What the operations over HBM and the scratchpad do: reads leave the bytes alone, and every write keeps the canonical form.
-/
namespace Sys2Proof.Machine

/-- Dropping entries keeps the keys rising. -/
theorem Sparse.sorted_filter {α : Type} (p : Nat × α → Bool) {m : Sparse α} (h : Sparse.sorted m = true) :
    Sparse.sorted (m.filter p) = true := by
  induction m with
  | nil => exact h
  | cons e m ih =>
    obtain ⟨h1, h2⟩ := Sparse.sorted_cons.1 h
    by_cases he : p e = true
    · rw [List.filter_cons_of_pos he]
      exact Sparse.sorted_cons.2 ⟨fun x hx => h1 x (List.mem_filter.1 hx).1, ih h2⟩
    · rw [List.filter_cons_of_neg he]
      exact ih h2

/-- Dropping entries keeps the canonical form. -/
theorem Sparse.wf_filter {α : Type} [DecidableEq α] {d : α} (p : Nat × α → Bool) {m : Sparse α} (h : Sparse.wf d m = true) :
    Sparse.wf d (m.filter p) = true := by
  obtain ⟨hs, hd⟩ := Sparse.wf_iff.1 h
  exact Sparse.wf_iff.2 ⟨Sparse.sorted_filter p hs, fun e he => hd e (List.mem_filter.1 he).1⟩

/-! ### HBM (R283, R284) -/

/-- A block replaced under a mask keeps HBM's canonical form. -/
theorem State.safe_hbmStore {s : State} (b : Nat) (row : Row) (mask : Nat) (h : s.safe = true) : (s.hbmStore b row mask).safe = true := by
  unfold State.safe Memory.wf State.hbmStore at *
  generalize List.range 64 = l
  revert h
  generalize s.hbm = m
  intro h
  induction l generalizing m with
  | nil => exact h
  | cons i l ih =>
    refine ih _ ?_
    by_cases hm : mask.testBit i = true <;> simp only [hm, if_true, Bool.false_eq_true, if_false]
    · exact Sparse.wf_set _ _ h
    · exact h

/-- A block replaced under a mask: the bytes of the mask are new, every other byte of HBM is as it was. -/
theorem State.get_hbmStore (s : State) (b : Nat) (row : Row) (mask a : Nat) :
    Sparse.get 0 (s.hbmStore b row mask).hbm a =
      if a / 64 = b ∧ mask.testBit (a % 64) = true then row.byte (a % 64) else Sparse.get 0 s.hbm a := by
  have key (n : Nat) (hn : n ≤ 64) : Sparse.get 0 ((List.range n).foldl (fun m i =>
        if mask.testBit i then Sparse.set 0 m (64 * b + i) (row.byte i) else m) s.hbm) a =
      if a / 64 = b ∧ a % 64 < n ∧ mask.testBit (a % 64) = true then row.byte (a % 64) else Sparse.get 0 s.hbm a := by
    induction n with
    | zero => simp
    | succ n ih =>
      rw [List.range_succ, List.foldl_append, List.foldl_cons, List.foldl_nil]
      have ih := ih (by omega)
      by_cases hm : mask.testBit n = true
      · rw [if_pos hm, Sparse.get_set]
        by_cases ha : a = 64 * b + n
        · have h1 : a / 64 = b := by omega
          have h2 : a % 64 = n := by omega
          simp [ha, hm, show (64 * b + n) / 64 = b by omega, show (64 * b + n) % 64 = n by omega]
        · rw [if_neg ha, ih]
          have : (a / 64 = b ∧ a % 64 < n ∧ mask.testBit (a % 64) = true) ↔
              (a / 64 = b ∧ a % 64 < n + 1 ∧ mask.testBit (a % 64) = true) := by
            constructor
            · rintro ⟨h1, h2, h3⟩; exact ⟨h1, by omega, h3⟩
            · rintro ⟨h1, h2, h3⟩; exact ⟨h1, by omega, h3⟩
          simp only [this]
      · rw [if_neg hm, ih]
        have : (a / 64 = b ∧ a % 64 < n ∧ mask.testBit (a % 64) = true) ↔
            (a / 64 = b ∧ a % 64 < n + 1 ∧ mask.testBit (a % 64) = true) := by
          constructor
          · rintro ⟨h1, h2, h3⟩; exact ⟨h1, by omega, h3⟩
          · rintro ⟨h1, h2, h3⟩
            refine ⟨h1, ?_, h3⟩
            rcases Nat.lt_succ_iff_lt_or_eq.1 h2 with h | h
            · exact h
            · rw [h] at h3; exact absurd h3 hm
        simp only [this]
  have h := key 64 (le_refl 64)
  have hlt : a % 64 < 64 := Nat.mod_lt _ (by decide)
  simp only [hlt, true_and] at h
  exact h

/-- A read of a block changes no byte of HBM. -/
@[simp] theorem State.hbmRead_hbm (s : State) (pa : Nat) (w : Bool) : (s.hbmRead pa w).2.hbm = s.hbm := by
  unfold State.hbmRead
  dsimp only
  split
  · rfl
  · split
    · rfl
    · split <;> rfl

/-- A block write keeps the canonical form, done or refused. -/
theorem State.safe_hbmWrite {s : State} (pa : Nat) (row : Row) (mask : Nat) (h : s.safe = true) : (s.hbmWrite pa row mask).2.safe = true := by
  have hr : (s.hbmRead pa true).2.safe = true := by unfold State.safe; rw [State.hbmRead_hbm]; exact h
  have hw (q : Option Row × State) (hq : q.2.safe = true) :
      (match q with | (none, s1) => (false, s1) | (some _, s1) => (true, s1.hbmStore (pa / 64) row mask)).2.safe = true := by
    obtain ⟨o, s1⟩ := q
    cases o with
    | none => exact hq
    | some r => exact State.safe_hbmStore _ _ _ hq
  show (ite _ _ (ite _ _ _) : Bool × State).2.safe = true
  by_cases h1 : s.channelFailed pa = true
  · rw [if_pos h1]; exact h
  · rw [if_neg h1]
    by_cases h2 : mask = fullMask
    · rw [if_pos h2]
      have hs := State.safe_hbmStore (pa / 64) row mask h
      revert hs
      generalize s.hbmStore (pa / 64) row mask = s2
      exact id
    · rw [if_neg h2]; exact hw _ hr

/-- A recorded refusal changes no byte of HBM. -/
@[simp] theorem State.agentFault_hbm (s : State) (own : Option Nat) (a : Nat) : (s.agentFault own a).hbm = s.hbm := by
  unfold State.agentFault State.addrFault
  cases own <;> dsimp only <;> split <;> rfl

/-- Writes of a range keep the canonical form. -/
theorem State.safe_rangeWrite {s : State} (a : Nat) (bs : List Byte) (h : s.safe = true) : (s.rangeWrite a bs).2.safe = true := by
  unfold State.rangeWrite
  generalize blocksOf a bs.length = l
  suffices ∀ r : Bool × State, r.2.safe = true → ∀ f : Bool × State → Nat → Bool × State,
      (∀ r b, r.2.safe = true → (f r b).2.safe = true) → (l.foldl f r).2.safe = true from
    this (true, s) h _ fun r b hr => State.safe_hbmWrite _ _ _ hr
  induction l with
  | nil => exact fun r hr _ _ => hr
  | cons b l ih => exact fun r hr f hf => ih _ (hf r b hr) f hf

/-- The writes of the MP and of a hub's agents keep the canonical form. -/
theorem State.safe_mpWrite {s : State} (a : Nat) (bs : List Byte) (own : Option Nat) (h : s.safe = true) :
    (s.mpWrite a bs own).2.safe = true := by
  unfold State.mpWrite
  split
  · unfold State.safe; rw [State.agentFault_hbm]; exact h
  · exact State.safe_rangeWrite a bs h

/-- A stack that loses what it holds keeps the canonical form. -/
theorem State.safe_loseStack {s : State} (t : Nat) (h : s.safe = true) : (s.loseStack t).safe = true := by
  simpa [State.safe, Memory.wf, State.loseStack] using Sparse.wf_filter _ h

/-- A page written with zeros keeps the canonical form. -/
theorem State.safe_zeroPage {s : State} (pa : Nat) (h : s.safe = true) : (s.zeroPage pa).safe = true :=
  Sparse.wf_filter _ h

/-! ### The scratchpad (R89, R100) -/

/-- A counter leaves the scratchpad alone. -/
@[simp] theorem Core.countSat_spad (c : Core) (f flag : Fld) (k : Nat) : (c.countSat f flag k).spad = c.spad := by
  obtain ⟨r, h, -⟩ := Core.countSat_eq c f flag k
  rw [h]

/-- An error record leaves the scratchpad alone. -/
@[simp] theorem Core.noteUe_spad (c : Core) (w k : Nat) (b : Bool) : (c.noteUe w k b).spad = c.spad := by
  unfold Core.noteUe
  dsimp only
  split
  · exact Core.countSat_spad _ _ _ _
  · exact Core.countSat_spad _ _ _ _

/-- A write of the scratchpad keeps its canonical form. -/
theorem Core.wf_writeSpad {c : Core} (a : Nat) (bs : List Byte) (h : Sparse.wf 0 c.spad = true) :
    Sparse.wf 0 (c.writeSpad a bs).2.spad = true := by
  unfold Core.writeSpad
  dsimp only
  split
  · rw [Core.noteUe_spad]; exact h
  · exact Sparse.wf_blit _ _ (by rw [Core.countSat_spad]; exact h)

/-- A masked write of a row keeps its canonical form. -/
theorem Core.wf_writeRow {c : Core} (a : Nat) (row : Row) (mask : Nat) (h : Sparse.wf 0 c.spad = true) :
    Sparse.wf 0 (c.writeRow a row mask).2.spad = true := by
  unfold Core.writeRow
  dsimp only
  split
  · rw [Core.noteUe_spad]; exact h
  · exact Sparse.wf_blit _ _ (by rw [Core.countSat_spad]; exact h)

end Sys2Proof.Machine
end

