-- ==== Sys2Proof/WellFormed.lean ====
section
/-!
DEFINITION. Well-formed commands: every operand in the range that the spec gives it (R5, R16, R19, R26 to R30, R356).
-/
namespace Sys2Proof

/-- A logical index (R19). -/
def okCore (n : Nat) : Bool := decide (n < 290304)
/-- A region. -/
def okRegion (r : Nat) : Bool := decide (r < 56)
/-- A hub. -/
def okHub (h : Nat) : Bool := decide (h < 4)
/-- A port of the module. -/
def okPort (p : Nat) : Bool := decide (p < 36)
/-- A port of a router: 0 local, 1 N, 2 E, 3 S, 4 W. -/
def okInput (port : Nat) : Bool := decide (port < 5)
/-- A port of a router that has a link: 1 N, 2 E, 3 S, 4 W. -/
def okLinkPort (port : Nat) : Bool := decide (0 < port) && decide (port < 5)
/-- A direction: 0 N, 1 E, 2 S, 3 W. -/
def okDir (d : Nat) : Bool := decide (d < 4)
/-- A local core of a region (R396). -/
def okLocal (l : Nat) : Bool := decide (l < 5184)
/-- An offset in a core control window. -/
def okOffset (off : Nat) : Bool := decide (off < 4096) && decide (off % 4 = 0)
/-- A power domain (R356). -/
def okDomain (d : Nat) : Bool := decide (d < 264)
/-- A clasp. -/
def okClasp (k : Nat) : Bool := decide (k < 16)
/-- An edge port of a hub (R23). -/
def okEdge (h k : Nat) : Bool := decide (k < if h % 2 = 0 then 288 else 252)
/-- A stack of a hub. -/
def okStack (i : Nat) : Bool := decide (i < 4)
/-- A stack of the module. -/
def okStack16 (i : Nat) : Bool := decide (i < 16)
/-- An entry of the table of pending faults (R293). -/
def okFault (i : Nat) : Bool := decide (i < 256)
/-- A channel of a stack. -/
def okChannel (c : Nat) : Bool := decide (c < 32)
/-- A link connector. -/
def okCable (c : Nat) : Bool := decide (c < 12)
/-- A queue pair of the bridge (R334). -/
def okQp (q : Nat) : Bool := decide (q < 4096)
/-- A job slot (R238). -/
def okSlot (slot : Nat) : Bool := decide (slot < 1024)
/-- A member of a group. -/
def okMember (m : Nat) : Bool := decide (m < 32)
/-- A node (R318). -/
def okNode (n : Nat) : Bool := decide (n < 1024)
/-- A flow (R315). -/
def okFlow (f : Nat) : Bool := decide (f < 65536)
/-- Sensors of a unit: a region's nine, or a hub's two and its four stacks (R368). -/
def okUnit (u : Nat) (ts : List (BitVec 16)) : Bool := decide (u < 60) && decide (ts.length = if u < 56 then 9 else 6)
/-- The averages of the 68 rails (R361). -/
def okRails (rails : List (Nat × Nat)) : Bool := decide (rails.length = 68)
/-- The readings of the eight contact pairs (R431). -/
def okContacts (ts : List Nat) : Bool := decide (ts.length = 8)
/-- A device address of 48 bits that names a register word. -/
def okAddr (a : Nat) : Bool := decide (a < 2 ^ 48) && decide (a % 4 = 0)
/-- A payload that a frame can carry (R314). -/
def okFrame (b : List Byte) : Bool := decide (b.length ≤ 9216)
/-- The bytes of a management write: at most 32. -/
def okMctp (b : List Byte) : Bool := decide (b.length ≤ 32)
/-- Who accesses: one of three. -/
def okBy (w : BitVec 2) : Bool := decide (w ≠ 3)
/-- A physical core: region, row, column. -/
def okPhysCore (x : Nat × Nat × Nat) : Bool := decide (x.1 < 56) && decide (x.2.1 < 72) && decide (x.2.2 < 75)
/-- Physical cores. -/
def okPhys (l : List (Nat × Nat × Nat)) : Bool := l.all okPhysCore
/-- Verdicts of testers on a neighbour: a physical core and a direction. -/
def okVerdicts (l : List (Nat × Nat × Nat × Nat)) : Bool :=
  l.all fun x => okPhysCore (x.1, x.2.1, x.2.2.1) && okDir x.2.2.2
/-- A reset domain with its index: a core or a region. -/
def okReset (region : Bool) (i : Nat) : Bool := if region then okRegion i else okCore i
/-- The receiving end of a link: an edge port of a hub, or an input port of a router. -/
def okEnd (hub : Bool) (n k : Nat) : Bool := if hub then okHub n && okEdge n k else okCore n && okLinkPort k

/-- Every operand of a command lies in its range. -/
def Instr.wf (i : Instr) : Bool :=
  match i with
  | .registerWrite who _ addr _ => okBy who && okAddr addr
  | .rcRegisterRead who _ addr => okBy who && okAddr addr
  | .contextSlotWrite who _ n _ _ _ => okBy who && okCore n
  | .load => true
  | .start => true
  | .preempt => true
  | .planBaseWrite _ _ => true
  | .planCheckDone => true
  | .sectionStart n => okCore n
  | .sectionClose n => okCore n
  | .epochTimeout n => okCore n
  | .contextLoadReply n port => okCore n && okInput port
  | .ryudonTick h _ => okHub h
  | .localTickTimer => true
  | .groupTickTimer => true
  | .regionTick r => okRegion r
  | .coreTick n => okCore n
  | .coreDone n => okCore n
  | .regionDone r => okRegion r
  | .tickWatchdogExpiry => true
  | .sectionAbort => true
  | .regionSectionAbort r => okRegion r
  | .coreSectionAbort n => okCore n
  | .abortAppliedReport r => okRegion r
  | .tokenArrival n port => okCore n && okInput port
  | .tokenLanding n port => okCore n && okInput port
  | .combiningContribution n port => okCore n && okInput port
  | .signalArrival n port => okCore n && okInput port
  | .illegalInsn n _ _ => okCore n
  | .add n _ _ _ _ _ => okCore n
  | .sub n _ _ _ _ _ => okCore n
  | .and n _ _ _ _ _ => okCore n
  | .or n _ _ _ _ _ => okCore n
  | .xor n _ _ _ _ _ => okCore n
  | .sll n _ _ _ _ _ => okCore n
  | .srl n _ _ _ _ _ => okCore n
  | .sra n _ _ _ _ _ => okCore n
  | .slt n _ _ _ _ _ => okCore n
  | .sltu n _ _ _ _ _ => okCore n
  | .mul n _ _ _ _ _ => okCore n
  | .mulh n _ _ _ _ _ => okCore n
  | .mulhu n _ _ _ _ _ => okCore n
  | .min n _ _ _ _ _ => okCore n
  | .max n _ _ _ _ _ => okCore n
  | .minu n _ _ _ _ _ => okCore n
  | .maxu n _ _ _ _ _ => okCore n
  | .clz n _ _ _ _ => okCore n
  | .popc n _ _ _ _ => okCore n
  | .slli n _ _ _ _ _ => okCore n
  | .srli n _ _ _ _ _ => okCore n
  | .srai n _ _ _ _ _ => okCore n
  | .addi n _ _ _ _ => okCore n
  | .andi n _ _ _ _ => okCore n
  | .ori n _ _ _ _ => okCore n
  | .xori n _ _ _ _ => okCore n
  | .slti n _ _ _ _ => okCore n
  | .sltiu n _ _ _ _ => okCore n
  | .lui n _ _ _ => okCore n
  | .br n _ _ _ _ => okCore n
  | .jal n _ _ _ => okCore n
  | .jalr n _ _ _ _ => okCore n
  | .thrEnd n _ _ => okCore n
  | .fence n _ _ => okCore n
  | .thrId n _ _ _ => okCore n
  | .dbgBrk n _ _ => okCore n
  | .cmpEq n _ _ _ _ _ => okCore n
  | .cmpNe n _ _ _ _ _ => okCore n
  | .cmpLt n _ _ _ _ _ => okCore n
  | .cmpGe n _ _ _ _ _ => okCore n
  | .cmpLtu n _ _ _ _ _ => okCore n
  | .cmpGeu n _ _ _ _ _ => okCore n
  | .pAnd n _ _ _ _ _ => okCore n
  | .pOr n _ _ _ _ _ => okCore n
  | .pXor n _ _ _ _ _ => okCore n
  | .pAndn n _ _ _ _ _ => okCore n
  | .pSetg n _ _ _ _ => okCore n
  | .pGetg n _ _ _ _ => okCore n
  | .pAny n _ _ _ _ => okCore n
  | .pAll n _ _ _ _ => okCore n
  | .ldB n _ _ _ _ => okCore n
  | .ldBu n _ _ _ _ => okCore n
  | .ldH n _ _ _ _ => okCore n
  | .ldHu n _ _ _ _ => okCore n
  | .ldW n _ _ _ _ => okCore n
  | .ldD n _ _ _ _ => okCore n
  | .stB n _ _ _ _ => okCore n
  | .stH n _ _ _ _ => okCore n
  | .stW n _ _ _ _ => okCore n
  | .stD n _ _ _ _ => okCore n
  | .fldW n _ _ _ _ => okCore n
  | .fldD n _ _ _ _ => okCore n
  | .fstW n _ _ _ _ => okCore n
  | .fstD n _ _ _ _ => okCore n
  | .vld n _ _ _ _ => okCore n
  | .vst n _ _ _ _ => okCore n
  | .vadd n _ _ _ _ _ => okCore n
  | .vsub n _ _ _ _ _ => okCore n
  | .vmul n _ _ _ _ _ => okCore n
  | .vfma n _ _ _ _ _ _ => okCore n
  | .vmax n _ _ _ _ _ => okCore n
  | .vmin n _ _ _ _ _ => okCore n
  | .vabs n _ _ _ _ => okCore n
  | .vneg n _ _ _ _ => okCore n
  | .vcmpLt n _ _ _ _ _ => okCore n
  | .vcmpLe n _ _ _ _ _ => okCore n
  | .vcmpEq n _ _ _ _ _ => okCore n
  | .vsel n _ _ _ _ _ _ => okCore n
  | .vredAdd n _ _ _ => okCore n
  | .vredMax n _ _ _ => okCore n
  | .vand n _ _ _ _ _ => okCore n
  | .vor n _ _ _ _ _ => okCore n
  | .vxor n _ _ _ _ _ => okCore n
  | .viadd n _ _ _ _ _ => okCore n
  | .vperm n _ _ _ _ => okCore n
  | .vmov n _ _ _ _ => okCore n
  | .vbcast n _ _ _ _ => okCore n
  | .vext n _ _ _ _ _ => okCore n
  | .vins n _ _ _ _ _ => okCore n
  | .csTsum n _ _ _ _ _ => okCore n
  | .csTprod n _ _ _ _ _ => okCore n
  | .csPadd n _ _ _ _ _ => okCore n
  | .csPmul n _ _ _ _ _ => okCore n
  | .csNorm n _ _ _ _ => okCore n
  | .csRound n _ _ _ _ => okCore n
  | .csPred n _ _ _ => okCore n
  | .sfExp2 n _ _ _ _ => okCore n
  | .sfLog2 n _ _ _ _ => okCore n
  | .sfRcp n _ _ _ _ => okCore n
  | .sfRsqrt n _ _ _ _ => okCore n
  | .sfSin n _ _ _ _ => okCore n
  | .sfCos n _ _ _ _ => okCore n
  | .sfErf n _ _ _ _ => okCore n
  | .vcvtBf16 n _ _ _ _ _ => okCore n
  | .vcvtF16 n _ _ _ _ _ => okCore n
  | .vcvtE4m3 n _ _ _ _ _ => okCore n
  | .vcvtE5m2 n _ _ _ _ _ => okCore n
  | .vcvtXBf16 n _ _ _ _ _ => okCore n
  | .vcvtXF16 n _ _ _ _ _ => okCore n
  | .vcvtXE4m3 n _ _ _ _ _ => okCore n
  | .vcvtXE5m2 n _ _ _ _ _ => okCore n
  | .vcvtFI32 n _ _ _ _ => okCore n
  | .vcvtI32F n _ _ _ _ => okCore n
  | .mxRun n _ _ _ => okCore n
  | .mxOut n _ _ _ => okCore n
  | .mxClr n _ _ => okCore n
  | .mxCfg n _ _ _ => okCore n
  | .mxWait n _ _ => okCore n
  | .mxStat n _ _ _ => okCore n
  | .czCfg n _ _ _ => okCore n
  | .czFlush n _ _ => okCore n
  | .czHist n _ _ _ => okCore n
  | .czStat n _ _ _ => okCore n
  | .rndEc n _ _ _ => okCore n
  | .rndU32 n _ _ _ _ => okCore n
  | .vrnd n _ _ _ _ => okCore n
  | .chSend n _ _ _ _ => okCore n
  | .chSendg n _ _ _ _ => okCore n
  | .chRecv n _ _ _ _ => okCore n
  | .chRecvg n _ _ _ _ => okCore n
  | .chClose n _ _ _ => okCore n
  | .chCount n _ _ _ _ => okCore n
  | .bzOpen n _ _ _ _ _ => okCore n
  | .bzClose n _ _ _ => okCore n
  | .bzClosea n _ _ _ _ => okCore n
  | .bzPut n _ _ _ _ _ => okCore n
  | .bzCount n _ _ _ _ => okCore n
  | .sigT n _ _ _ => okCore n
  | .sigWait n _ _ => okCore n
  | .sigCnt n _ _ _ _ => okCore n
  | .sigTest n _ _ _ => okCore n
  | .clArr n _ _ _ => okCore n
  | .clWait n _ _ _ => okCore n
  | .clTest n _ _ _ _ => okCore n
  | .dmaPost n _ _ _ _ => okCore n
  | .dmaWait n _ _ _ => okCore n
  | .dmaTest n _ _ _ _ => okCore n
  | .csrR n _ _ _ => okCore n
  | .csrW n _ _ _ _ => okCore n
  | .csrS n _ _ _ _ => okCore n
  | .csrC n _ _ _ _ => okCore n
  | .hmFoldWrite n _ _ => okCore n
  | .engineRunCmd n => okCore n
  | .engineOutCmd n => okCore n
  | .engineClrCmd n => okCore n
  | .engineCfgCmd n => okCore n
  | .czCfgCmd n => okCore n
  | .czFlushCmd n => okCore n
  | .czHistCmd n => okCore n
  | .scratchpadScrub n => okCore n
  | .eccWriteback n => okCore n
  | .bezelNotice n d => okCore n && okDir d
  | .bezelNoticeAck n d => okCore n && okDir d
  | .bezelWrite n => okCore n
  | .bezelRejection n d => okCore n && okDir d
  | .meshBlockReceive hub n k err _ => okEnd hub n k && decide (err < 2 ^ 1064)
  | .meshReplayTimeout hub n k _ => okEnd hub n k
  | .blockForward n out => okCore n && okLinkPort out
  | .progressWatchdog n port => okCore n && okInput port
  | .boostEpoch => true
  | .boostMessage r => okRegion r
  | .claspArrive n d => okCore n && okDir d
  | .claspRelease n d => okCore n && okDir d
  | .claspLeaseExpiry n k => okCore n && okClasp k
  | .jobLoad _ => true
  | .jobUnload _ => true
  | .reduceStart h k => okHub h && okEdge h k
  | .reduceContribRead slot _ => okSlot slot
  | .expRecord h _ => okHub h
  | .expmaxRecord h _ => okHub h
  | .dataRecord h _ => okHub h
  | .thinRecord h _ => okHub h
  | .gatherRecord h _ => okHub h
  | .checkReturn h k => okHub h && okEdge h k
  | .reduceLeaseExpiry slot => okSlot slot
  | .memoryRequest h k => okHub h && okEdge h k
  | .pageWalk h _ => okHub h
  | .demandMapDone i => okFault i
  | .resolveRetry => true
  | .resolveDeny => true
  | .invalidate => true
  | .invalidateDone => true
  | .hbmRead h _ => okHub h
  | .hbmWrite h _ => okHub h
  | .farReply n port => okCore n && okInput port
  | .farStoreAck n port => okCore n && okInput port
  | .dmaDescriptorStart n => okCore n
  | .dmaRowIssue n => okCore n
  | .dmaLoadReply n port => okCore n && okInput port
  | .dmaStoreAck n port => okCore n && okInput port
  | .fillCopyDone n => okCore n
  | .patrolScrub h i => okHub h && okStack i
  | .hbmRefresh h i => okHub h && okStack i
  | .refreshManagement h i _ => okHub h && okStack i
  | .retrainTimer h i c => okHub h && okStack i && okChannel c
  | .retrainDone h i _ => okHub h && okStack i
  | .ryudonData p _ b => okPort p && okFrame b
  | .ryudonAck p _ b => okPort p && okFrame b
  | .ryudonNak p _ b => okPort p && okFrame b
  | .retransmitTimeout h node flow _ => okHub h && okNode node && okFlow flow
  | .ackDelayExpiry h node flow => okHub h && okNode node && okFlow flow
  | .rateRaise h => okHub h
  | .flowContextIdle h _ node flow => okHub h && okNode node && okFlow flow
  | .tickReport h _ => okHub h
  | .missingReportExpiry member _ => okMember member
  | .reportWindowExpiry => true
  | .mgmt h _ => okHub h
  | .mgmtRingWaitExpiry h _ => okHub h
  | .dataWrite h _ => okHub h
  | .dataReadReq h _ => okHub h
  | .dataReadResp h _ => okHub h
  | .dataSend h _ => okHub h
  | .dataRespErr h _ => okHub h
  | .dataDone h _ => okHub h
  | .dataNotify h _ => okHub h
  | .roceSend p q _ _ _ _ _ b => okPort p && okQp q && okFrame b
  | .roceRdmaWrite p q _ _ _ _ _ _ _ _ b => okPort p && okQp q && okFrame b
  | .roceRdmaRead p q _ _ _ _ _ => okPort p && okQp q
  | .roceCnp p q => okPort p && okQp q
  | .ringEndpointToken h k => okHub h && okEdge h k
  | .arpRequest p _ _ _ => okPort p
  | .neighborSolicitation p _ _ _ => okPort p
  | .frameDiscard x => okPort x.1 && okQp x.2.2.1
  | .linkTrainingDone p _ _ => okPort p
  | .linkDown p => okPort p
  | .cablePresentChange c _ => okCable c
  | .refSourceReqWrite _ _ => true
  | .refSettleExpiry => true
  | .sourceChangeStep => true
  | .dividerUpdate => true
  | .domainOn _ _ _ => true
  | .domainOff _ _ _ => true
  | .domainRampDone d => okDomain d
  | .domainRegulationTimeout d => okDomain d
  | .railSample rails _ => okRails rails
  | .powerCapWrite _ => true
  | .capSlewUpdate => true
  | .fillerUpdate r => okRegion r
  | .fillerDuty n => okCore n
  | .sensorSample u ts => okUnit u ts
  | .thermalStep r => okRegion r
  | .eclipseWrite _ _ => true
  | .eclipseApply r => okRegion r
  | .stagePower _ _ => true
  | .stageImage _ => true
  | .stageHubs _ h => okHub h
  | .stageRegions fail dead => fail.all okRegion && dead.all fun d => decide (d < 224)
  | .stageNeighbour silent verdicts => okPhys silent && okVerdicts verdicts
  | .stageDefects _ => true
  | .stageTrain _ stack channel => okStack16 stack && okChannel channel
  | .helloTimer p => okPort p
  | .hello p b => okPort p && okFrame b
  | .helloAck p b => okPort p && okFrame b
  | .topoExpectWrite _ _ => true
  | .bootScan => true
  | .resetCoreCmd _ _ _ => true
  | .resetRegionCmd _ _ _ => true
  | .resetHubCmd _ _ _ => true
  | .resetModuleCmd _ _ => true
  | .resetRelease region index => okReset region index
  | .srRead own r l off => okBy own && okRegion r && okLocal l && okOffset off
  | .srWrite own r l off _ => okBy own && okRegion r && okLocal l && okOffset off
  | .srStop own r l _ => okBy own && okRegion r && okLocal l
  | .srFlush own r l => okBy own && okRegion r && okLocal l
  | .srResetCore own r l => okBy own && okRegion r && okLocal l
  | .srGate own r l => okBy own && okRegion r && okLocal l
  | .srLiveness own r l => okBy own && okRegion r && okLocal l
  | .livenessAdvance n => okCore n
  | .livenessSweep x => okRegion x.1 && x.2.all okCore
  | .stopAckTimeout r => okRegion r
  | .regionHeartbeat r => okRegion r
  | .heartbeatTimeout r => okRegion r
  | .modWdogPet => true
  | .mpWatchdogExpiry => true
  | .fmStatus h _ => okHub h
  | .fmResetReport h _ => okHub h
  | .fmDefect h _ => okHub h
  | .peerReset h _ => okHub h
  | .memberLost h _ => okHub h
  | .setMaster h _ => okHub h
  | .fmCommandRecord => true
  | .recoveryWrite _ _ b _ => okFrame b
  | .recoveryCommit _ _ b _ _ => okFrame b
  | .recoveryStatus _ _ _ b => okFrame b
  | .fwUpdate => true
  | .ucalUpdate => true
  | .rollbackCommit => true
  | .bootcfgUpdate => true
  | .updateWriteDone _ => true
  | .attestationRequest => true
  | .attestationWritten => true
  | .dbgChallenge => true
  | .dbgSubmit => true
  | .dbgClose => true
  | .jtagDbgAuth _ => true
  | .jtagInstruction _ => true
  | .islandUp => true
  | .inrushStart => true
  | .powerGood => true
  | .inputSample _ _ => true
  | .powerFailHoldEnd => true
  | .contactSample ts => okContacts ts
  | .coolantSample _ _ => true
  | .refLoss => true
  | .refReturn _ => true
  | .readDev _ _ _ => true
  | .writeDev _ _ b => okMctp b
  | .readLog _ _ => true
  | .dbgPut _ _ b => okMctp b
  | .getFm _ _ => true
  | .mctpControl _ => true
  | .smbusAlertResponse => true
  | .coreWatchdogExpiry n => okCore n
  | .loadComplete => true
  | .scanComplete silent verdicts _ => okPhys silent && okVerdicts verdicts
  | .jobCheckDone => true
  | .dbgCheckDone => true
  | .rollbackCommitDone => true
  | .shareBalanceGain => true
  | .regionControllerReply r => okRegion r
  | .roceNoticeResponse q _ => okQp q
  | .noticeRetryExpiry q => okQp q
  | .mpDebugPortInput _ => true

end Sys2Proof
end

