-- ==== Sys2Proof/Tests/Slice0.lean ====
section
/-!
SUPPORT. Tests: commands that are ill-formed, the values of a few instructions, and for every statement with hypotheses a state and
operands that meet them (`wit_…`, named after the statement's part). Expected values come from the spec's text, or are worked out
by hand from its rules.
-/
namespace Sys2Proof.Tests
set_option Elab.async false
open Sys2Proof Sys2Proof.Machine

/-! ### States to start from -/

/-- Core 0 as reset leaves it but for a change. -/
def onCore (f : Core → Core) : State := State.reset.updCore 0 f
/-- Thread 3 of core 0 ready at 0x200 with its next instruction fetched, and a change of it. -/
def rig (f : Thread → Thread) (g : Core → Core) : State :=
  onCore fun c => (g c).updThread 3 fun th => f { th with status := .ready, pc := 0x200, fetchAddr := some 0x200 }
/-- The same with no change. -/
def hw : State := rig id id
/-- What a command leaves in an outcome; the state itself where it leaves none. -/
def after (s : State) (i : Instr) : State := match exec i s with | .next s' => s' | _ => s
/-- A command has a next state. -/
def runs (s : State) (i : Instr) : Bool := match exec i s with | .next _ => true | _ => false
/-- The four domains of region 0 ON. -/
def powered (s : State) : State := s.updMd fun m => { m with pw := { m.pw with doms := (List.range 4).map fun k => (k, domOn) } }
/-- Module registers given values. -/
def mod (l : List (Fld × Nat)) : State := State.reset.wrs l

/-! ### Ill-formed commands: each check refuses a term -/

theorem test_ill_requester : (Instr.registerWrite 3 0 0x7FFF00000800 0).wf = false := by decide
theorem test_ill_address : (Instr.registerWrite 1 0 0x7FFF00000802 0).wf = false := by decide
theorem test_ill_core : (Instr.sectionStart 290304).wf = false := by decide
theorem test_ill_input : (Instr.contextLoadReply 0 5).wf = false := by decide
theorem test_ill_hub : (Instr.ryudonTick 4 0).wf = false := by decide
theorem test_ill_region : (Instr.regionTick 56).wf = false := by decide
theorem test_ill_direction : (Instr.bezelNotice 0 4).wf = false := by decide
theorem test_ill_link_end : (Instr.meshBlockReceive true 1 252 0 0).wf = false := by decide
theorem test_ill_clasp : (Instr.claspLeaseExpiry 0 16).wf = false := by decide
theorem test_ill_edge : (Instr.reduceStart 0 288).wf = false := by decide
theorem test_ill_slot : (Instr.reduceContribRead 1024 0).wf = false := by decide
theorem test_ill_fault : (Instr.demandMapDone 256).wf = false := by decide
theorem test_ill_stack : (Instr.patrolScrub 0 4).wf = false := by decide
theorem test_ill_channel : (Instr.retrainTimer 0 0 32).wf = false := by decide
theorem test_ill_port : (Instr.ryudonData 36 false []).wf = false := by decide
theorem test_ill_frame : okFrame (List.replicate 9217 0) = false := by
  rw [okFrame, List.length_replicate]; decide
theorem test_ill_node : (Instr.retransmitTimeout 0 1024 0 0).wf = false := by decide
theorem test_ill_flow : (Instr.retransmitTimeout 0 0 65536 0).wf = false := by decide
theorem test_ill_member : (Instr.missingReportExpiry 32 0).wf = false := by decide
theorem test_ill_queue_pair : (Instr.roceSend 0 4096 0 0 false 0 false []).wf = false := by decide
theorem test_ill_cable : (Instr.cablePresentChange 12 true).wf = false := by decide
theorem test_ill_domain : (Instr.domainRampDone 264).wf = false := by decide
theorem test_ill_rails : (Instr.railSample [] 0).wf = false := by decide
theorem test_ill_sensors : (Instr.sensorSample 56 [0, 0]).wf = false := by decide
theorem test_ill_physical : (Instr.stageNeighbour [(0, 0, 75)] []).wf = false := by decide
theorem test_ill_verdict : (Instr.stageNeighbour [] [(0, 0, 0, 4)]).wf = false := by decide
theorem test_ill_module_stack : (Instr.stageTrain true 16 0).wf = false := by decide
theorem test_ill_reset : (Instr.resetRelease true 56).wf = false := by decide
theorem test_ill_local : (Instr.srRead 1 0 5184 0).wf = false := by decide
theorem test_ill_offset : (Instr.srRead 1 0 0 0x1000).wf = false := by decide
theorem test_ill_contacts : (Instr.contactSample []).wf = false := by decide
theorem test_ill_management : (Instr.writeDev 0 0 (List.replicate 33 0)).wf = false := by decide
theorem test_well_formed : (Instr.sectionStart 290303).wf = true := by decide

/-! ### Values of instructions (R69, R73) -/

/-- Thread 3 of core 0 after an instruction at `hw` with two operands in g1 and g2. -/
def ran (i : Instr) (x y : Word) : Thread := (after (rig (fun th => (th.wg 1 x).wg 2 y) id) i).thr 0 3

theorem test_add_wraps : (ran (.add 0 3 4 1 2 0) 0xFFFFFFFF 2).rg 4 = 1 := by decide
theorem test_sub_order : (ran (.sub 0 3 4 1 2 0) 5 7).rg 4 = 0xFFFFFFFE := by decide
theorem test_sra_takes_low_five_bits : (ran (.sra 0 3 4 1 2 0) 0x80000000 0x21).rg 4 = 0xC0000000 := by decide
theorem test_mulh_signed : (ran (.mulh 0 3 4 1 2 0) 0xFFFFFFFF 2).rg 4 = 0xFFFFFFFF := by decide
theorem test_mulhu : (ran (.mulhu 0 3 4 1 2 0) 0xFFFFFFFF 2).rg 4 = 1 := by decide
theorem test_g0_is_zero : (ran (.add 0 3 0 1 2 0) 1 2).rg 0 = 0 := by decide
theorem test_slt_signed : (ran (.slt 0 3 4 1 2 0) 0x80000000 0).rg 4 = 1 := by decide
theorem test_clz : (ran (.clz 0 3 4 1 0) 0x00010000 0).rg 4 = 15 := by decide
theorem test_branch_back : (ran (.br 0 3 0 true 0x3FFFFF) 0 0).pc = 0x1FC := by decide
theorem test_jal_links : (ran (.jal 0 3 5 2) 0 0).rg 5 = 0x204 := by decide
theorem test_guard_keeps : (ran (.add 0 3 4 1 2 1) 1 2).rg 4 = 0 := by decide
theorem test_compare_writes_all_lanes : (ran (.cmpLtu 0 3 2 1 2 0) 1 2).rp 2 = 0xFFFF := by decide
theorem test_vadd_rounds : (((ran (.vadd 0 3 2 1 1 0) 0 0)).rv 2).lane 5 = 0 := by decide +kernel
theorem test_store_then_load_is_little_endian :
    (((after (rig (fun th => (th.wg 1 0x100).wg 2 0x11223344) id) (.stW 0 3 2 1 0)).core 0).byteAt 0x100) = 0x44 := by decide
theorem test_misaligned_stops : (ran (.ldW 0 3 4 1 1) 0x100 0).status = .stopped := by decide

/-! ### Instructions of the core: what their statements assume -/

theorem wit_canRun : hw.canRun 0 3 = true ∧ hw.canRunIf 0 3 0 = true := by decide
theorem wit_ControlResult_end : (hw.thr 0 3).farStores = 0 ∧
    ((hw.core 0).dma.queue.all fun d => decide (d.poster ≠ (3 : BitVec 3).toNat)) = true ∧
    ((3 : BitVec 3).toNat = (hw.core 0).eng.owner → (hw.core 0).eng.queue = []) := by decide
/-- A thread with a far store unacknowledged. -/
def hwStores : State := rig (fun th => { th with farStores := 4 }) id
theorem wit_SpinChangesNothing : hwStores.canRunIf 0 3 0 = true ∧ (hwStores.thr 0 3).farStores ≠ 0 := by decide
theorem wit_FalseGuardHasNoEffect : guardOf (.add 0 3 4 1 2 5) = some (0, 3, 5) ∧ ((hw.thr 0 3).rp 5).getLsbD 0 = false := by decide
theorem wit_CompensatedSumResult : oddReg (14 : BitVec 4) = false ∧ oddReg (12 : BitVec 4) = false := by decide
theorem wit_RandomResult : (31 : BitVec 5) ≠ 0 := by decide
/-- A thread whose g1 holds an address. -/
def hwAt (a : Word) : State := rig (fun th => th.wg 1 a) id
theorem wit_LoadResult : let a := ((hwAt 0x27FC0).thr 0 3).narrow 1 0
    a % 64 = 0 ∧ a + 64 ≤ spadSize ∧ ((hwAt 0x27FC0).core 0).cleanAt a 64 = true ∧ (hwAt 0x27FC0).canRun 0 3 = true := by decide
theorem wit_LoadResult_last_byte : let a := ((hwAt 0x28000).thr 0 3).narrow 1 0xFFFF
    a % 1 = 0 ∧ a + 1 = spadSize ∧ ((hwAt 0x28000).core 0).cleanAt a 1 = true := by decide
theorem wit_BadNarrowAddressFaults : ((hwAt 0x27FFE).thr 0 3).narrow 1 0 % 4 ≠ 0 ∧
    (let a := ((hwAt 0x28000).thr 0 3).narrow 1 0; a % 4 = 0 ∧ spadSize < a + 4 ∧ a < 0xF0000) ∧
    (let a := ((hwAt 0x100000).thr 0 3).narrow 1 0; a % 4 = 0 ∧ spadSize < a + 4 ∧ 0x100000 ≤ a) ∧ oddReg (4 : BitVec 5) = false := by
  decide
theorem wit_IllegalWordFaults : legalWord (0xFFFFFFFF : Word).toNat = false := by decide
/-- A thread with a far address and a full share. -/
def hwFar (a : Word) : State := rig (fun th => th.wg 2 a) fun c => { c with balance := 64 * 65536 }
theorem wit_FarLoadIsRequested : (hwFar 0x80).canRun 0 3 = true ∧ oddReg (2 : BitVec 5) = false ∧
    (((hwFar 0x80).thr 0 3).rg (2 + 1)).toNat < 2 ^ 16 ∧ ((hwFar 0x80).core 0).memWait = [] ∧
    ((hwFar 0x80).core 0).canRequest = true ∧ ((hwFar 0x80).core 0).turnNow 0 true = some 0 ∧
    ((hwFar 0x80).thr 0 3).far 2 0 % 8 = 0 ∧ ((hwFar 0x80).thr 0 3).farStores < 4 := by decide
/-- Without a share the request waits. -/
theorem wit_FarLoadIsRequested_waits : (hwAt 0).canRun 0 3 = true ∧ ((hwAt 0).core 0).canRequest = false := by decide
theorem wit_RegisterInstructionResult : (0x54 : BitVec 16).toNat ≠ CR.HM_FOLD.off := by decide
theorem wit_WindowAccessActsAsCsr : let a := ((hwAt 0xFFFFC).thr 0 3).narrow 1 0
    0xF0000 ≤ a ∧ a < 0x100000 ∧ a % 4 = 0 ∧ (hwAt 0xFFFFC).canRun 0 3 = true := by decide

/-! ### Instructions for the units -/

/-- Thread 3 owns the engine. -/
def hwOwner : State := rig id fun c => { c with eng := { c.eng with owner := 3 } }
theorem wit_EngineCommandIsQueued : hwOwner.canRunIf 0 3 0 = true ∧ (hwOwner.core 0).eng.owner = (3 : BitVec 3).toNat ∧
    (hwOwner.core 0).eng.queue.length < 4 ∧ (0 : Word).toNat % 64 = 0 ∧ (0 : Word).toNat < spadSize ∧
    (hwOwner.core 0).eng.queue = [] := by decide +kernel
theorem wit_EngineCommandOfAnotherThreadFaults : (hw.core 0).eng.owner ≠ (3 : BitVec 3).toNat := by decide +kernel
theorem wit_SendResult : ((hw.core 0).rd CR.ROUTE_BAD).testBit (31 : BitVec 5).toNat = false ∧ ((hw.core 0).inBuf 0 0).length < 2 := by
  decide +kernel
/-- Route 31 is bad. -/
def hwBadRoute : State := rig id fun c => c.wr CR.ROUTE_BAD (2 ^ 31)
theorem wit_SendIsRefused_bad : hwBadRoute.canRunIf 0 3 0 = true ∧
    ((hwBadRoute.core 0).rd CR.ROUTE_BAD).testBit (31 : BitVec 5).toNat = true := by decide +kernel
/-- A local port whose token buffer is full. -/
def hwFullPort : State :=
  let e : Entry := ⟨.cd ⟨false, 0, 0, 0, 1, 0, 0, 0, 0, 0, 0, 0, 0, 0, 0⟩ 0, [2], none, 0⟩
  rig id fun c => c.setInBuf 0 0 [e, e]
theorem wit_SendIsRefused_full : hwFullPort.canRunIf 0 3 0 = true ∧
    ((hwFullPort.core 0).rd CR.ROUTE_BAD).testBit (0 : BitVec 5).toNat = false ∧ 2 ≤ ((hwFullPort.core 0).inBuf 0 0).length := by
  decide +kernel
/-- Queue 31 with one token in a ring of two rows, queue 0 a combining queue with one finished token. -/
def hwQueues : State := rig id fun c =>
  (c.updQueue 31 fun z => { z with base := 8, depth := 2, wr := 4, rdn := 3 }).updQueue 0 fun z =>
    { z with depth := 4, mode := 1, ncontrib := 2, low := 5, slots := [(1, ⟨5, 2, 0, [], 7⟩)] }
theorem wit_ReceiveResult_plain : hwQueues.canRunIf 0 3 0 = true ∧ ((hwQueues.core 0).queue 31).mode = 0 ∧
    ((hwQueues.core 0).queue 31).rdn < ((hwQueues.core 0).queue 31).wr ∧ (hwQueues.core 0).cleanAt (64 * (8 + 3 % 2)) 64 = true := by
  decide +kernel
theorem wit_ReceiveResult_combining : let z := (hwQueues.core 0).queue 0
    z.mode ≠ 0 ∧ z.slot z.low = some ⟨5, 2, 0, [], 7⟩ ∧ z.low = 5 ∧ z.ncontrib = 2 := by decide +kernel
theorem test_recv_takes_the_slot : (((after hwQueues (.chRecv 0 3 4 0 0)).thr 0 3).rv 4) = 7 := by decide +kernel
theorem wit_SignalResult : ((rig (fun th => { th with sig := 0xFFFF }) id).thr 0 3).sig ≠ 0 := by decide +kernel
/-- A root node of threads 3 and 4 in an open round; `arr` have arrived, `next` in the next round; thread 3 was last at `last`. -/
def hwClasp (arr next last : Nat) : State := rig id fun c => c.updClasp 15 fun z =>
  { z with valid := true, threads := 0x18, openRound := 2, thrArr := arr, thrNext := next, last := [(3, last)] }
theorem wit_ClaspInstructionResult_member : (hwClasp 0 0 1).canRunIf 0 3 0 = true ∧ (let z := ((hwClasp 0 0 1).core 0).clasp 15
    z.valid = true ∧ z.threads.testBit 3 = true ∧ z.overrun = false ∧ (z.lastOf 3 + 1) % 4 = z.openRound ∧
    setBit z.thrArr 3 true &&& z.threads ≠ z.threads) := by decide +kernel
theorem wit_ClaspInstructionResult_last : let z := ((hwClasp 0x10 0 1).core 0).clasp 15
    (z.lastOf 3 + 1) % 4 = z.openRound ∧ z.parent = 0 ∧ z.children = 0 ∧ z.sent = false ∧ z.thrNext &&& z.threads ≠ z.threads ∧
    setBit z.thrArr 3 true &&& z.threads = z.threads ∧ 15 ≠ ((hwClasp 0x10 0 1).core 0).finalClasp := by decide +kernel
theorem wit_ClaspInstructionResult_next : let z := ((hwClasp 8 0 2).core 0).clasp 15
    (z.lastOf 3 + 1) % 4 = (z.openRound + 1) % 4 ∧ z.openRound < 4 ∧ z.full = false := by decide +kernel
theorem wit_ClaspInstructionResult_overrun : let z := ((hwClasp 8 8 3).core 0).clasp 15
    (z.lastOf 3 + 1) % 4 ≠ z.openRound ∧ (z.lastOf 3 + 1) % 4 ≠ (z.openRound + 1) % 4 ∧ z.openRound < 4 := by decide +kernel
theorem wit_ClaspInstructionResult_stranger : ((hw.core 0).clasp 15).valid = false := by decide +kernel
/-- g1 an address, g2 a setup word. -/
def hwTwo (x y : Word) : State := rig (fun th => (th.wg 1 x).wg 2 y) id
theorem wit_BezelInstructionResult : ((hwTwo 0 2560).thr 0 3).rg 1 = 0 ∧ 1 ≤ (((hwTwo 0 2560).thr 0 3).rg 2).toNat % 2 ^ 12 ∧
    (((hwTwo 0 2560).thr 0 3).rg 2).toNat % 2 ^ 12 ≤ 2560 ∧ 0 + 64 * 2560 ≤ spadSize ∧ ((hw.core 0).bezel 7).waiting = [] ∧
    ((hw.core 0).bezel 7).queued = [] ∧ ((hw.core 0).bezel 7).state ≠ .pending ∧ ((hw.core 0).bezel 7).arrivals < 1 := by
  decide +kernel
theorem wit_BezelPutResult : nbrIn hw.md.remap 0 1 = some 1 ∧ Sparse.get [] (hw.core 0).bzOut 1 = [] ∧ hw.laneWrites 0 1 < 8 ∧
    nbrIn hw.md.remap 0 0 = none ∧ (((hwTwo 0x41 0).thr 0 3).rg 1).toNat % 64 ≠ 0 := by decide +kernel
/-- A DMA engine whose tags 0 and 1 have been posted and tag 0 has completed. -/
def hwDma : State := rig (fun th => th.wg 1 1) fun c => { c with dma := { c.dma with nextTag := 2, doneTag := 1 } }
theorem wit_DmaInstructionResult_post : (hw.core 0).dma.queue.length < 16 ∧ (hw.core 0).cleanAt 0x27FE0 32 = true ∧
    0x27FE0 % 32 = 0 ∧ 0x27FE0 < spadSize := by decide +kernel
theorem wit_DmaInstructionResult_wait : hwDma.canRunIf 0 3 0 = true ∧ (hwDma.core 0).dma.posted 0 = true ∧
    (hwDma.core 0).dma.passed 0 = true ∧ (hwDma.core 0).dma.posted 1 = true ∧ (hwDma.core 0).dma.passed 1 = false ∧
    (hwDma.core 0).dma.posted 2 = false := by decide +kernel

/-! ### Registers, runs, sections, ticks, aborts, tokens -/

/-- Module registers written and in force. -/
def forced (l : List (Fld × Nat)) : State := (mod l).updMd fun m => { m with regs := m.regs.commit }
/-- A module that is READY, in a run state. -/
def run (k : Nat) : State := forced [(MR.MOD_STATE, 1), (MR.RUN_STATE, k)]

theorem wit_RegisterAccessResult : (1 : BitVec 2) ≠ 0 ∧ (31 : Nat) < 32 := by decide
theorem test_counter_is_read_and_cleared :
    ((after (mod [(MR.DUP_TICK_COUNT, 7)]) (.rcRegisterRead 1 0 (mdAddr MR.DUP_TICK_COUNT))).rd MR.DUP_TICK_COUNT) = 0 := by
  decide +kernel
theorem wit_ContextSlotResult_active : let s := onCore fun c => c.updSlot 3 fun z => { z with state := .active }
    (s.slotOf 0 3).state = .active ∧ (s.core 0).inSection = false ∧ 0x400 ≤ (0x7FC : BitVec 11).toNat / 4 * 4 := by decide +kernel
theorem wit_ContextSlotResult_loading : ((onCore fun c => c.updSlot 0 fun z => { z with state := .loading }).slotOf 0 0).state = .loading := by
  decide +kernel
/-- The last row of a context load has come back to core 0. -/
def ctxBack : State :=
  let q : MReq := ⟨false, 0x107C0, 0, 0, 2, 31, 0, 0, 0, 0, 0⟩
  onCore fun c => { (c.setInBuf 1 2 [⟨.mrsp q (.data 9), [0], none, 0⟩]) with
    dma := { c.dma with ctx := some ⟨1, 0x10000, 32, [31], 31, false⟩ } }
theorem wit_ContextSlotResult_reply : let q : MReq := ⟨false, 0x107C0, 0, 0, 2, 31, 0, 0, 0, 0, 0⟩
    (ctxBack.core 0).replyAt 1 (fun q => decide (q.unit = 2)) = some (q, .data 9) ∧ q.gen = (ctxBack.core 0).genNow ∧
    (ctxBack.core 0).dma.ctx = some ⟨1, 0x10000, 32, [31], 31, false⟩ ∧ q.va = (0x10000 + 64 * q.tag) % 2 ^ 48 := by decide +kernel
theorem test_last_row_makes_the_slot_ready : ((after ctxBack (.contextLoadReply 0 1)).slotOf 0 1).state = .ready := by decide +kernel
theorem wit_RunCommandResult_halted : (run rsHalted).md.pw.refLost = false ∧ (run rsHalted).isReady = true ∧
    (run rsHalted).runState = rsHalted := by decide +kernel
/-- A module that can start under STRICT. -/
def canBegin : State := (forced [(MR.MOD_STATE, 1), (MR.TICK_MODE, 1)]).updTu fun t => { t with loaded := true }
theorem wit_RunCommandResult_start : canBegin.isReady = true ∧ canBegin.runState = rsHalted ∧ canBegin.md.tu.loaded = true ∧
    canBegin.eclConflict = false ∧ canBegin.rd MR.RESUME_VALID = 0 ∧ canBegin.rd MR.TICK_MODE = 1 ∧ canBegin.md.pw.refLost = false := by
  decide +kernel
/-- RUNNING with a section at core 0. -/
def sectionRuns : State := (run rsRunning).updCore 0 fun c => { c with sec := .running }
theorem wit_RunCommandResult_preempt : sectionRuns.runState = rsRunning ∧ sectionRuns.anyRunning = true ∧
    sectionRuns.runState ≠ rsHalted := by decide +kernel
theorem wit_PlanCheckResult_check : ((State.reset.updTu fun t => { t with checking := some 0x40 }).md.tu.checking) = some 0x40 := by
  decide +kernel
theorem wit_PlanCheckResult_load : (run rsLoading).runState = rsLoading ∧ (run rsLoading).isReady = true := by decide +kernel
/-- The one section of the plan, for core 0 in slot 0, with its image loaded. -/
def secEntry : PlanEntry := ⟨1, 0, 0, false, 0, 0, 0, 0, 0, 0x10000⟩
/-- Core 0 can start it in tick 5. -/
def secReady : State :=
  ((powered (run rsRunning)).updTu fun t => { t with plan := some ⟨0, [secEntry], []⟩ }).updCore 0 fun c =>
    { (c.updSlot 0 fun z => { z with state := .ready, base := secEntry.ctxOf 0 }) with next := some ⟨5, 0, 0, 1⟩, tickSeen := some 5 }
theorem wit_SectionResult_start : (secReady.core 0).next = some ⟨5, 0, 0, 1⟩ ∧
    (sectionsOf secReady.planEntries 0)[0]? = some secEntry ∧ secReady.canStart 0 ⟨5, 0, 0, 1⟩ secEntry = true := by decide +kernel
/-- Core 0 closing, with thread 2 waiting or not. -/
def closing (waits : Bool) : State := (run rsRunning).updCore 0 fun c =>
  let c1 : Core := { c with sec := .closing, epochTimer := true }
  if waits then c1.updThread 2 fun th => { th with status := .waiting } else c1
theorem wit_SectionResult_close : ((closing false).core 0).canClose = true ∧ (closing false).runState ≠ rsPreempting ∧
    ((closing false).core 0).next = none := by decide +kernel
theorem wit_SectionResult_timeout : ((closing true).core 0).sec = .closing ∧ ((closing true).core 0).epochTimer = true ∧
    ((closing true).core 0).switchMet = false := by decide +kernel
/-- A TICK 5 from the tick port, expected `k`. -/
def tickIn (k : Nat) : State :=
  ((forced [(MR.RUN_STATE, rsRunning), (MR.TICK_SOURCE, 0), (MR.TICK_PORT, 2)]).updTu fun t => { t with expected := k }).updHub 0
    fun u => { u with msgs := [⟨2, 7, 0, 3, 0, 0, leBytes 8 5⟩] }
theorem wit_TickAcceptance_port : ((tickIn 5).takeMsg 0 0 (fun m => decide (m.typ = 3))).isSome = true ∧
    (tickIn 5).localSource = false ∧ (tickIn 5).tickPort = 2 ∧ (tickIn 5).runState = rsRunning ∧ (tickIn 5).md.tu.active = [] ∧
    leNat ((leBytes 8 5).take 8) = (tickIn 5).md.tu.expected ∧ leNat ((leBytes 8 5).take 8) < (tickIn 6).md.tu.expected := by
  decide +kernel
theorem wit_TickAcceptance_local : let s := forced [(MR.RUN_STATE, rsRunning), (MR.TICK_MODE, 1)]
    s.runState = rsRunning ∧ s.md.tu.active = [] ∧ s.strict = true ∧ s.localSource = true := by decide +kernel
theorem wit_TickAcceptance_master : let s := forced [(MR.RUN_STATE, rsRunning), (MR.TICK_MODE, 1), (MR.TICK_SOURCE, 0), (MR.GROUP_MASTER, 1)]
    s.strict = true ∧ s.isMaster = true := by decide +kernel
/-- TICK 5 at region 0, and its multicast. -/
def tickAtRegion : State := State.reset.updRegion 0 fun g => { g with tickIn := [⟨5, true, false, 0⟩], ticks := [⟨5, true, false, 1⟩] }
theorem wit_TickAtRegionsAndCores : tickAtRegion.inReset 1 0 = false ∧ (tickAtRegion.region 0).tickIn = [⟨5, true, false, 0⟩] ∧
    (tickAtRegion.region 0).tickNow ≠ some 5 ∧ (tickAtRegion.region 0).dones = [] ∧ tickAtRegion.eclipsed 0 = false ∧
    tickAtRegion.silentCores 0 < 5184 := by decide +kernel
theorem wit_TickAtRegionsAndCores_core : tickAtRegion.silent 0 = false ∧ (tickAtRegion.core 0).sec = .idle ∧
    ((tickAtRegion.region 0).ticks.find? fun m => decide ((tickAtRegion.core 0).tickTaken < m.serial)) = some ⟨5, true, false, 1⟩ ∧
    (tickAtRegion.core 0).next = none ∧ (tickAtRegion.core 0).doneFor ≠ some 5 := by decide +kernel
theorem wit_TickAtRegionsAndCores_next : (secReady.core 0).next = some ⟨5, 0, 0, 1⟩ ∧ (5 : Nat) ≤ 5 := by decide +kernel
/-- The notice of core 0 that it is done with tick 5, `k` notices before it. -/
def doneAt (k : Nat) : State := (onCore fun c => { c with doneOut := [(5, 9, 1)] }).updRegion 0 fun g => { g with dones := [⟨5, 0, k, 0⟩] }
theorem wit_TickAtRegionsAndCores_done : (((doneAt 5183).enter 0).core 0).doneOut = [(5, 9, 1)] ∧
    (((doneAt 5183).enter 0).region 0).dones = [⟨5, 0, 5183, 0⟩] ∧
    5184 ≤ 0 + 5183 + 1 ∧ 0 + 5182 + 1 < 5184 := by decide +kernel
/-- Region 55 reports tick 5, the regions below `k` before it. -/
def regionsDone (k : Nat) : State :=
  ((forced [(MR.RUN_STATE, rsRunning), (MR.TICK_MODE, 1)]).updTu fun t => { t with active := [⟨5, List.range k, [], []⟩] }).updRegion 55
    fun g => { g with doneOut := [(5, 9)] }
theorem wit_TickCompletion : let s := (regionsDone 55).enter (controllerCore 55)
    (s.region 55).doneOut = [(5, 9)] ∧ s.md.tu.active = [⟨5, List.range 55, [], []⟩] ∧ (List.range 55).contains 55 = false ∧
    (List.range 55).length + 1 = 56 ∧ (List.range 54).length + 1 < 56 ∧ s.localSource = true ∧ s.strict = true ∧ s.runState = rsRunning ∧
    s.md.tu.inbox = [] ∧ s.rd MR.STOP_EN = 0 ∧ s.md.regs.inForce MR.HM_LOG_EN = 0 ∧ s.md.boot.dead = false := by decide +kernel
/-- A tick in progress with a SECTION_ABORT at H0. -/
def abortAtH0 : State := (run rsRunning).updTu fun t => { t with active := [⟨5, [], [], []⟩], inbox := [⟨3, 2, 0, 7⟩] }
theorem wit_AbortBegins_h0 : (let d := abortAtH0.detours
    d.md.tu.active ≠ [] ∧ d.runState = rsRunning ∧ d.md.tu.inbox = [⟨3, 2, 0, 7⟩]) ∧ abortAtH0.md.tu.active ≠ [] ∧ abortAtH0.runState = rsRunning ∧
    abortAtH0.strict = false := by decide +kernel
/-- SECTION_ABORT at region 0, and applied there and on its way to core 0. -/
def abortAtRegion : State :=
  (onCore fun c => { c with sec := .running }).updRegion 0 fun g => { g with abortIn := true, abortSerial := 1, tickNow := some 5 }
theorem wit_AbortBegins_region : (abortAtRegion.region 0).abortIn = true ∧ (abortAtRegion.region 0).tickIn = [] ∧
    abortAtRegion.inReset 1 0 = false ∧ (abortAtRegion.core 0).abortTaken < (abortAtRegion.region 0).abortSerial ∧
    (abortAtRegion.region 0).tickNow = some 5 ∧ (abortAtRegion.core 0).inSection = true := by decide +kernel
/-- An abort that region 55 has applied, and that some regions have not reported. -/
def abortApplied (l : List Nat) : State :=
  ((run rsAborting).updTu fun t => { t with active := [⟨5, [], [], []⟩], abort := some ⟨l, false, false, false⟩ }).updRegion 55
    fun g => g.wr RR.ABORTING 1
theorem wit_AbortEnds : ((abortApplied [55]).region 55).rd RR.ABORTING = 1 ∧ ((abortApplied [55]).region 55).abortIn = false ∧
    (abortApplied [55]).abortReached 55 = true ∧ (abortApplied [55]).inReset 1 55 = false ∧
    (abortApplied [55]).md.tu.abort = some ⟨[55], false, false, false⟩ ∧ (abortApplied [55]).runState = rsAborting ∧
    (∀ q ∈ [55], q = 55) ∧ (∃ q ∈ [0, 55], q ≠ 55) ∧ (abortApplied [55]).md.tu.held = [] := by decide +kernel
/-- A block at the head of input 4 of core 0, whose section of epoch 1 runs; queue 31 has two rows and holds `wr` tokens. -/
def blockAt (e : Entry) (wr : Nat) (shut : Bool) : State := onCore fun c =>
  ({ (c.setInBuf 4 0 [e]) with sec := .running }.wr CR.ACTIVE_EPOCH 1).updQueue 31 fun z =>
    { z with base := 4, depth := if shut then 0 else 2, wr := wr, arrivals := 5 }
/-- A token or a signal for queue 31 in an epoch. -/
def tokenOf (signal : Bool) (epoch seq : Nat) (tag : Option Nat) (row : Row) : Entry :=
  ⟨.cd ⟨signal, epoch, 0, 31, 0, 0, 0, 1, 0, seq, 0, 0, 0, 0, 0⟩ row, [0], tag, 0⟩
theorem wit_TokenResult_arrival : let e := tokenOf false 1 0 none 7
    ((blockAt e 0 false).core 0).atInput 4 (fun e => e.isToken && e.tag.isNone) = some e ∧
    let h (epoch : Nat) : CdHead := ⟨false, epoch, 0, 31, 0, 0, 0, 1, 0, 0, 0, 0, 0, 0, 0⟩
    e.body = .cd (h 1) 7 ∧ (blockAt e 0 false).epochIs 0 (h 1) = .active ∧ (((blockAt e 0 false).core 0).queue 31).shut = false ∧
    (((blockAt e 0 true).core 0).queue 31).shut = true ∧ (blockAt e 0 false).epochIs 0 (h 0) = .late := by decide +kernel
theorem wit_TokenResult_landing : let e := tokenOf false 1 0 (some 0) 7
    ((blockAt e 1 false).core 0).atInput 4 (((blockAt e 1 false).core 0).tokenFor true) = some e ∧
    e.tag = some (((blockAt e 1 false).core 0).queue 31).gen ∧ (((blockAt e 1 false).core 0).queue 31).wr - 0 < 2 := by decide +kernel
theorem test_token_lands_behind_the_first :
    ((after (blockAt (tokenOf false 1 0 (some 0) 7) 1 false) (.tokenLanding 0 4)).core 0).byteAt (64 * 5) = 7 := by decide +kernel
/-- A contribution of sequence 0 to queue 31, a sum of INT32 of three, with `l` taken slots. -/
def contribAt (l : Sparse CombSlot) : State :=
  (blockAt (tokenOf false 1 0 (some 0) 7) 0 false).updCore 0 fun c => c.updQueue 31 fun z =>
    { z with mode := 1, ncontrib := 3, slots := l }
theorem wit_ContributionAndSignalResult_first : let c := (contribAt []).core 0
    c.atInput 4 (c.tokenFor false) = some (tokenOf false 1 0 (some 0) 7) ∧ 0 < (c.queue 31).depth ∧ fullSeq (c.queue 31).low 0 = some 0 ∧
    (c.queue 31).mode = 1 ∧ (c.queue 31).slot 0 = none ∧ 1 < (c.queue 31).ncontrib := by decide +kernel
theorem wit_ContributionAndSignalResult_next : let x : CombSlot := ⟨0, 1, 0, List.replicate 16 ⟨3, false, false, false⟩, 0⟩
    ((((contribAt [(0, x)]).core 0).queue 31).slot 0) = some x ∧ x.seq = 0 ∧ 0 < x.count ∧ x.count + 1 < 3 := by decide +kernel
/-- A signal for thread 3 at queue 31, which counts 5 arrivals, with a COUNT. -/
def signalAt (count : Nat) : State := blockAt (tokenOf true 1 0 none (BitVec.ofNat 512 (count + 3 * 2 ^ 24))) 0 false
theorem wit_ContributionAndSignalResult_signal : let c := (signalAt 5).core 0
    c.atInput 4 Entry.isSignal = some (tokenOf true 1 0 none (BitVec.ofNat 512 (5 + 3 * 2 ^ 24))) ∧
    (signalAt 5).epochIs 0 ⟨true, 1, 0, 31, 0, 0, 0, 1, 0, 0, 0, 0, 0, 0, 0⟩ = .active ∧
    (5 + 3 * 2 ^ 24).testBit 27 = false ∧ (c.queue 31).shut = false ∧ bits (5 + 3 * 2 ^ 24) 23 0 ≤ (c.queue 31).arrivals ∧
    (c.queue 31).arrivals < bits (6 + 3 * 2 ^ 24) 23 0 ∧ c.hold.length < 16 := by decide +kernel
/-- R265, its first example of a key, through thread 2: the index of the source is 3 (R263). -/
theorem test_fold_advances_the_index :
    ((after State.reset (.hmFoldWrite 183540 2 1)).core 183540).rd (CR.THR_SEQ.at 8) = 1 := by decide +kernel


/-! ### Queued commands, scratchpad upkeep, bezel lane, mesh, share, clasps -/

/-- Core 0 in a section with a command at the front of its engine's queue and bytes at scratchpad address 0. -/
def engineWith (q : EngCmd) (l : List Byte) : State := onCore fun c =>
  { c with sec := .running, eng := { c.eng with queue := [q] }, spad := (List.range l.length).map fun i => (i, nth 0 l i) }
/-- Four K steps of INT8: a row at 0x1000 and one at 0x1040. -/
def runBytes : List Byte :=
  leBytes 8 (0x1000 + 2 ^ 20 + 2 ^ 32) ++ leBytes 8 (0x1040 + 2 ^ 20 + 2 ^ 32) ++ leBytes 16 0 ++ leBytes 4 0x44 ++ leBytes 4 4 ++ leBytes 24 0
theorem wit_EngineCommandResult_clr : ((engineWith .clr []).core 0).inSection = true ∧ ((engineWith .clr []).core 0).eng.queue = [.clr] := by
  decide +kernel
theorem wit_EngineCommandResult_cfg : ((engineWith (.cfg 3) []).core 0).eng.queue = [.cfg 3] := by decide +kernel
theorem wit_EngineCommandResult_run : let c := (engineWith (.run 0) runBytes).core 0
    let r := RunDesc.ofBytes (c.peek 0 64)
    c.inSection = true ∧ c.eng.queue = [.run 0] ∧ c.single = [] ∧ c.double = [] ∧ r.fault c.eng 0 = none ∧ r.fmtA = 4 ∧ r.fmtB = 4 ∧
    r.sparse = 0 ∧ (Oaw.ofNat r.oawA).mode = 0 ∧ (Oaw.ofNat r.oawB).mode = 0 ∧
    (Sparse.get Cell.reset c.eng.cells 255).special = .finite := by decide +kernel
theorem wit_EngineCommandResult_out : let c := (engineWith (.out 0) (leBytes 4 0x1000 ++ leBytes 4 64 ++ leBytes 4 5 ++ leBytes 20 0)).core 0
    let o := OutDesc.ofBytes (c.peek 0 32)
    c.inSection = true ∧ c.eng.queue = [.out 0] ∧ o.fault c.eng.kind 0 = none ∧ o.fmt = 5 ∧ o.cz = false ∧ o.hm = false ∧
    o.clear = false ∧ o.trans = false ∧ 64 ≤ o.pitch := by decide +kernel
/-- A core whose compressor has 63 bytes of VAL staged and one row left, and a command at the front of the queue. -/
def compWith (q : EngCmd) (l : List Byte) : State := (engineWith q []).updCore 0 fun c =>
  { c with comp := { c.comp with val := ⟨0, 64, 0, l⟩ } }
theorem wit_CompressorCommandResult_cfg : let c := (compWith (.czCfg 0xFFFFFFF7#32) []).core 0
    c.inSection = true ∧ c.double = [] ∧ c.eng.queue = [.czCfg 0xFFFFFFF7] ∧ (0xFFFFFFF7 : Word).getLsbD 3 = false ∧
    c.comp.quiet = true := by decide +kernel
theorem wit_CompressorCommandResult_flush : let c := (compWith .czFlush (List.replicate 63 9)).core 0
    c.eng.queue = [.czFlush] ∧ { c.comp with val := { c.comp.val with staged := [] } }.quiet = true ∧
    c.comp.val.staged.length < 64 ∧ c.comp.val.staged ≠ [] ∧ c.comp.val.ptr + 64 ≤ c.comp.val.limit := by decide +kernel
theorem wit_CompressorCommandResult_hist : ((compWith (.czHist 0x27FC0) []).core 0).eng.queue = [.czHist 0x27FC0] ∧
    0x27FC0 % 64 = 0 ∧ 0x27FC0 < spadSize := by decide +kernel
/-- The scrubber on, at its last row, a word of which is correctable. -/
def scrubs : State := (onCore fun c => { c.wrs [(CR.SCRUB_EN, 1), (CR.SCRUB_ROW, 2559)] with single := [20479] }).updCore 0 fun c =>
  { c with regs := c.regs.commit, writebacks := [20479, 4] }
theorem wit_ScratchpadUpkeep : (scrubs.core 0).regs.inForce CR.SCRUB_EN = 1 ∧ (scrubs.core 0).rd CR.SCRUB_ROW < 2560 ∧
    (scrubs.core 0).rd CR.SCRUB_ROW * 8 ≤ 20479 ∧ 20479 < (scrubs.core 0).rd CR.SCRUB_ROW * 8 + 8 ∧ 20479 ∈ (scrubs.core 0).single ∧
    (scrubs.core 0).writebacks = [20479, 4] := by decide +kernel
/-- A message in the lane from the east to core 0, whose bezel 7 of one row the east may write, with the lane of the last write. -/
def laneWith (m : LaneMsg) : State := onCore fun c =>
  { ((c.setLane 1 [m]).updBezel 7 fun z => { z with state := .opened, base := 64, length := 1, mask := 2 }) with lastDir := 0 }
theorem wit_BezelLaneResult_notice : takeFirst (fun m => !m.isWrite) (((laneWith (.notice 7 15 2560 true)).core 0).laneFrom 1) =
    some (.notice 7 15 2560 true, []) ∧ nbrIn (laneWith (.notice 7 15 2560 true)).md.remap 0 1 = some 1 ∧ 1 ≠ 0 := by decide +kernel
theorem wit_BezelLaneResult_ack : let c := (laneWith (.ack 7)).core 0
    takeFirst (fun m => !m.isWrite) (c.laneFrom 1) = some (.ack 7, []) ∧ (c.bezel 7).queued = [] ∧ c.heldArr = [] := by decide +kernel
theorem wit_BezelLaneResult_write : let s := laneWith (.write 7 0 0 5)
    (s.core 0).lastDir = (1 + 3) % 4 ∧ takeFirst LaneMsg.isWrite ((s.core 0).laneFrom 1) = some (.write 7 0 0 5, []) ∧
    s.bzCheck 0 7 1 0 0 = none ∧ ((s.core 0).bezel 7).armed = false ∧
    nbrIn s.md.remap 0 1 = some 1 ∧ Sparse.get [] (s.core 1).bzOut (oppDir 1) = [] := by decide +kernel
theorem wit_BezelLaneResult_reject : let c := (laneWith (.reject 7 (2 ^ 18 - 64) 15 14 1)).core 0
    takeFirst (fun m => !m.isWrite) (c.laneFrom 1) = some (.reject 7 (2 ^ 18 - 64) 15 14 1, []) ∧ (1 : Nat) < 2 ∧
    c.rd CR.REJ_VALID = 0 := by decide +kernel
/-- A token on its way from core 1 to core 0. -/
def tok (dest : Nat) : Payload := .cd ⟨false, 0, 0, 5, dest, 0, 0, 1, 0, 0, 0, 0, 0, 0, 0⟩ 7
/-- In flight to the east input of core 0 with SEQ 31, sent again six times before. -/
def tokBlock : LinkBlock := ⟨true, 31, 0, false, false, 0, some (tok 0)⟩
def inFlight : State :=
  (State.reset.updLink (.core 1 4) fun l => { l with flight := [tokBlock], replay := [(6, tokBlock)] }).updLink (.core 0 2) fun l =>
    { l with expect := 31 }
theorem wit_MeshLinkResult_receive : inFlight.peer (linkEndOf false 0 2) = some (.core 1 4) ∧ LinkEnd.core 1 4 ≠ linkEndOf false 0 2 ∧
    (inFlight.link (.core 1 4)).flight = [tokBlock] ∧ tokBlock.crcOk 0 = true ∧ tokBlock.seqd = true ∧ tokBlock.nak = false ∧
    tokBlock.seq = (inFlight.link (linkEndOf false 0 2)).expect ∧ tokBlock.body = some (tok 0) ∧ inFlight.sinks 0 (tok 0) = false ∧
    outsOf inFlight.md.remap 0 (tok 0) ≠ [] := by decide +kernel
/-- R175: 0xFF clears the upper byte of the start value, so that its eight shifts meet no set bit. -/
theorem test_crc16_of_a_byte : crc16 [0xFF] = 0xFF00 := by decide +kernel
theorem wit_MeshLinkResult_receive_hub : let p : LinkEnd := .core (edgeCore 3 251) (hubPort 3)
    let s := (State.reset.updLink p fun l => { l with flight := [tokBlock] }).updLink (.hub 3 251) fun l => { l with expect := 31 }
    s.peer (linkEndOf true 3 251) = some p ∧ (s.link p).flight = [tokBlock] ∧ 31 = (s.link (linkEndOf true 3 251)).expect ∧
    (tok 0).cls ≠ 3 := by decide +kernel
/-- The same block sent again a seventh time. -/
def wornLink : State := inFlight.updLink (.core 1 4) fun l => { l with replay := [(7, tokBlock)] }
theorem wit_MeshLinkResult_replay : (inFlight.link (linkEndOf false 1 4)).replay = [(6, tokBlock)] ∧
    (wornLink.link (linkEndOf false 1 4)).replay = [(7, tokBlock)] ∧ linkRouter (linkEndOf false 1 4) = (1, 4) ∧ regionOf 1 < 56 ∧
    (wornLink.region (regionOf 1)).rd RR.LINK_VALID = 0 := by decide +kernel
/-- A token at the local input of core 1 that goes west. -/
def toForward : State := State.reset.updCore 1 fun c => c.setInBuf 0 0 [⟨tok 0, [4], none, 0⟩]
theorem wit_MeshLinkResult_forward : (linkDest toForward.md.remap 1 4).isSome = true ∧
    (let d := (toForward.releaseArrivals 1).enter 1
     (((List.range 20).map fun i => (Sparse.get 19 (d.core 1).router.granted 4 + 1 + i) % 20).find? fun k => d.eligible 1 4 k) = some 0 ∧
     Sparse.get [] (d.core 1).router.inb 0 = [⟨tok 0, [4], none, 0⟩]) := by decide +kernel
theorem wit_ShareBoostAndProgress_gain : (State.reset.cores.all fun e => decide (e.2.memWait = []) && decide (e.2.dma.ctx = none)) = true := by
  decide +kernel
theorem wit_ShareBoostAndProgress_boost : let s := State.reset.updRegion 55 fun g => { g with boostIn := [255] }
    (s.region 55).boostIn = [255] := by decide +kernel
/-- A token stands at input 7's token buffer of the last core, whose section runs. -/
def stands : State := State.reset.updCore (numCores - 1) fun c =>
  { (c.setInBuf 4 0 [⟨tok 0, [4], none, 0⟩]) with sec := .running }
theorem wit_ShareBoostAndProgress_stand : (stands.core (numCores - 1)).inBuf 4 0 = [⟨tok 0, [4], none, 0⟩] ∧
    (stands.core (numCores - 1)).inSection = true ∧ stands.rd MR.SNAP_EN = 0 ∧ numCores - 1 < numCores ∧
    stands.firstStuck (regionOf (numCores - 1)) 0 = some (numCores - 1, 4, 5) ∧
    (stands.region (regionOf (numCores - 1))).rd RR.NP_VALID = 0 := by decide +kernel
/-- A message of round `round` from the east for clasp 15 of core 0, as `f` leaves the clasp. -/
def claspMsg (m : ClaspMsg) (f : Clasp → Clasp) : State := onCore fun c =>
  ({ c with sec := .running, claspIn := [m] }.updClasp 15 fun z => f { z with valid := true })
theorem wit_ClaspMessageResult_arrive : let m : ClaspMsg := ⟨1, false, 15, 3, 0, 0⟩
    let s := claspMsg m fun z => { z with children := 6, openRound := 3 }
    let z := (s.core 0).clasp 15
    (s.core 0).claspTake 1 false = some (m, { s.core 0 with claspIn := [] }) ∧ (s.core 0).claspNow m = true ∧ z.valid = true ∧
    z.children.testBit 1 = true ∧ z.overrun = false ∧ z.ahead 3 = 0 ∧ setBit z.childArr 1 true &&& z.children ≠ z.children := by
  decide +kernel
theorem wit_ClaspMessageResult_release : let m : ClaspMsg := ⟨1, true, 15, 3, 0, 0⟩
    let s := claspMsg m fun z => { z with parent := 2, openRound := 3, threads := 1 }
    let z := (s.core 0).clasp 15
    (s.core 0).claspTake 1 true = some (m, { s.core 0 with claspIn := [] }) ∧ (s.core 0).claspNow m = true ∧ z.valid = true ∧
    z.parent = 1 + 1 ∧ m.round = z.openRound ∧ z.overrun = false ∧ z.children = 0 ∧ z.thrNext &&& z.threads ≠ z.threads := by
  decide +kernel
theorem wit_ClaspMessageResult_lease : let s := claspMsg ⟨1, true, 15, 3, 0, 0⟩ fun z => { z with threads := 3, thrArr := 1 }
    let z := (s.core 0).clasp 15
    (s.core 0).inSection = true ∧ z.valid = true ∧ z.sent = false ∧ z.thrArr ≠ 0 ∧
    (s.region (regionOf 0)).rd RR.LEASE_VALID = 0 := by decide +kernel

/-! ### Reduction -/

/-- A job of two members, of which this is the first; a shard is one block. -/
def job : Job :=
  { jobId := 7, gather := false, gen := 3, w48 := false, inBf := false, outBf := false, thin := false, pingpong := false, thinK := 0,
    nlocal := 1, checkLog2 := 0, members := 2, self := 0, blocks := 2, total := 2, firstRound := 0, lease := 1, contrib := 0,
    stride := 0, out := 0x1000, resid := 0, pp := 0, checkCore := 0, checkQ := 0, doneQ := 0, doneThread := 0, doneCore := 0,
    starts := [0, 1], nodes := [0, 1] }
/-- Slot 1023 holds `z`; every hub caches page 0; message 0 of hub 0 is a record of member 1; a block for endpoint `ep` at edge port 0. -/
def red (z : RedSlot) (r : RedRec) (ep : Nat) (row : Row) : State :=
  (List.range 4).foldl (fun s h => s.updHub h fun u =>
    { u with cache := [⟨false, 0, 0x20000, true, true⟩], msgs := [⟨0, 1, 64, 5, 7, 3, r.bytes⟩],
             edgeIn := [(0, [.cd ⟨false, 0, 2, 0, 0, 0, ep, 1, 0, 0, 0, 0, 0, 0, 0⟩ row])] })
    (State.reset.updMd fun m => { m with slots := [(1023, z)] })
/-- A round that runs. -/
def round (j : Job) : RedSlot := { RedSlot.load j with running := true }
def noRec : RedRec := ⟨1, 0, 0, 1, 0, 0, []⟩
theorem wit_JobCommandResult_load : let s := red (.load job) noRec 0 0
    s.redRuns (1023 : BitVec 10).toNat = false ∧ s.md.jobCheck = none ∧ s.redSlot 1023 = some (.load job) ∧
    (RedSlot.load job).running = false ∧ (red (round job) noRec 0 0).redRuns 1023 = true := by decide +kernel
theorem wit_JobCommandResult_check : let s := (red (.load job) noRec 0 0).updMd fun m => { m with jobCheck := some 1023 }
    s.md.jobCheck = some (1023 : BitVec 10).toNat ∧ s.redRuns 1023 = false := by decide +kernel
theorem wit_ReduceRoundResult_start : let s := red (.load job) noRec 1023 5
    takeCd (Sparse.get [] (s.hub 0).edgeIn 0) = some (⟨false, 0, 2, 0, 0, 0, 1023, 1, 0, 0, 0, 0, 0, 0, 0⟩, 5, []) ∧
    s.redSlot 1023 = some (.load job) ∧ (RedSlot.load job).aborted = false ∧ (RedSlot.load job).apart = [] ∧
    (RedSlot.load job).settled = true := by decide +kernel
theorem wit_ReduceRoundResult_read : let s := red (round job) noRec 0 0
    s.redSlot 1023 = some (round job) ∧ (round job).running = true ∧ (round job).sent.contains 0 = false ∧ job.gather = false ∧
    (round job).settled = true ∧ ((round job).eloc.any fun e => e.1 = 0) = false ∧ job.owner 0 = job.self ∧
    (s.readContribs 1023 job 0 0).1.isSome = true ∧ (s.readContribs 1023 job 0 0).2.redSlot 1023 = some (round job) := by decide +kernel
theorem wit_ReduceRoundResult_lease : ((red (round job) noRec 0 0).hub 0).rd HR.RED_FAULT_VALID = 0 ∧
    (red (round job) noRec 0 0).redSlot 1023 = some (round job) := by decide +kernel
/-- Records of one unit of two bytes, of a partial, of one thinned block with lane 63, of a granule. -/
def expRec (kind first : Nat) : RedRec := ⟨kind, 0, 0, 1, 1, first, [0xFF, 0xFF]⟩
def dataRec : RedRec := ⟨3, 0, 0, 1, 1, 0, List.replicate 400 1⟩
def thinUnit : List Byte := thinBytes false [(63, ⟨0, -1⟩)]
def thinRec : RedRec := ⟨4, 0, 0, 1, 1, 0, thinUnit⟩
def gatherRec : RedRec := ⟨5, 0, 0, 1, 1, 1, List.replicate 256 9⟩
/-- `State.recordFor` of message 0 of hub 0 in the slot's round. -/
theorem recordFor_red (z : RedSlot) (r : RedRec) (u : List Byte)
    (h : let s := red z r 0 0
      (s.hub 0).msgs[0]? = some ⟨0, 1, 64, 5, 7, 3, r.bytes⟩ ∧ parseRec r.bytes = some (r, []) ∧ r.round = z.round ∧
      r.flags = b2n z.job.w48 ∧ recUnits r.kind r.flags r.count r.body = some [u] ∧ r.member < z.job.members ∧
      z.job.jobId = 7 ∧ z.job.gen = 3 ∧
      (s.md.slots.find? fun (e : Nat × RedSlot) => decide (e.2.job.jobId = 7) && decide (e.2.job.gen = 3) && !e.2.aborted) =
        some (1023, z) ∧ s.redSlot 1023 = some z ∧ z.round < 2 ^ 16) : (red z r 0 0).recordFor r.kind 0 0 1023 z r u := by
  obtain ⟨h1, h2, h3, h4, h5, h6, h7, h8, h9, h10, h11⟩ := h
  exact ⟨_, [], h1, rfl, h7.symm, h8.symm, rfl, h2, rfl, h3, h4, h5, h6, h9, h10, h11⟩
theorem wit_ReduceRecordResult_exp :
    (red (round job) (expRec 1 0) 0 0).recordFor 1 0 0 1023 (round job) (expRec 1 0) [0xFF, 0xFF] ∧ (round job).settled = true ∧
    job.gather = false ∧ job.owner 0 = job.self ∧ (Sparse.get [] (round job).exps 0).length + 1 < job.members ∧ (round job).aborted = false :=
  ⟨recordFor_red (round job) (expRec 1 0) [0xFF, 0xFF] (by decide +kernel), by decide +kernel⟩
theorem wit_ReduceRecordResult_expmax :
    (red (round job) (expRec 2 1) 0 0).recordFor 2 0 0 1023 (round job) (expRec 2 1) [0xFF, 0xFF] ∧ job.owner 1 = 1 ∧
    ((round job).eblk.any fun e => e.1 = 1) = false ∧ (1 : Nat) < job.blocks :=
  ⟨recordFor_red (round job) (expRec 2 1) [0xFF, 0xFF] (by decide +kernel), by decide +kernel⟩
theorem wit_ReduceRecordResult_data :
    (red (round job) dataRec 0 0).recordFor 3 0 0 1023 (round job) dataRec (List.replicate 400 1) ∧ job.thin = false ∧
    job.owner 0 = job.self ∧ Sparse.get [] (round job).parts 0 = [] ∧ 1 < job.members :=
  ⟨recordFor_red (round job) dataRec (List.replicate 400 1) (by decide +kernel), by decide +kernel⟩
/-- One block, thinned. -/
def thinJob : Job := { job with thin := true, blocks := 1 }
theorem wit_ReduceRecordResult_thin :
    (red (round thinJob) thinRec 0 0).recordFor 4 0 0 1023 (round thinJob) thinRec thinUnit ∧ (round thinJob).settled = true ∧
    16 * 0 + 1 = thinJob.blocks ∧ thinJob.owner (16 * 0) = thinJob.self ∧ Sparse.get [] (round thinJob).parts (16 * 0) = [] ∧
    (thinEntries false thinUnit).all (fun e => decide (e.1 < 64)) = true ∧ (0 : Nat) < thinJob.blocks :=
  ⟨recordFor_red (round thinJob) thinRec thinUnit (by decide +kernel), by decide +kernel⟩
/-- A gather with a message of its own not acknowledged. -/
def gathers : RedSlot := { round { job with gather := true } with unacked := 1 }
theorem wit_ReduceRecordResult_gather : (red gathers gatherRec 0 0).recordFor 5 0 0 1023 gathers gatherRec (List.replicate 256 9) ∧
    gathers.sums = [] ∧ gathers.due = [] ∧ gathers.unacked ≠ 0 ∧ gathers.job.owner 1 = 1 ∧ 1 ≠ gathers.job.self ∧
    gathers.written.contains 1 = false ∧
    (let va := gathers.job.granuleAt 0 1
     let s := red gathers gatherRec 0 0
     (s.hub (hubOf va)).held.contains (.engine (va / 2 ^ 16) 1023) = false ∧ (s.hub (hubOf va)).lookup va true false = some 0x21100 ∧
     0x21100 % 256 = 0 ∧ 0x21100 + 256 ≤ hbmSize ∧ hubOf 0x21100 = hubOf va ∧ (List.range 4).all (fun k => !s.channelFailed (0x21100 + 64 * k)) = true) :=
  ⟨recordFor_red gathers gatherRec (List.replicate 256 9) (by decide +kernel), by decide +kernel⟩
/-- Fifteen tokens of the check of block 0 are back, or fourteen of them. -/
def checks (k : Nat) : RedSlot :=
  { round job with returned := k, checks := [(0, (0, (List.range k).map fun i => (i, (0 : Row))))] }
theorem wit_CheckReturnResult : let s := red (checks 15) noRec (0x2000 + 1023) 0
    takeCd (Sparse.get [] (s.hub 0).edgeIn 0) = some (⟨false, 0, 2, 0, 0, 0, 0x2000 + 1023, 1, 0, 0, 0, 0, 0, 0, 0⟩, 0, []) ∧
    s.redSlot 1023 = some (checks 15) ∧
    ((checks 15).checks.find? fun (e : Nat × (Nat × Sparse Row)) => decide (e.2.1 = 15 / 16)) = some (0, (0, (List.range 15).map fun i => (i, (0 : Row)))) ∧
    (Sparse.put ((List.range 15).map fun i => (i, (0 : Row))) 15 0).length = 16 ∧
    (Sparse.put ((List.range 14).map fun i => (i, (0 : Row))) 14 0).length < 16 ∧
    ((List.range 64).all fun i => decide ((0 : Int) = rebuilt (Sparse.put ((List.range 15).map fun i => (i, (0 : Row))) 15 0) i)) = true ∧
    ((List.range 64).all fun i => decide ((0 : Int) = rebuilt (Sparse.put ((List.range 15).map fun i => (i, (0 : Row))) 15 1) i)) = false ∧
    (checks 15).settled = true := by decide +kernel

/-! ### Memory -/

/-- A read of block 0xC0 by core 0, or a write of it. -/
def reqOf (write : Bool) (unit tag : Nat) : MReq := ⟨write, 0xC0, 0, 3, unit, tag, 0, 7, 2 ^ 63, 0x200, 0⟩
/-- Hub 0 with page 0 cached or not, and the request at edge port 0, walking or ready. -/
def memHub (cached : Bool) (q : MReq) : State := State.reset.updHub 0 fun u =>
  { u with cache := if cached then [⟨false, 0, 0x20000, true, true⟩] else [], edgeIn := [(0, [.mreq q])] }
theorem wit_RequestAndWalkResult_request : takeReq (Sparse.get [] ((memHub true (reqOf false 0 0)).hub 0).edgeIn 0) = some (reqOf false 0 0, []) ∧
    ((memHub true (reqOf true 0 0)).hub 0).lookup 0xC0 true false = some 0x200C0 ∧
    ((memHub true (reqOf false 0 0)).hub 0).blocked [] (reqOf false 0 0) = false ∧
    ((memHub false (reqOf false 0 0)).hub 0).lookup 0xC0 false false = none := by decide +kernel
/-- Its walk; the table at `root` is one that no entry of is present, or none at all; the hub holds the table of its 2 MiB. -/
def walking (root : Nat) (held : Bool) : State := (forced [(MR.PT_ROOT_HI, root)]).updHub 0 fun u =>
  { u with walks := [⟨reqOf false 0 0, false⟩], walkCache := if held then [(0, 1)] else [] }
theorem wit_RequestAndWalkResult_fault : let s := walking 0xFFFF false
    (s.hub 0).walks[0]? = some ⟨reqOf false 0 0, false⟩ ∧ (s.hub 0).blocked [] (reqOf false 0 0) = false ∧
    (s.walk 0 0xC0 false false).1.res = .fault .badEntry 1 0 s.ptRoot ∧ FaultKind.badEntry ≠ .notPresent ∧
    (s.md.faults.any fun e => decide (e.2.page = 0xC0 / 2 ^ 16)) = false ∧ s.md.faults.all (fun e => e.1 ≠ 255) = true := by decide +kernel
/-- A table at 0 whose first entry maps page 0. -/
def mapped : State := { walking 0 true with hbm := [(0, 0x0F), (2, 2)] }
theorem wit_RequestAndWalkResult_walk : (mapped.hub 0).walks[0]? = some ⟨reqOf false 0 0, false⟩ ∧
    (mapped.walk 0 0xC0 false false).1.res = .ok 0x200C0 ⟨false, 0, 0x20000, true, true⟩ := by decide +kernel
/-- A ready request to the last block of HBM. -/
def isReadyAt (write : Bool) : State := State.reset.updHub 3 fun u => { u with ready := [⟨reqOf write 3 0, hbmSize - 64, false⟩] }
theorem wit_HbmAccessResult : let s := isReadyAt true
    s.goodBlock (hbmSize - 64) = true ∧ (s.hub 3).servable 0 true = some ⟨reqOf true 3 0, hbmSize - 64, false⟩ ∧
    ((isReadyAt false).hub 3).servable 0 false = some ⟨reqOf false 3 0, hbmSize - 64, false⟩ ∧
    (edgePortFor s.md.remap 3 0).isSome = true ∧ (reqOf true 3 0).unit = 3 ∧ (reqOf true 3 0).router = 0 ∧ s.md.ringWait = [] ∧ (∀ h < 4, (s.hub h).mgmtWait = []) := by decide +kernel
theorem wit_InvalidateResult : let s := State.reset.updMd fun m => { m with inv := some (0, 0) }
    State.reset.md.inv = none ∧ s.md.inv.isSome = true ∧ ∀ h < 4, (s.hub h).walks.any (·.old) = false ∧ (s.hub h).ready.any (·.old) = false := by
  decide +kernel
/-- A fault of page 0 in entry 255, with a request held for it. -/
def pageFault (d : Option Nat) : State :=
  ((mod [(MR.RESOLVE_ID, 2 * 256 + 255)]).updMd fun m => { m with faults := [(255, ⟨2, 0, .notPresent, 4, 0, 0, 0, 0, d, false, true⟩)] }).updHub 0
    fun u => { u with held := [.mreq 0 (reqOf false 0 0)] }
theorem wit_FaultResolution : let s := pageFault none
    let f : PFault := ⟨2, 0, .notPresent, 4, 0, 0, 0, 0, none, false, true⟩
    (s.md.faults.find? fun e => decide (e.1 = 255)) = some (255, f) ∧
    (∀ h < 4, ((s.hub h).held.all fun x => match x with | .mreq _ _ => true | .engine p _ => decide (p ≠ f.page)) = true) ∧
    s.rd MR.RESOLVE_ID = f.seq * 256 + 255 ∧
    (s.md.faults.find? fun e => decide (e.2.seq * 256 + e.1 = s.rd MR.RESOLVE_ID) && e.2.demand.isNone) = some (255, f) ∧
    (s.hub 0).held.filter (·.onPage 0) = [.mreq 0 (reqOf false 0 0)] ∧ (s.hub 1).held.filter (·.onPage 0) = [] ∧
    (edgePortFor s.md.remap 0 0).isSome = true := by decide +kernel
theorem wit_FaultResolution_demand : ((pageFault (some 0x30000)).md.faults.find? fun e => decide (e.1 = 255)) =
    some (255, ⟨2, 0, .notPresent, 4, 0, 0, 0, 0, some 0x30000, false, true⟩) := by decide +kernel
/-- A reply at input 4 of core 0 to a request of thread 3, which waits for a far load into g31, with a far store outstanding. -/
def farBack (q : MReq) (a : Reply) : State := onCore fun c =>
  (c.setInBuf 4 2 [⟨.mrsp q a, [0], none, 0⟩]).updThread 3 fun th =>
    { th with status := .waiting, farLoad := some ⟨0xC0, 31, false, 0⟩, farStores := 1 }
theorem wit_FarReplyResult : let q := reqOf false 0 0
    ((farBack q (.data 9)).core 0).replyAt 4 (fun q => decide (q.unit = 0) && !q.write) = some (q, .data 9) ∧
    q.gen = ((farBack q (.data 9)).core 0).genNow ∧ (((farBack q (.data 9)).core 0).thread q.thread).status = .waiting ∧
    (((farBack q (.data 9)).core 0).thread q.thread).farHeld = 0 ∧ (((farBack q (.data 9)).core 0).thread q.thread).farLoad = some ⟨0xC0, 31, false, 0⟩ ∧
    ((farBack q .denied).core 0).replyAt 4 (fun q => decide (q.unit = 0) && !q.write) = some (q, .denied) ∧
    { q with gen := 15 }.gen ≠ ((farBack { q with gen := 15 } .denied).core 0).genNow ∧
    ((farBack (reqOf true 0 0) .ack).core 0).replyAt 4 (fun q => decide (q.unit = 0) && q.write) = some (reqOf true 0 0, .ack) := by
  decide +kernel
/-- A DMA descriptor of a type and two rows of the scratchpad's end. -/
def dmaOf (typ started issued : Nat) (out : List Nat) : DmaDesc :=
  ⟨typ, 0x27F80 + 2 * 2 ^ 20 + 2 ^ 32, 0xC0, 0, 3, started = 1, issued, out, 0, 0⟩
def dmaWith (d : DmaDesc) (q : MReq) (a : Reply) : State := onCore fun c =>
  { (c.setInBuf 4 2 [⟨.mrsp q a, [0], none, 0⟩]) with dma := { c.dma with queue := [d] }, balance := shareCost }
theorem wit_DmaEngineResult_start : let d := dmaOf 3 0 0 []
    ((dmaWith d (reqOf false 1 0) .ack).core 0).dma.queue = [d] ∧ ([d].findIdx? fun d => !d.started) = some 0 ∧ d.check = none ∧
    (dmaOf 5 0 0 []).check = some (fltDmaDesc, 0, false) ∧ ((dmaWith d (reqOf false 1 0) .ack).core 0).dma.stopped = false := by decide +kernel
theorem wit_DmaEngineResult_issue : let c := (dmaWith (dmaOf 1 1 1 [0]) (reqOf false 1 0) .ack).core 0
    c.dma.current = some (0, dmaOf 1 1 1 [0]) ∧ (dmaOf 1 1 1 [0]).typ = 1 ∧ c.turnNow 0 false = some 2 ∧ c.canRequest = true ∧
    c.memWait = [] ∧ c.ctxReq 0 = none := by decide +kernel
theorem wit_DmaEngineResult_reply : let d := dmaOf 1 1 2 [0, 1]
    let c := (dmaWith d (reqOf false 1 1) (.data 9)).core 0
    (reqOf false 1 1).gen = c.genNow ∧ c.rowOf 1 = some (0, d) ∧ d.done + 1 < d.count ∧
    c.dma.queue.all (fun x => decide (x.done < x.count)) = true ∧
    c.replyAt 4 (fun q => decide (q.unit = 1) && !q.write) = some (reqOf false 1 1, .data 9) ∧
    ((dmaWith d (reqOf true 1 1) .ack).core 0).replyAt 4 (fun q => decide (q.unit = 1) && q.write) = some (reqOf true 1 1, .ack) := by
  decide +kernel
theorem wit_DmaEngineResult_fill : let d := dmaOf 3 1 0 []
    ((dmaWith d (reqOf false 1 0) .ack).core 0).dma.queue = [d] ∧ d.started = true ∧ d.typ = 3 ∧ d.allIssued = false ∧
    d.w0.testBit 4 = false ∧ d.oa.base + 64 * d.count = spadSize ∧ ((dmaWith d (reqOf false 1 0) .ack).core 0).dma.stopped = false ∧
    (let d := { dmaOf 4 1 0 [] with w2 := 0x27F00 }
     ((dmaWith d (reqOf false 1 0) .ack).core 0).dma.queue = [d] ∧ d.typ = 4 ∧ d.allIssued = false ∧
     d.w2 + 64 * d.count ≤ d.oa.base / 64 * 64 ∧ ((dmaWith d (reqOf false 1 0) .ack).core 0).double = []) := by decide +kernel
theorem wit_BackgroundMemoryWork : let s := State.reset.updHub 3 fun u =>
      { u with regs := (u.regs.wr (ctl 0 KR.SCRUB_EN) 1).commit, scrub := [(0, stackBlocks - 2)], training := [(1, 32)] }
    (s.hub 3).regs.inForce (ctl 0 KR.SCRUB_EN) = 1 ∧ Sparse.get 0 (s.hub 3).scrub 0 + 1 < stackBlocks ∧
    Sparse.get 0 (s.hub 3).training 0 = 0 ∧ Sparse.get 0 (s.hub 3).training 1 = 31 + 1 := by decide +kernel
theorem wit_BackgroundMemoryWork_snapshot : let q : MReq := { reqOf true 3 0 with data := 256 }
    let s := State.reset.updRegion 55 fun g => { g with replies := [(q, .ack)], snapLeft := 1 }
    (s.region 55).replies = [(q, .ack)] ∧ q.gen = (s.region 55).genNow ∧ (s.region 55).snapHead = none ∧ q.data.getLsbD 8 = true := by decide +kernel

/-! ### Transport, reports, host -/

/-- Bytes at an address. -/
def seg (a : Nat) (l : List Byte) : Sparse Byte := (List.range l.length).map fun i => (a + i, nth 0 l i)
/-- Entry `n` of the node table: VALID, IPv4, a member of index `n`, on every port. -/
def nodeBytes (n : Nat) : List Byte := [7, BitVec.ofNat 8 n, 0, 0, 0, 0, 0, 0] ++ List.replicate 8 255 ++ List.replicate 16 0
/-- A ring of 4 KiB at 0x4000. -/
def ringBytes (tail head : Nat) : List Byte :=
  leBytes 8 0x4000 ++ [12, 1, 0, 0, 0, 0, 0, 0] ++ leBytes 8 tail ++ leBytes 8 head
/-- A queue pair of port 0 and member 1 that may write, read and send, with an MTU of 4,096. -/
def qpBytes : List Byte :=
  [0x1D, 5, 0, 0, 0, 0, 0, 0] ++ leBytes 4 0x77 ++ leBytes 4 0xFFFFFF ++ List.replicate 16 0 ++ leBytes 4 0 ++ [1] ++ List.replicate 27 0
/-- A group of four nodes on port 0, which is UP, with page 0 cached everywhere; ring 0 of some TAIL; queue pair 3. -/
def net (tail : Nat) (l : List (Fld × Nat)) (f : Hub → Hub) : State :=
  ((List.range 4).foldl (fun (s : State) h => s.updHub h fun u => { u with cache := [⟨false, 0, 0, true, true⟩] })
    { forced ([(MR.NODE_COUNT, 4), (MR.RING_TABLE_LO, 0x1000), (MR.QP_TABLE_LO, 0x2000), (MR.QP_COUNT, 4)] ++ l) with
      hbm := seg 32 (nodeBytes 1) ++ seg 64 (nodeBytes 2) ++ seg 96 (nodeBytes 3) ++ seg 0x1000 (ringBytes tail 0) ++
        seg 0x20C0 qpBytes }).updHub 0 fun u => f ((u.wr (portFld 0 PR.LINK_UP) 1).wr (portFld 0 PR.LANE_RATE) 1)
/-- A sending flow 5 of hub 0 to node 1 with what it has not had acknowledged, and a message it sent. -/
def flow5 (l : List TxPkt) : TxFlow := ⟨1, 5, 0, 10, l, [], [], 400, 1, 0, 0, none⟩
def sent9 : TxPkt := ⟨9, ⟨0, 0, 0, [1, 2, 3], none⟩, 3⟩
def rx5 : RxFlow := { RxFlow.fresh 1 5 0 0 with expect := 9, since := 1 }
/-- A machine with both, and an arrived packet of a type. -/
def flows : State := net 0 [] fun u => { u with tx := [flow5 [sent9]], rx := [rx5] }
def packet (typ : Nat) (body : List Byte) : List Byte := ryudonBytes typ false true 5 9 1 0 0 0 0 1 body
theorem wit_TransportResult_data : let b := packet 0 [1, 2, 3]
    flows.portRd 0 PR.LINK_UP = 1 ∧ (flows.hub 0).txWait = [] ∧ flows.headerCheck b = .ok (Header.ofBytes b) ∧ (Header.ofBytes b).ackNow = true ∧
    flows.rxContext 0 0 (Header.ofBytes b) = some rx5 ∧ rx5.expect = (Header.ofBytes b).seq ∧ rx5.held = [] ∧
    ((Header.ofBytes b).blocks b).length = blockCount 3 ∧ (((Header.ofBytes b).blocks b).all fun e => e.2.isSome) = true ∧
    (flows.node 1).isSome = true ∧ flows.rxFlow 0 1 5 = some rx5 ∧ rx5.since ≠ 0 := by decide +kernel
/-- ACK 9, and a NAK of packet 9 after ACK 8. -/
def ackBytes : List Byte := leBytes 4 9 ++ List.replicate 20 0
def nakBytes : List Byte := leBytes 4 8 ++ [1, 0, 0, 0] ++ leBytes 4 9 ++ [255, 0, 0, 0]
theorem wit_TransportResult_ack : let b := packet 1 ackBytes
    flows.headerCheck b = .ok (Header.ofBytes b) ∧ (flows.rxContext 0 0 (Header.ofBytes b)).isSome = true ∧
    (Header.ofBytes b).ctlBody b = some ackBytes ∧ flows.txFlow 0 1 5 = some (flow5 [sent9]) ∧ flows.md.ringWait = [] ∧
    (flow5 [sent9]).unacked.all (fun k => k.msg.slot.isNone) = true := by decide +kernel
theorem wit_TransportResult_nak : let b := packet 2 nakBytes
    flows.headerCheck b = .ok (Header.ofBytes b) ∧ (Header.ofBytes b).ctlBody b = some nakBytes ∧ (Header.ofBytes b).typ = 2 ∧
    leNat ((nakBytes.drop 4).take 2) = 1 ∧ ackedBy (leNat (nakBytes.take 4)) 0 9 = false ∧ sent9.resent < flows.retxLimit 0 ∧
    (flow5 [sent9]).unacked.find? (fun y => decide (y.seq = 9)) = some sent9 ∧ sent9.msg.typ ≠ 4 := by decide +kernel
/-- The master of a group under STRICT, with a report of member 1 for tick 5. -/
def master : State := net 0 [(MR.TICK_SOURCE, 0), (MR.GROUP_MASTER, 1), (MR.TICK_MODE, 1)] fun u =>
  { u with msgs := [⟨0, 1, 0, 4, 0, 0, leBytes 8 5 ++ leBytes 8 0⟩] }
theorem wit_ReportAndMgmtResult_report : (master.takeMsg 0 0 (fun m => decide (m.typ = 4))).isSome = true ∧ master.isMaster = true ∧
    master.strict = true ∧ (master.node 1).isSome = true ∧ (master.node 1).map (fun e => (e.member, e.index)) = some (true, 1) ∧
    master.md.reports.contains (5, 1) = false := by decide +kernel
theorem wit_ReportAndMgmtResult_missing : let s := master.updMd fun m => { m with reports := [(5, 2)] }
    s.isMaster = true ∧ s.md.reports.any (fun r => decide (r.1 = 5)) = true ∧ s.md.reports.contains (5, 1) = false ∧
    s.md.missing.contains (5, 1) = false ∧ (s.memberNode 1).isSome = true := by decide +kernel
/-- MGMT for ring 0. -/
def mgmtIn (tail : Nat) : State := net tail [] fun u => { u with msgs := [⟨0, 1, 1, 6, 0, 0, leBytes 4 0 ++ leBytes 4 9 ++ [1, 2]⟩] }
theorem wit_ReportAndMgmtResult_mgmt : ((mgmtIn 0).takeMsg 0 0 (fun m => decide (m.typ = 6))).isSome = true ∧
    ((mgmtIn 0).hub 0).mgmtWait = [] ∧ ((mgmtIn 0).ring 0).map (·.notify) = some false ∧ ((mgmtIn 0).ringPost 0 9 [1, 2]).1 = .ok ∧
    ((mgmtIn 4096).ringPost 0 9 [1, 2]).1 = .full ∧ (mgmtIn 0).refusedAt (some 0) ((mgmtIn 0).ringAddr 0 + 16) 8 = none ∧
    (let s := (mgmtIn 0).updHub 0 fun u => { u with mgmtWait := [.msg 0 9 [1, 2]] }
     ((s.hub 0).mgmtWait.any fun p => match p with | .msg r _ _ => decide (r = 0) | .fault _ => false) = true ∧
     0 < (s.hub 0).mgmtWait.length) := by decide +kernel
/-- DATA with an OP from node 1, for queue pair 3, in a member or in the bridge; a flow to that node is open. -/
def dataMsg (op flags psn addr len imm : Nat) (b : List Byte) : List Byte := dataBody op flags 3 psn addr len imm b
def dataAt (bridge : Nat) (r : List QpReq) (b : List Byte) : State :=
  (net 0 [(MR.BRIDGE_EN, bridge)] fun u => { u with msgs := [⟨0, 1, 5, 0, 0, 0, b⟩], tx := [flow5 []] }).updMd fun m =>
    { m with qps := [(3, ⟨0xFFFFFF, 0, none, none, r, 0, none, 400, 1, 0, 0⟩)] }
/-- What `State.dataIn` asks of message 0 of hub 0. -/
def isData (s : State) (op : Nat) (b : List Byte) : Prop :=
  (s.takeMsg 0 0 fun m => decide (m.typ = 0) && decide (dataOp m.body = op)).map (·.1) = some ⟨0, 1, 5, 0, 0, 0, b⟩ ∧
  (DataMsg.ofBytes b).map (·.op) = some op
theorem wit_DataAtMember_flow : (dataAt 0 [] []).md.ringWait = [] ∧ (dataAt 0 [] []).txFlow 0 1 5 = some (flow5 []) ∧
    (flow5 []).queue = [] ∧ (flow5 []).unacked.length < 64 ∧ (∀ h < 4, ((dataAt 0 [] []).hub h).mgmtWait = []) := by decide +kernel
theorem wit_DataAtMember_write : let b := dataMsg 1 1 7 0x5001 63 0 (List.replicate 63 9)
    let s := dataAt 0 [] b
    ((s.takeMsg 0 0 fun m => decide (m.typ = 0) && decide (dataOp m.body = 1)).map (·.1)).isSome = true ∧
    (DataMsg.ofBytes b).map (fun d => (d.op, d.addr, d.data.length, d.last)) = some (1, 0x5001, 63, true) ∧
    (0x5001 : Nat) / 64 = (0x5001 + 63 - 1) / 64 ∧ (0x5001 : Nat) < windowBase ∧
    (s.hub (hubOf (0x5001 / 64 * 64))).lookup (0x5001 / 64 * 64) true true = some 0x5000 ∧ s.goodBlock 0x5000 = true ∧
    s.unreachable 0 0x5000 = false := by decide +kernel
theorem wit_DataAtMember_read : let b := dataMsg 2 1 7 0x5001 63 0 []
    ((dataAt 0 [] b).takeMsg 0 0 fun m => decide (m.typ = 0) && decide (dataOp m.body = 2)).isSome = true ∧
    (DataMsg.ofBytes b).map (fun d => (d.op, d.addr, d.len)) = some (2, 0x5001, 63) := by decide +kernel
theorem wit_DataAtMember_send : let b := dataMsg 4 3 7 0 2 5 [1, 2]
    ((dataAt 0 [] b).takeMsg 0 0 fun m => decide (m.typ = 0) && decide (dataOp m.body = 4)).isSome = true ∧
    (DataMsg.ofBytes b).map (fun d => (d.op, d.last, bitOf d.flags 1)) = some (4, true, true) ∧
    ((dataAt 0 [] b).ring 0).map (·.notify) = some false ∧
    (dataAt 0 [] b).refusedAt (some 0) ((dataAt 0 [] b).ringAddr 0 + 16) 8 = none ∧ ((dataAt 0 [] b).ringPost 0 5 [1, 2]).1 = .ok := by decide +kernel
/-- A READ, and a WRITE that waits for its member. -/
def reqRead : QpReq := ⟨7, 7, true, false, [], none, some 1⟩
def reqWrite : QpReq := ⟨6, 7, false, false, [], none, some 1⟩
theorem wit_DataAtBridge_readResp : let b := dataMsg 3 1 7 0 2 0 [1, 2]
    let s := dataAt 1 [reqRead] b
    s.rd MR.BRIDGE_EN = 1 ∧ (s.qp 3).reqs = [reqRead] ∧ reqRead.nak = none ∧ reqRead.complete = false ∧
    ((s.takeMsg 0 0 fun m => decide (m.typ = 0) && decide (dataOp m.body = 3)).isSome) = true ∧
    (DataMsg.ofBytes b).map (fun d => (d.op, d.q, d.psn, d.last, d.data)) = some (3, 3, 7, true, [1, 2]) ∧
    (s.qpEnt 3).map (·.pmtu) = some 4096 := by decide +kernel
theorem wit_DataAtBridge_others : let s := dataAt 1 [reqWrite]
    ((s (dataMsg 5 1 7 0 0 0x20 [])).qp 3).reqs = [reqWrite] ∧ reqWrite.covers 7 = true ∧ reqWrite.last = 7 ∧
    ((s (dataMsg 5 1 7 0 0 0x20 [])).takeMsg 0 0 fun m => decide (m.typ = 0) && decide (dataOp m.body = 5)).isSome = true ∧
    ((s (dataMsg 6 1 7 0 0 0 [])).takeMsg 0 0 fun m => decide (m.typ = 0) && decide (dataOp m.body = 6)).isSome = true ∧
    ((s (dataMsg 7 1 7 0 0 0 [])).takeMsg 0 0 fun m => decide (m.typ = 0) && decide (dataOp m.body = 7)).isSome = true ∧
    ((s (dataMsg 7 1 7 0 0 0 [])).qpEnt 3).isSome = true := by decide +kernel
theorem wit_DataAtBridge_notices : let s := (dataAt 1 [] []).updMd fun m => { m with notices := [⟨3, 0, 0, true⟩] }
    s.md.notices.findIdx? (fun n => decide (n.qp = 3)) = some 0 ∧ s.md.notices.findIdx? (fun n => decide (n.qp = 3) && n.rnr) = some 0 ∧
    s.md.notices[0]? = some ⟨3, 0, 0, true⟩ ∧ s.now < 0 + 1050000 ∧ 0 + 1050000 ≤ { s with now := 1050000 }.now := by decide +kernel
/-- The bridge with its host on port 0. -/
def bridge : State := net 0 [(MR.BRIDGE_EN, 1), (MR.HOST_PORTS_LO, 1)] fun u => { u with tx := [{ flow5 [] with flow := 0x1003 }] }
theorem wit_RoceResult : bridge.portRd 0 PR.LINK_UP = 1 ∧ bridge.rd MR.BRIDGE_EN = 1 ∧
    (bridge.rd MR.HOST_PORTS_LO + 2 ^ 32 * bridge.rd MR.HOST_PORTS_HI).testBit 0 = true ∧
    (bridge.qpEnt 3).map (·.port) = some 0 ∧ (bridge.qp 3).psn = 0xFFFFFF ∧ (bridge.qp 3).write = none ∧ (bridge.qp 3).send = none ∧
    (bridge.qp 3).reqs = [] ∧ (bridge.qpEnt 3).map (fun e => (bridge.rethOk e 0x5001 0x77 e.write, bridge.rethOk e 0x5001 0x77 e.read)) =
      some (true, true) ∧ bridge.memberAt (0x5001 / 2 ^ 48) = some none ∧
    (bridge.qpEnt 3).map (fun e => (e.send, bridge.memberAt e.member, e.pmtu)) = some (true, some (some 1), 4096) ∧
    bridge.txFlow 0 1 0x1003 = some { flow5 [] with flow := 0x1003 } ∧
    (bridge.hub (hubOf 0x5000)).lookup 0x5000 true true = some 0x5000 ∧ bridge.unreachable 0 0x5000 = false ∧ bridge.goodBlock 0x5000 = true ∧
    (blocksOf (bridge.rd MR.QP_TABLE_LO + 2 ^ 32 * bridge.rd MR.QP_TABLE_HI + 64 * 3) 64).contains (0x5000 / 64) = false := by decide +kernel
/-- A token for an endpoint at edge port 0 of hub 0, with ring 0 and a length of two bytes. -/
def endpointAt (ep tail : Nat) : State := net tail [] fun u =>
  { u with edgeIn := [(0, [.cd ⟨false, 0, 2, 0, 0, 0, ep, 1, 0, 0, 0, 0, 0, 0, 0⟩ (Row.ofBytes (leBytes 4 0 ++ leBytes 4 2 ++ [1, 2]))])] }
theorem wit_EndpointAndFrameResult_token : let s := endpointAt 0x8000 0
    let row := Row.ofBytes (leBytes 4 0 ++ leBytes 4 2 ++ [1, 2])
    takeCd (Sparse.get [] (s.hub 0).edgeIn 0) = some (⟨false, 0, 2, 0, 0, 0, 0x8000, 1, 0, 0, 0, 0, 0, 0, 0⟩, row, []) ∧
    leNat (row.toBytes.take 4) % 2 ^ 18 = 0 ∧ leNat ((row.toBytes.drop 4).take 2) = 2 ∧ (s.ring 0).map (·.notify) = some false ∧
    s.refusedAt (some 0) (s.ringAddr 0 + 16) 8 = none ∧ (s.ringPost 0 1 [1, 2]).1 = .ok ∧ ((endpointAt 0x8000 4096).ringPost 0 1 [1, 2]).1 = .full := by decide +kernel
theorem wit_EndpointAndFrameResult_other : (0x8001 : Nat).testBit 15 = true ∧ (0x8001 : Nat) ≠ 0x8000 ∧
    (takeCd (Sparse.get [] ((endpointAt 0x8001 0).hub 0).edgeIn 0)).isSome = true ∧ flows.portRd 0 PR.LINK_UP = 1 ∧
    ((0 : BitVec 32).toNat = flows.portRd 0 PR.IPV4_ADDR) ∧ leBytes 16 (0 : BitVec 128).toNat = flows.portAddr 0 false := by decide +kernel
theorem wit_LinkResult_training : let s := State.reset.portWr 35 PR.TRAIN_STATE 1
    s.portRd 35 PR.TRAIN_STATE = 1 := by decide +kernel
theorem wit_LinkResult_down : flows.md.ringWait = [] ∧
    (((net 0 [] id).hub 0).tx.all (fun f => decide (f.port ≠ 0) || decide (f.flow ≤ 1))) = true := by decide +kernel
/-- Ports 0 and 1 UP, flow 5 on port 0. -/
def twoPorts : State := net 0 [(MR.TOPO_OK_LO, 3)] fun u => { (u.wr (portFld 1 PR.LINK_UP) 1) with tx := [flow5 []] }
theorem wit_LinkResult_moves : twoPorts.portRd 0 PR.LINK_UP = 1 ∧ twoPorts.rd MR.TOPO_EXPECT_VALID = 0 ∧ (twoPorts.hub 0).tx = [flow5 []] ∧
    twoPorts.upPorts 0 1 = [0, 1] ∧ (flow5 []).unacked = [] := by decide +kernel
theorem wit_LinkResult_cable : let s := (State.reset.setDom (linkDomain 11) domOn).updHub 3 fun u =>
      ((portsOf 11).foldl (fun u p => u.wr (portFld p PR.LANE_RATE) 3) u)
    (portsOf 11).all (fun p => decide (s.portRd p PR.LINK_UP = 0)) = true ∧
    (portsOf 11).all (fun p => decide (s.portRd p PR.TRAIN_STATE = 0) && decide (s.portRd p PR.LANE_RATE ≠ 0)) = true ∧
    s.dom (linkDomain 11) = domOn := by decide +kernel

/-! ### Clocks, domains, power, temperature, bring-up -/

theorem wit_ClockResult_request : let s := (mod [(MR.REF_IN_USE, 1)]).portWr 8 PR.LINK_UP 1
    s.rd MR.SWITCH_STEP = 0 ∧ s.rd MR.REF_IN_USE = 1 ∧ s.rd MR.REF_SOURCE_REQ = 0 ∧ s.portRd (min 8 255) PR.LINK_UP = 1 ∧
    (mod [(MR.REF_SETTLING, 1)]).rd MR.REF_SETTLING ≠ 0 := by decide +kernel
/-- Step `k` of a source change with every divider where it has to be. -/
def switching (k d : Nat) : State := (List.range 4).foldl (fun (s : State) h => s.updHub h fun u => u.wr HR.HCLK_D d) (mod [(MR.SWITCH_STEP, k)])
theorem wit_ClockResult_steps : (switching 1 128).rd MR.SWITCH_STEP = 1 ∧
    (∀ r < 56, ((switching 1 128).region r).pw.parkC ≤ ((switching 1 128).region r).rd RR.CCLK_D ∧
      ((switching 1 128).region r).pw.parkM ≤ ((switching 1 128).region r).rd RR.MCLK_D) ∧
    (∀ h < 4, ((switching 1 128).hub h).rd HR.HCLK_D = 128) ∧ (switching 2 64).md.pw.srcNext = none ∧ (switching 2 64).rd MR.SWITCH_STEP = 2 ∧
    (∀ r < 56, ((switching 3 64).region r).rd RR.CCLK_D = ((switching 3 64).region r).cclkWant.1 ∧
      ((switching 3 64).region r).rd RR.MCLK_D = ((switching 3 64).region r).mclkWant) ∧ (switching 3 64).rd MR.SWITCH_STEP = 3 ∧
    ∀ h < 4, ((switching 3 64).hub h).rd HR.HCLK_D = 64 := by decide +kernel
theorem wit_ClockResult_divider : let g := State.reset.region 55
    g.pw.cT = max 64 (g.regs.inForce RR.CCLK_TARGET_D) ∧ g.pw.mT = max 64 (g.regs.inForce RR.MCLK_TARGET_D) ∧ g.pw.deferC = false ∧
    g.pw.eclPhase = 0 := by decide +kernel
/-- Domains in a state. -/
def domsAre (l : List (Nat × Nat)) : State := (run rsHalted).updMd fun m => { m with pw := { m.pw with doms := l } }
theorem wit_DomainResult_on : let s := domsAre [(2, domOn), (3, domOn)]
    (263 : BitVec 9).toNat < 264 ∧ (264 : BitVec 9).toNat ≥ 264 ∧ s.rd MR.RUN_STATE = rsHalted ∧ s.md.pw.domWait = [] ∧ s.dom 0 = domOff ∧
    s.rd MR.THERMAL_SHUTDOWN = 0 ∧ (s.wr MR.THERMAL_SHUTDOWN 1).rd MR.THERMAL_SHUTDOWN = 1 ∧ domIsLink 223 = false ∧
    (∀ x ∈ domChain 4 0, x ≠ 0 → s.dom x = domOn) := by decide +kernel
theorem wit_DomainResult_off : let s := domsAre [(0, domOn), (2, domOn), (3, domOn)]
    s.dom 0 = domOn ∧ (∀ x ∈ domUsers 0, s.dom x = domOff ∨ s.dom x = domFailed) ∧ (∀ x ∈ domChain 4 0, s.dom x ≠ domFailed) := by
  decide +kernel
theorem wit_DomainResult_ramp : (domsAre [(0, domRampOn)]).dom 0 = domRampOn ∧ (domsAre [(2, domRampOff)]).dom 2 = domRampOff ∧
    (domsAre [(0, domPending), (2, domOn)]).dom 0 = domPending ∧ (domsAre [(0, domPending), (2, domOn)]).domFed 0 = true ∧
    (run rsRunning).rd MR.RUN_STATE = rsRunning ∧ (domsAre [(0, domRampOn)]).rd MR.PD_VALID = 0 := by decide +kernel
theorem wit_PowerResult_rails : 1000 * clampTo 100 1000 ((State.reset.region 55).regs.inForce RR.RAIL_I1_A) < (1000001, 0).1 := by decide +kernel
/-- Filler enabled at region 0, engaged or not. -/
def filler (on : Nat) : State := (forced [(MR.FILLER_EN, 1)]).updRegion 0 fun g =>
  { g.wr RR.FILLER_ON on with pw := { g.pw with window := [10 ^ 6], pref := 10 ^ 6 } }
theorem wit_PowerResult_filler : (forced [(MR.FILLER_EN, 0)]).md.regs.inForce MR.FILLER_EN = 0 ∧ (filler 0).md.regs.inForce MR.FILLER_EN = 1 ∧
    (filler 0).eclipsed 0 = false ∧ ((filler 0).region 0).rd RR.FILLER_ON = 0 ∧
    (((((filler 0).rail 0).head?.getD (0, 0)).2 : Nat) : Rat) < (filler 0).fillFloor
      ((lastSum (clampTo 100 10000 ((filler 0).md.regs.inForce MR.FILLER_REF_US)) [10 ^ 6] : Nat) /
        (max 1 (min (clampTo 100 10000 ((filler 0).md.regs.inForce MR.FILLER_REF_US)) 1) : Nat)) 0 ∧
    ((filler 1).region 0).rd RR.FILLER_ON = 1 ∧
    (((((filler 1).rail 0).head?.getD (0, 0)).2 : Nat) : Rat) < min ((filler 1).share (filler 1).budget 0)
      ((filler 1).fillFloor ((filler 1).region 0).pw.pref 1) := by decide +kernel
/-- Filler engaged at a duty with power above the region's share, and a message of the duty that has not been taken. -/
def fillerHigh (d : Nat) : State := ((filler 1).updMd fun m => { m with pw := { m.pw with rails := [(0, [(0, 10 ^ 9)])] } }).updRegion 0
  fun g => { g.wr RR.FILLER_DUTY d with duties := [(1, ⟨3, 0, 0x7FF00, 0, .duty d⟩)] }
theorem wit_PowerResult_lower : let s := fillerHigh 16
    let g := s.region 0
    min (s.share s.budget 0) (s.fillFloor g.pw.pref (g.pw.fillAge + 1)) + g.pw.pref / 50 < ((((s.rail 0).head?.getD (0, 0)).2 : Nat) : Rat) ∧
    0 ≤ g.pw.pref ∧ g.rd RR.FILLER_ON = 1 ∧ g.rd RR.FILLER_DUTY = 16 ∧ ((fillerHigh 0).region 0).rd RR.FILLER_DUTY = 0 ∧ g.pw.cut = false := by
  decide +kernel
theorem wit_PowerResult_duty : let s := fillerHigh 16
    ((s.region 0).duties.find? fun m => decide ((s.core 0).dutyTaken < m.1)) = some (1, ⟨3, 0, 0x7FF00, 0, .duty 16⟩) ∧
    ((State.reset.region 0).duties.all fun m => decide (m.1 ≤ (State.reset.core 0).dutyTaken)) = true := by decide +kernel
/-- Region 55 and hub 3 hot. -/
def hot : State := (State.reset.updRegion 55 fun g => (g.wr (RR.SENSOR_T.at 0) (16 * 120)).wr RR.REGION_TEMP (16 * 120)).updHub 3 fun u =>
  u.wr HR.HUB_T0 (16 * 110)
/-- Readings of 150 °C are hot whatever the factory calibration of the device (log 3), which is no less than -20 °C. -/
theorem wit_ThermalResult_trip : (hot.region 55).rd RR.TRIPPED = 0 ∧ degC hot.tripC ≤ tempOf ((hot.region 55).rd (RR.SENSOR_T.at (4 * 0))) ∧
    degC hot.tripC ≤ (2400 : BitVec 16).toInt + (factoryCal 2 (9 * 55 + 0) + hot.calUser 2 (9 * 55 + 0)) ∧
    hot.rd MR.THERMAL_SHUTDOWN = 0 ∧ degC 110 ≤ tempOf ((hot.hub 3).rd HR.HUB_T0) ∧
    degC 110 ≤ (2400 : BitVec 16).toInt + (factoryCal 2 (504 + 2 * 3) + hot.calUser 2 (504 + 2 * 3)) := by
  have bound (k : Nat) : -320 ≤ factoryCal 2 k := by simp only [factoryCal]; omega
  have user : hot.calUser 2 (9 * 55 + 0) = 0 ∧ hot.calUser 2 (504 + 2 * 3) = 0 := by decide +kernel
  have trip : degC hot.tripC ≤ 2080 ∧ degC 110 ≤ 2080 ∧ (2400 : BitVec 16).toInt = 2400 := by decide +kernel
  have rest : (hot.region 55).rd RR.TRIPPED = 0 ∧ degC hot.tripC ≤ tempOf ((hot.region 55).rd (RR.SENSOR_T.at (4 * 0))) ∧
    hot.rd MR.THERMAL_SHUTDOWN = 0 ∧ degC 110 ≤ tempOf ((hot.hub 3).rd HR.HUB_T0) := by decide +kernel
  have a := bound (9 * 55 + 0)
  have b := bound (504 + 2 * 3)
  obtain ⟨h1, h2, h3, h4⟩ := rest
  rw [user.1, user.2, trip.2.2]
  exact ⟨h1, h2, by omega, h3, h4, by omega⟩
theorem wit_ThermalResult_step : degC hot.throttleC ≤ tempOf ((hot.region 55).rd RR.REGION_TEMP) ∧
    (let s := State.reset.updRegion 55 fun g => g.wr RR.THERMAL_D 255
     let g := s.region 55
     tempOf (g.rd RR.REGION_TEMP) < degC s.throttleC - degC s.hystC ∧ g.rd RR.THERMAL_D ≠ 0 ∧
     max 64 (g.regs.inForce RR.CCLK_TARGET_D) < stepTo (g.rd RR.THERMAL_D) (max 64 (g.regs.inForce RR.CCLK_TARGET_D)) ∧
     max 64 (g.regs.inForce RR.CCLK_TARGET_D) < g.rd RR.THERMAL_D) := by decide +kernel
theorem wit_ThermalResult_eclipse : (∀ q < 56, (State.reset.region q).rd RR.TRIPPED = 0) ∧
    (let s := hot.updRegion 55 fun g => g.wr RR.TRIPPED 1
     55 / 32 = b2n true ∧ (s.region 55).rd RR.TRIPPED = 1 ∧ (0 : BitVec 32).toNat.testBit (55 % 32) = false ∧
     degC s.tripClearC ≤ tempOf ((s.region 55).rd RR.REGION_TEMP)) ∧
    (let s := forced [(MR.ECLIPSE_HI, 2 ^ 23)]
     s.ticksTaken 55 = true ∧ s.regionQuiet 55 = true ∧ s.abortSettled 55 = true ∧ s.eclipsed 55 = false ∧ s.eclForce.testBit 55 = true) ∧
    (let s := mod [(MR.ECL_NOW_LO, 1)]
     s.ticksTaken 0 = true ∧ s.eclipsed 0 = true ∧ s.eclForce.testBit 0 = false ∧ s.regionQuiet 0 = true ∧ s.abortSettled 0 = true) := by decide +kernel
/-- A stage in progress, with domains ON. -/
def stageAt (k : Nat) (l : List Nat) : State := (mod [(MR.STAGE, k), (MR.STAGE_RESULT, 3)]).updMd fun m =>
  { m with pw := { m.pw with doms := l.map fun d => (d, domOn) } }
theorem wit_StartStageResult : (stageAt 1 []).inStage 1 = true ∧
    ((stageAt 1 []).updMd fun m => { m with input := { m.input with start := 3 } }).md.input.start = 3 ∧ (stageAt 2 []).inStage 2 = true ∧
    (stageAt 2 []).countBoot.flashImageCode false ≠ 0 ∧ (stageAt 2 []).md.pw.domWait = [] ∧
    (let s := stageAt 2 [223]
     s.inStage 2 = true ∧ s.md.pw.domWait = [] ∧ s.dom (4 * 55 + 3) = domOn ∧ (domUsers (4 * 55 + 3)).all (fun x => decide (s.dom x = domOff)) = true) := by decide +kernel
theorem wit_StartStageResult_domains : (stageAt 3 (stageDomains 3)).inStage 3 = true ∧
    (∀ d ∈ stageDomains 3, (stageAt 3 (stageDomains 3)).dom d = domOn) ∧ (stageAt 7 (stageDomains 7)).inStage 7 = true ∧
    (∀ d ∈ stageDomains 7, (stageAt 7 (stageDomains 7)).dom d = domOn) ∧
    ((stageAt 7 (stageDomains 7)).portWr 35 PR.LINK_UP 1).portRd 35 PR.LINK_UP = 1 := by decide +kernel
theorem wit_StartStageResult_regions : (stageAt 4 (stageDomains 4)).inStage 4 = true ∧
    (stageDomains 4).all (fun d => decide ((stageAt 4 (stageDomains 4)).dom d = domOn)) = true := by decide +kernel
theorem wit_StartStageResult_dead : let s := (stageAt 4 (stageDomains 4)).setDom 6 domFailed
    s.inStage 4 = true ∧ (stageAt 4 (stageDomains 4)).regionDead = none ∧ s.regionDead = some 6 ∧
    (stageDomains 4).all (fun d => decide (s.dom d = domOn)) = true ∧
    (let s := stageAt 4 (List.range 224)
     s.inStage 4 = true ∧ (∀ d < 224, s.dom d = domOn) ∧ s.md.pw.domWait = [] ∧ s.regionDead = none) := by decide +kernel
theorem wit_StartStageResult_topology : let s := (stageAt 7 (stageDomains 7)).wr MR.TOPO_EXPECT_VALID 1
    s.inStage 7 = true ∧ s.rd MR.TOPO_EXPECT_VALID = 1 ∧ s.topoMissing = [] ∧
    (s.updMd fun m => { m with boot := { m.boot with exp := [(0, 1)] } }).topoMissing = [0] := by decide +kernel
/-- The header of an image with a body of 64 bytes. -/
def header : List Byte := leBytes 4 0x57465744 ++ [1, 0, 0, 0, 64] ++ List.replicate 7 0 ++ leBytes 4 64 ++ List.replicate 4076 0
/-- What the checks of an image ask of its header. -/
def goodForm (hd : List Byte) : Bool :=
  decide (hd.length = 4096) && decide (fieldOf hd 0 4 = 0x57465744) && decide (fieldOf hd 4 2 = 1) &&
    zeroIn hd 6 2 && zeroIn hd 9 7 && zeroIn hd 0x1C 4 && zeroIn hd 0x721 0xDF && zeroIn hd 0xD00 0x300 &&
    decide (fieldOf hd 0x10 4 % 64 = 0) && decide (64 ≤ fieldOf hd 0x10 4) && decide (fieldOf hd 0x10 4 ≤ 0x2000000) &&
    decide (fieldOf hd 0x14 4 < fieldOf hd 0x10 4)
theorem wit_StartStageResult_form : goodForm header = true ∧ ¬ fieldOf header 8 1 < 64 := by decide +kernel
/-- With a root key (the hash of which is a constant of the device, log 3) and a signature by it, no check fails. -/
theorem wit_StartStageResult_good (hd : List Byte) (body : Nat → List Byte) (e : goodForm hd = true) (f : ¬ fieldOf hd 8 1 < 64)
    (h : rootKey ((hd.drop 0x20).take 1793) = true)
    (h' : falconVerify ((hd.drop 0x20).take 1793) ((hd.drop 0x800).take 1280) (measure hd (body (fieldOf hd 0x10 4))) = true) :
    imageCode 64 hd body = 0 := by
  rw [goodForm] at e
  simp only [imageCode, e, h, h', f, Bool.not_true, Bool.false_eq_true, if_false]
/-- Two neighbours of a core find it bad. -/
def bad : Phys := ⟨0, 0, 1⟩
theorem wit_DefectStageResult : let a : Phys := ⟨0, 0, 0⟩
    let b : Phys := ⟨0, 0, 2⟩
    a ≠ b ∧ physNbr a 1 = some bad ∧ physNbr b 3 = some bad ∧ a ∈ physNbrs bad ∧ b ∈ physNbrs bad ∧ bad ∉ (stageAt 5 []).md.unusable ∧
    a ∉ (stageAt 5 []).md.unusable ∧ b ∉ (stageAt 5 []).md.unusable ∧ (stageAt 5 []).inStage 5 = true ∧
    (State.reset.updMd fun m => { m with boot := { m.boot with scan := true } }).md.boot.scan = true ∧
    (let s := (stageAt 6 []).updMd fun m => { m with boot := { m.boot with retired := [(bad, 2)] } }
     s.inStage 6 = true ∧ s.md.boot.retired = [(bad, 2)] ∧ s.md.boot.cold = true) ∧
    (run rsHalted).rd MR.RUN_STATE = rsHalted ∧ (run rsHalted).rd MR.MOD_STATE = 1 ∧ (run rsRunning).rd MR.RUN_STATE ≠ rsHalted := by
  decide +kernel
/-- A link-local packet of the fabric manager. -/
def hello (typ : Byte) : List Byte := ryudonBytes 7 false false 0 0 0xFFFFFFFF 0xFFFFFFFF 0 0 0 1 (typ :: List.replicate 23 9)
theorem wit_DiscoveryResult : let s := (stageAt 8 []).portWr 35 PR.LINK_UP 1
    s.inStage 8 = true ∧ s.portRd 35 PR.LINK_UP = 1 ∧ 35 ∉ s.md.boot.greeted ∧ (0x84C : BitVec 16) = 0x84C ∧
    0x900 ≤ (0xB3C : BitVec 16).toNat ∧ (0xB3C : BitVec 16).toNat < 0xB40 ∧ (0xB3C : BitVec 16).toNat % 4 = 0 := by decide +kernel
theorem wit_DiscoveryResult_hello : ((stageAt 8 []).portWr 35 PR.LINK_UP 1).linkLocalOk 35 1 (hello 1) (1 :: List.replicate 23 9) := by
  unfold State.linkLocalOk; decide +kernel
theorem wit_DiscoveryResult_ack : ((stageAt 8 []).portWr 35 PR.LINK_UP 1).linkLocalOk 35 2 (hello 2) (2 :: List.replicate 23 9) := by
  unfold State.linkLocalOk; decide +kernel

/-! ### Resets, the service ring, watchdogs, the fabric manager -/

theorem wit_ResetResult : let s := run rsHalted
    s.rd MR.RUN_STATE ≠ rsRunning ∧ s.rd MR.RUN_STATE ≠ rsPreempting ∧ numCores - 1 < numCores ∧ absentIn s.md.remap (numCores - 1) = false ∧
    s.inReset 0 (numCores - 1) = false ∧ s.inReset 1 (regionOf (numCores - 1)) = false ∧ s.inReset 1 55 = false ∧
    (run rsRunning).rd MR.RUN_STATE = rsRunning ∧ State.reset.isRunning = false ∧ State.reset.isReady = false ∧
    State.reset.rd MR.THERMAL_SHUTDOWN = 0 ∧ State.reset.resetHot = false ∧ (hot.wr MR.THERMAL_SHUTDOWN 1).resetHot = true := by decide +kernel
/-- Core 5 and region 0 in reset. -/
def inResets : State := State.reset.updMd fun m => { m with boot := { m.boot with held := [(0, 5), (1, 0)] } }
theorem wit_ResetResult_release : inResets.inReset 0 5 = true ∧ (inResets.core 5).lost = false ∧ inResets.inReset 1 0 = true := by decide +kernel
theorem wit_ServiceRingResult : (powered hw).srReaches 0 0 0 ∧ (1 : BitVec 2) ≠ 0 ∧ (sectionRuns.core 0).inSection = true ∧
    (sectionRuns.region 0).rd RR.ABORTING = 0 ∧ (powered sectionRuns).srReaches 0 0 0 ∧ (powered hw).srRefused 1 0 0 = false ∧
    (powered hw).inReset 0 0 = false ∧ (powered hw).inReset 1 0 = false ∧ (powered hw).dom (4 * 55 + 3) ≠ domOn := by
  unfold State.srReaches; decide +kernel
theorem wit_WatchdogResult_liveness : (domsAre [(0, domOn)]).dom (4 * regionOf 0) = domOn ∧ ((domsAre [(0, domOn)]).core 0).gated = false ∧
    sectionRuns.cores = [(0, sectionRuns.core 0)] ∧ (sectionRuns.core 0).inSection = true ∧ (sectionRuns.core 0).lost = false ∧
    (sectionRuns.region 0).live.find? (fun e => decide (e.1 = 0)) = none ∧
    (let s := sectionRuns.updRegion 0 fun g => { g with live := [(0, 0, 399)] }
     (s.region 0).live.find? (fun e => decide (e.1 = 0)) = some (0, (s.core 0).live, 399) ∧
     (powered s).dom (4 * 0 + 3) = domOn ∧ (powered s).cores = s.cores ∧ absentIn s.md.remap 0 = false ∧ s.dom (4 * 0 + 3) ≠ domOn ∧
     clampTo 5 1000 ((s.region 0).regs.inForce RR.REGION_WDOG_MS) * 1000 ≤ (399 + 1) * 2500 ∧
     (0 + 1) * 2500 < clampTo 5 1000 ((s.region 0).regs.inForce RR.REGION_WDOG_MS) * 1000) := by decide +kernel
theorem wit_WatchdogResult_stop : let s := State.reset.updRegion 0 fun g => { g.wr RR.SR_STATUS 1 with stopWait := some 71 }
    (s.region 0).stopWait = some 71 ∧ (s.core 71).lost = false ∧ (s.region 0).rd RR.SR_STATUS = 1 ∧
    s.md.boot.heard.find? (fun e => decide (e.1 = 0)) = none ∧
    (let s := State.reset.updMd fun m => { m with boot := { m.boot with heard := [(55, 0)] } }
     s.md.boot.heard.find? (fun e => decide (e.1 = 55)) = some (55, 0) ∧ s.now < 0 + 1050000000 ∧ s.md.tu.active = []) := by decide +kernel
/-- A section in which thread 7 waits or none does. -/
def waitsAt (w : Bool) : State := sectionRuns.updCore 0 fun c => if w then c.updThread 7 fun th => { th with status := .waiting } else c
theorem wit_WatchdogResult_core : (waitsAt true |>.core 0).inSection = true ∧ ((waitsAt true).core 0).wdogHolds = false ∧
    (((waitsAt true).core 0).thread 7).status = .waiting ∧ (∀ u < 7, (((waitsAt true).core 0).thread u).status ≠ .waiting) ∧
    ((waitsAt true).core 0).rd CR.FAULT_VALID = 0 ∧ ((waitsAt false).core 0).wdogHolds = false ∧
    (∀ t < 8, (((waitsAt false).core 0).thread t).status ≠ .waiting) := by decide +kernel
/-- A fabric manager's message of a type from node 1, which is the manager or not. -/
def fmMsg (typ : Byte) : RxMsg := ⟨0, 1, 0, 7, 0, 0, [typ, 0, 0, 0, 2, 0, 0, 0] ++ List.replicate 16 0⟩
def fmIn (typ : Byte) (l : List (Fld × Nat)) : State := net 0 l fun u => { u with msgs := [fmMsg typ] }
theorem wit_FabricManagerResult_report : (fmIn 3 [(MR.BRIDGE_EN, 1)]).fmAt 0 0 3 (fmMsg 3) ∧ (fmIn 5 []).fmAt 0 0 5 (fmMsg 5) := by
  unfold State.fmAt; decide +kernel
theorem wit_FabricManagerResult_ring : let s := fmIn 4 [(MR.BRIDGE_EN, 1)]
    s.rd MR.BRIDGE_EN = 1 ∧ (fmIn 4 []).rd MR.BRIDGE_EN = 0 ∧ (s.node 1).map (·.member) = some true ∧ s.md.ringWait = [] ∧
    s.refusedAt (some (s.rd MR.FM_RING / 2 ^ 16)) (s.ringAddr (s.rd MR.FM_RING) + 16) 8 = none ∧
    (s.ring (s.rd MR.FM_RING)).map (·.notify) = some false ∧ ((s.msgTaken 0 0).ringPost (s.rd MR.FM_RING) 4 (fmMsg 4).body).1 = .ok := by
  decide +kernel
theorem wit_FabricManagerResult_manager : (fmIn 7 [(MR.FM_NODE, 1)]).fmAt 0 0 7 (fmMsg 7) ∧ (fmMsg 7).node = (fmIn 7 [(MR.FM_NODE, 1)]).rd MR.FM_NODE ∧
    (fmMsg 7).node ≠ (fmIn 7 [(MR.FM_NODE, 2)]).rd MR.FM_NODE ∧ (fmIn 7 [(MR.FM_NODE, 1)]).isMaster = false ∧
    (fmIn 8 [(MR.RUN_STATE, rsHalted)]).rd MR.RUN_STATE = rsHalted := by unfold State.fmAt; decide +kernel
/-- A record of eight bytes for node 2 at the front of the ring. -/
def fmCmd : State :=
  let s := net 64 [(MR.BRIDGE_EN, 1)] fun u => { u with tx := [⟨2, 0, 0, 10, [], [], [], 400, 1, 0, 0, none⟩] }
  { s with hbm := s.hbm ++ seg 0x4000 (leBytes 4 8 ++ leBytes 4 0 ++ leBytes 4 2 ++ leBytes 4 0) }
/-- Its record is read: its length and the node it goes to. -/
def fmCmdRead : Option (Nat × Nat) := match fmCmd.vRead 0x4000 8 false with
  | (.ok hd, s1) => match s1.vRead 0x4008 (leNat (hd.take 4)) false with
    | (.ok m, _) => some (leNat (hd.take 4), leNat (m.take 4))
    | _ => none
  | _ => none
theorem wit_FabricManagerResult_command : fmCmd.rd MR.BRIDGE_EN = 1 ∧
    fmCmd.ring (fmCmd.rd MR.FM_CMD_RING) = some ⟨0x4000, 12, true, false, 0, 64, 0⟩ ∧ (0 : Nat) < 64 ∧
    fmCmd.refusedAt none (fmCmd.ringAddr (fmCmd.rd MR.FM_CMD_RING) + 24) 8 = none ∧ fmCmdRead = some (8, 2) ∧ 2 ≠ fmCmd.rd MR.NODE_ID ∧ fmCmd.md.ringWait = [] ∧
    (fmCmd.txFlow 0 2 0).map (fun f => (f.queue, f.unacked)) = some ([], []) ∧ (∀ h < 4, (fmCmd.hub h).mgmtWait = []) := by decide +kernel

/-! ### Security, the input, management -/

/-- Port 0 UP in RECOVERY. -/
def recovers : State := (mod [(MR.MOD_STATE, 2)]).portWr 0 PR.LINK_UP 1
/-- A recovery packet with its CRC. -/
def recPacket (op : Byte) (off : Nat) (data : List Byte) : List Byte :=
  let b := [op, 0, 0, 0] ++ leBytes 4 off ++ leBytes 2 data.length ++ [0, 0] ++ data
  b ++ leBytes 4 (crc32c b)
theorem wit_RecoveryResult : recovers.portRd 0 PR.LINK_UP ≠ 0 ∧ recovers.rd MR.MOD_STATE = 2 ∧ recovers.flashImageCode false ≠ 0 := by
  decide +kernel
theorem wit_RecoveryResult_write : recoveryOk (recPacket 1 (0x4000000 - 64) []) = true := by decide +kernel
theorem wit_RecoveryResult_others : recoveryOk (recPacket 2 0 []) = true ∧ recoveryOk (recPacket 3 0 []) = true ∧
    fieldOf (recPacket 3 0 []) 0 1 = 3 := by decide +kernel
theorem wit_RecoveryResult_bad : recoveryOk (recPacket 1 32 (List.replicate 64 9)) = false ∧
    fieldOf (recPacket 1 32 (List.replicate 64 9)) 0 1 = 1 := by decide +kernel
/-- An update of a command under way. -/
def updating (cmd : Nat) (b : List Byte) : State := (mod [(MR.UPD_BUSY, 1)]).updMd fun m => { m with sec := { m.sec with update := some ⟨cmd, b⟩ } }
theorem wit_UpdateResult : (updating 4 (List.replicate 64 0)).rd MR.UPD_BUSY = 1 ∧ State.reset.rd MR.UPD_BUSY = 0 ∧
    (updating 4 (List.replicate 64 0)).md.sec.update = some ⟨4, List.replicate 64 0⟩ ∧ (updating 1 [7]).md.sec.update = some ⟨1, [7]⟩ ∧
    (updating 2 [7]).md.sec.update = some ⟨2, [7]⟩ := by decide +kernel
/-- A boot configuration with a serial of nothing and its CRC. -/
def bootRecord : List Byte := let b := leBytes 4 0x43425744 ++ [1, 0] ++ List.replicate 54 0; b ++ leBytes 4 (crc32c b)
theorem wit_UpdateResult_bootcfg : bootCfgForm bootRecord = true ∧ bootCfgOk bootRecord = true := by decide +kernel
theorem wit_SecurityResult_report : State.reset.rd MR.ATT_BUSY = 0 ∧ State.reset.rd MR.MOD_STATE ≠ 2 ∧
    (let s := State.reset.updMd fun m => { m with sec := { m.sec with report := some (0, List.replicate 256 1) } }
     s.md.sec.report = some (0, List.replicate 256 1) ∧ (List.replicate 256 (1 : Byte)).length = 256 ∧
     s.refusedAt none 0 1536 = none ∧ ∀ x ∈ blocksOf 0 1536, s.goodBlock (64 * x) = true) := by decide +kernel
theorem wit_SecurityResult_debug : State.reset.md.sec.waitUntil ≤ State.reset.now ∧ State.reset.rd MR.DBG_BUSY = 0 ∧
    (let s := State.reset.updMd fun m => { m with sec := { m.sec with waitUntil := 1 } }; s.now < s.md.sec.waitUntil) ∧
    (mod [(MR.DBG_BUSY, 1)]).rd MR.DBG_BUSY = 1 ∧ (List.replicate 0xD00 (0 : Byte)).length ≤ 0xD00 ∧ State.reset.rd MR.DEBUG_STATE = 0 := by
  decide +kernel
/-- A submission with an operation, of the vendor. -/
def submission (op : Byte) : Submission := ⟨[op, 255] ++ List.replicate 3326 0, List.replicate 32 0, true⟩
theorem wit_SecurityResult_refused : State.reset.dbgCheck (submission 0) ≠ 0 ∧
    (State.reset.updMd fun m => { m with sec := { m.sec with submission := some (submission 0) } }).md.sec.submission = some (submission 0) := by
  decide +kernel
/-- With a root key (the hash of which is a constant of the device, log 3) and a signature by it, no check fails. -/
theorem dbgCheck_vendor (s : State) (x : Submission) (e : s.dbgForm x.buf = true) (f : fieldOf x.buf 1 1 = 255) (g : x.fresh = true)
    (h : rootKey ((x.buf.drop 0x40).take 1793) = true)
    (h' : falconVerify ((x.buf.drop 0x40).take 1793) ((x.buf.drop 0x800).take 1280) (s.dbgMsg x) = true) : s.dbgCheck x = 0 := by
  simp [State.dbgCheck, e, f, g, h, h']
theorem wit_SecurityResult_accepted : State.reset.dbgForm (submission 1).buf = true ∧ fieldOf (submission 1).buf 1 1 = 255 ∧
    (submission 1).fresh = true ∧ fieldOf (submission 1).buf 0 1 = 1 ∧ State.reset.dbgForm (submission 2).buf = true ∧
    fieldOf (submission 2).buf 0 1 = 2 ∧ State.reset.dbgForm (submission 3).buf = true ∧ fieldOf (submission 3).buf 0 1 = 3 := by decide +kernel
theorem wit_DebugAccessStops : (mod [(MR.DEBUG_STATE, 2)]).rd MR.DEBUG_STATE = 2 ∧ (mod [(MR.DEBUG_STATE, 1)]).rd MR.DEBUG_STATE = 1 := by
  decide +kernel
/-- The input as far as a start has come. -/
def inputAt (f : Input → Input) : State := State.reset.updMd fun m => { m with input := f m.input }
theorem wit_InputResult : State.reset.md.input.failing = false ∧ State.reset.md.input.start = 0 ∧
    (inputAt fun x => { x with start := 3, uvFail := 4, hotPairs := [7], hotInlet := true }).md.input.start = 3 ∧ (43999 : Nat) < 44000 ∧
    4 ≤ (inputAt fun x => { x with start := 3, uvFail := 4, hotPairs := [7], hotInlet := true }).md.input.uvFail ∧
    7 ∈ (inputAt fun x => { x with start := 3, uvFail := 4, hotPairs := [7], hotInlet := true }).md.input.hotPairs ∧
    105 ≤ nth 0 [0, 0, 0, 0, 0, 0, 0, 105] 7 ∧ (648 : Int) ≤ (648 : BitVec 16).toInt ∧ (inputAt fun x => { x with failing := true }).md.input.failing = true ∧
    State.reset.md.pw.refLost = false ∧ (let s := State.reset.updMd fun m => { m with pw := { m.pw with refLost := true } }
      s.md.pw.refLost = true ∧ s.rd MR.REF_SOURCE_REQ = 0) := by decide +kernel
theorem wit_ManagementResult : devFieldsOk (0x7FFF00000000 : BitVec 64).toNat (32 : BitVec 8).toNat = true ∧
    inModuleWindow (0x7FFF00000000 : BitVec 64).toNat 32 = true ∧ devFieldsOk (2 ^ 48 - 1) 33 = false ∧ (run rsHalted).notReady = false ∧
    State.reset.notReady = true ∧ inModuleWindow 0x7FFF00010000 4 = false ∧ devFieldsOk 0x7FFF00010000 4 = true ∧
    (match State.reset.devRead mgmtWriter 0x7FFF00000000 4 with | (.ok _, _) => true | _ => false) = true ∧
    (match (run rsHalted).devWrite mgmtWriter (mdAddr MR.MASTER_NODE) [1, 0, 0, 0] with | (.ok _, _) => true | _ => false) = true ∧
    State.reset.inRecovery = false ∧ (0xCE0 : BitVec 32).toNat % 32 = 0 ∧
    (State.reset.updMd fun m => { m with fmStatus := [1], fmReset := [2] }).md.fmStatus ≠ [] := by decide +kernel

/-! ### The step, what every command keeps, single rules -/

theorem wit_IdleStepPassesOneCycle : State.reset.pending = [] ∧ (step State.reset |> fun o => match o with | .next s' => s'.now | _ => 0) = 1 := by
  decide +kernel
theorem wit_StepKeepsMemoryForm : let s := { isReadyAt true with pending := [.hbmWrite 3 0] }
    s.safe = true ∧ (match step s with | .next s' => s'.hbm | _ => []) = [(hbmSize - 64 + 63, 0)] ∨
    s.safe = true ∧ (match step s with | .next s' => decide (s'.now = s.now) | _ => false) = true := by decide +kernel
theorem wit_CommandsKeepQueueAndTime : (match exec (.hbmWrite 3 0) (isReadyAt true) with | .next _ => true | _ => false) = true := by
  decide +kernel
theorem wit_PowerCapSlews : clampTo 5000 27000 (State.reset.rd MR.POWER_CAP_W) = 27000 ∧ State.reset.md.pw.capMilli = 27000000 := by decide +kernel
theorem wit_RollbackResult : State.reset.rd MR.UPD_BUSY = 0 ∧ (run rsRunning).rd MR.RUN_STATE ≠ rsHalted ∧ (run rsHalted).rd MR.RUN_STATE = rsHalted ∧
    (run rsHalted).rd MR.IMAGE_ROLLBACK ≤ (run rsHalted).rollbackLevel ∧
    (let s := mod [(MR.IMAGE_ROLLBACK, 64), (MR.RUN_STATE, rsHalted)]
     s.rollbackLevel < s.rd MR.IMAGE_ROLLBACK ∧ s.rd MR.RUN_STATE = rsHalted) ∧
    (let s := State.reset.updMd fun m => { m with sec := { m.sec with commit := true } }
     s.md.sec.commit = true ∧ s.rollbackLevel ≤ s.rd MR.IMAGE_ROLLBACK) := by decide +kernel
/-- A module whose report of tick 5 waits for an ACK, or has one, when its window ends. -/
def reported (acked : Bool) : State := State.reset.updMd fun m => { m with reportDue := [(5, acked)] }
theorem wit_LateReport : (reported false).md.reportDue = [(5, false)] ∧ (reported false).rd MR.LATE_VALID = 0 ∧
    (reported true).md.reportDue = [(5, true)] ∧ ((reported false).wr MR.LATE_VALID 1).rd MR.LATE_VALID ≠ 0 := by decide +kernel
/-- R19 at the last core. -/
theorem wit_GlobalCoordinates : coreX (coreIn 55 71 71) = 575 ∧ coreY (coreIn 55 71 71) = 503 := by decide +kernel
end Sys2Proof.Tests
end

section
/-!
PROOFS. The grid of logical cores (R6, R19): a core's index determines its column, its row and its region, and the remap keeps
region and row.
-/
namespace Sys2Proof.Machine

/-! ### Index and position (R6) -/

theorem coreX_coreAt {x : Nat} (y : Nat) (hx : x < 576) : coreX (coreAt x y) = x :=
  Nat.mul_add_mod_of_lt hx

theorem coreY_coreAt {x : Nat} (y : Nat) (hx : x < 576) : coreY (coreAt x y) = y := by
  unfold coreY coreAt
  omega

/-! ### A local position within its region (R19) -/

/-- Eight regions of 72 columns fill a row of the grid. -/
theorem localColumn_lt (r : Nat) {i : Nat} (hi : i < 72) : r % 8 * 72 + i < 576 := by omega

theorem coreX_coreIn (r j : Nat) {i : Nat} (hi : i < 72) : coreX (coreIn r i j) = r % 8 * 72 + i :=
  coreX_coreAt _ (localColumn_lt r hi)

theorem coreY_coreIn (r j : Nat) {i : Nat} (hi : i < 72) : coreY (coreIn r i j) = r / 8 * 72 + j :=
  coreY_coreAt _ (localColumn_lt r hi)

theorem coreY_coreIn_mod (r : Nat) {i j : Nat} (hi : i < 72) (hj : j < 72) : coreY (coreIn r i j) % 72 = j := by
  rw [coreY_coreIn r j hi, Nat.mul_add_mod_of_lt hj]

theorem regionOf_coreIn (r : Nat) {i j : Nat} (hi : i < 72) (hj : j < 72) : regionOf (coreIn r i j) = r := by
  rw [regionOf, coreX_coreIn r j hi, coreY_coreIn r j hi]
  omega

/-! ### The physical core under any remap (R17, R19) -/

@[simp] theorem physOf_region (s : State) (n : Nat) : (s.physOf n).region = regionOf n := rfl

@[simp] theorem physOf_row (s : State) (n : Nat) : (s.physOf n).row = coreY n % 72 := rfl

/-- Settles O7: the index of the core splits back into region, column and row, and the remap in force chooses its physical column
only. -/
theorem globalCoordinates : Obligations.GlobalCoordinates := by
  intro rx ry i j hrx _ hi hj n
  have hcol : (8 * ry + rx) % 8 = rx := by omega
  have hrow : (8 * ry + rx) / 8 = ry := by omega
  have hregion : regionOf n = 8 * ry + rx := regionOf_coreIn _ hi hj
  refine ⟨?_, ?_, hregion, fun s => ⟨?_, ?_⟩⟩
  · rw [coreX_coreIn _ j hi, hcol]
  · rw [coreY_coreIn _ j hi, hrow]
  · rw [physOf_region, hregion]
  · rw [physOf_row, coreY_coreIn_mod _ hi hj]

end Sys2Proof.Machine
end

section
/-!
PROOFS. The reports of a tick that come too late (R329, R330): what counters, register lists, the LATE record and the MP log hold after
a write, and the end of a report window.
-/
namespace Sys2Proof.Machine

/-! ### Stores and register lists -/

theorem Sparse.mem_insertAt_self {α : Type} (m : Sparse α) (k : Nat) (v : α) : (k, v) ∈ Sparse.insertAt k v m := by
  induction m with
  | nil => simp [Sparse.insertAt]
  | cons e m ih =>
    obtain ⟨j, w⟩ := e
    unfold Sparse.insertAt
    split
    · exact List.mem_cons_self
    · exact List.mem_cons_of_mem _ ih

theorem Sparse.mem_put_self {α : Type} (m : Sparse α) (k : Nat) (v : α) : (k, v) ∈ m.put k v :=
  Sparse.mem_insertAt_self ..

/-- A list of writes leaves the fields at other places alone. -/
theorem Regs.rd_wrs_ne (r : Regs) {l : List (Fld × Nat)} {g : Fld} (h : ∀ f ∈ l.map Prod.fst, g.key ≠ f.key) :
    (r.wrs l).rd g = r.rd g := by
  induction l generalizing r with
  | nil => rfl
  | cons e l ih =>
    obtain ⟨he, hl⟩ := List.forall_mem_cons.1 h
    calc ((r.wr e.1 e.2).wrs l).rd g = (r.wr e.1 e.2).rd g := ih _ hl
      _ = r.rd g := Regs.rd_wr_ne _ _ he

/-- Writes of fields at different places: each field reads what the list gives it. -/
theorem Regs.rd_wrs_mem (r : Regs) {l : List (Fld × Nat)} (hd : (l.map Prod.fst).Pairwise fun f g => f.key ≠ g.key)
    {e : Fld × Nat} (he : e ∈ l) : (r.wrs l).rd e.1 = e.2 % 2 ^ e.1.w := by
  induction l generalizing r with
  | nil => cases he
  | cons e' l ih =>
    obtain ⟨hne, hd⟩ := List.pairwise_cons.1 hd
    rcases List.mem_cons.1 he with rfl | he
    · calc ((r.wr e.1 e.2).wrs l).rd e.1 = (r.wr e.1 e.2).rd e.1 := Regs.rd_wrs_ne _ hne
        _ = e.2 % 2 ^ e.1.w := Regs.rd_wr_self ..
    · exact ih _ hd he

/-- A counter whose flag stands elsewhere goes up by `k` and stays at its largest value (R14). -/
theorem Regs.rd_countSat (r : Regs) {f flag : Fld} (k : Nat) (h : f.key ≠ flag.key) :
    (r.countSat f flag k).rd f = satAdd f.w (r.rd f) k := by
  have hfits : satAdd f.w (r.rd f) k < 2 ^ f.w := by
    have : 0 < 2 ^ f.w := Nat.two_pow_pos _
    unfold satAdd
    omega
  have hcount : (r.count f k).rd f = satAdd f.w (r.rd f) k := (Regs.rd_wr_self ..).trans (Nat.mod_eq_of_lt hfits)
  simp only [Regs.countSat]
  split
  · rw [Regs.rd_wr_ne _ _ h, hcount]
  · exact hcount

theorem State.rd_wrs_ne (s : State) {l : List (Fld × Nat)} {g : Fld} (h : ∀ f ∈ l.map Prod.fst, g.key ≠ f.key) :
    (s.wrs l).rd g = s.rd g :=
  Regs.rd_wrs_ne _ h

theorem State.rd_wrs_mem (s : State) {l : List (Fld × Nat)} (hd : (l.map Prod.fst).Pairwise fun f g => f.key ≠ g.key)
    {e : Fld × Nat} (he : e ∈ l) : (s.wrs l).rd e.1 = e.2 % 2 ^ e.1.w :=
  Regs.rd_wrs_mem _ hd he

/-! ### The LATE record and its count (R329, R330) -/

/-- The fields of the LATE record. -/
def lateRecordFields : List Fld := [MR.LATE_VALID, MR.LATE_SELF, MR.LATE_MEMBER, MR.LATE_TICK, MR.LATE_ELAPSED_NS]

/-- What the record holds of a late report. -/
def lateRecord (self : Bool) (member tick elapsed : Nat) : List (Fld × Nat) :=
  [(MR.LATE_VALID, 1), (MR.LATE_SELF, b2n self), (MR.LATE_MEMBER, member), (MR.LATE_TICK, tick), (MR.LATE_ELAPSED_NS, elapsed)]

theorem lateRecordFields_pairwise : lateRecordFields.Pairwise fun f g => f.key ≠ g.key := by decide

/-- The count and its flag do not stand where the record does. -/
theorem lateRecordFields_ne_count : ∀ f ∈ lateRecordFields, f.key ≠ MR.REPORTS_LATE.key ∧ f.key ≠ MR.LATE_SAT.key := by decide

/-- The log's write index does not stand there either. -/
theorem lateRecordFields_ne_log : ∀ f ∈ lateRecordFields, f.key ≠ MR.LOG_WR.key := by decide

section
variable {s : State} {self : Bool} {member tick elapsed : Nat}

theorem lateRecord_fields : (lateRecord self member tick elapsed).map Prod.fst = lateRecordFields := rfl

theorem State.rd_countLate_ne (s : State) {g : Fld} (h : g.key ≠ MR.REPORTS_LATE.key) (h2 : g.key ≠ MR.LATE_SAT.key) :
    (s.countSat MR.REPORTS_LATE MR.LATE_SAT).rd g = s.rd g :=
  Regs.rd_countSat_ne _ _ h h2

theorem State.rd_countLate (s : State) :
    (s.countSat MR.REPORTS_LATE MR.LATE_SAT).rd MR.REPORTS_LATE = satAdd 16 (s.rd MR.REPORTS_LATE) 1 :=
  Regs.rd_countSat _ _ (by decide)

theorem State.noteLate_free (h : s.rd MR.LATE_VALID = 0) : s.noteLate self member tick elapsed =
    (s.countSat MR.REPORTS_LATE MR.LATE_SAT).wrs (lateRecord self member tick elapsed) :=
  if_pos ((s.rd_countLate_ne (by decide) (by decide)).trans h)

theorem State.noteLate_held (h : s.rd MR.LATE_VALID ≠ 0) :
    s.noteLate self member tick elapsed = s.countSat MR.REPORTS_LATE MR.LATE_SAT :=
  if_neg fun h0 => h ((s.rd_countLate_ne (by decide) (by decide)).symm.trans h0)

/-- A late report changes registers of the module only. -/
theorem State.noteLate_regs (s : State) (self : Bool) (member tick elapsed : Nat) :
    ∃ r, s.noteLate self member tick elapsed = s.updMd fun m => { m with regs := r } := by
  by_cases h : s.rd MR.LATE_VALID = 0
  · exact ⟨_, State.noteLate_free h⟩
  · exact ⟨_, State.noteLate_held h⟩

theorem State.rd_noteLate_ne {g : Fld} (hcount : g.key ≠ MR.REPORTS_LATE.key) (hsat : g.key ≠ MR.LATE_SAT.key)
    (hrecord : ∀ f ∈ lateRecordFields, g.key ≠ f.key) : (s.noteLate self member tick elapsed).rd g = s.rd g := by
  have hcounted := s.rd_countLate_ne hcount hsat
  by_cases hv : s.rd MR.LATE_VALID = 0
  · rw [State.noteLate_free hv]
    rw [← lateRecord_fields] at hrecord
    exact (State.rd_wrs_ne _ hrecord).trans hcounted
  · rwa [State.noteLate_held hv]

theorem State.rd_noteLate_count :
    (s.noteLate self member tick elapsed).rd MR.REPORTS_LATE = satAdd 16 (s.rd MR.REPORTS_LATE) 1 := by
  by_cases hv : s.rd MR.LATE_VALID = 0
  · rw [State.noteLate_free hv]
    refine (State.rd_wrs_ne _ ?_).trans s.rd_countLate
    rw [lateRecord_fields]
    exact fun f hf => (lateRecordFields_ne_count f hf).1.symm
  · rw [State.noteLate_held hv]
    exact s.rd_countLate

/-- A free record takes the report. -/
theorem State.rd_noteLate_free (h : s.rd MR.LATE_VALID = 0) {e : Fld × Nat} (he : e ∈ lateRecord self member tick elapsed) :
    (s.noteLate self member tick elapsed).rd e.1 = e.2 % 2 ^ e.1.w := by
  rw [State.noteLate_free h]
  exact State.rd_wrs_mem _ (lateRecord_fields ▸ lateRecordFields_pairwise) he

/-- A held record stays as it is. -/
theorem State.rd_noteLate_held (h : s.rd MR.LATE_VALID ≠ 0) {f : Fld} (hf : f ∈ lateRecordFields) :
    (s.noteLate self member tick elapsed).rd f = s.rd f := by
  obtain ⟨hcount, hsat⟩ := lateRecordFields_ne_count f hf
  rw [State.noteLate_held h]
  exact s.rd_countLate_ne hcount hsat

end

/-! ### The MP log (R379) -/

theorem State.rd_logFault_ne (s : State) (code level index : Nat) {g : Fld} (h : g.key ≠ MR.LOG_WR.key) :
    (s.logFault code level index).rd g = s.rd g :=
  State.rd_wr_ne _ _ h

theorem State.logged_logFault (s : State) (code level index : Nat) : s.logged (s.logFault code level index) 2 code 0 :=
  ⟨_, Sparse.mem_put_self .., rfl, rfl, rfl, rfl⟩

/-- A FAULT record changes the log and its write index only. -/
theorem State.logFault_md (s : State) (code level index : Nat) :
    ∃ r l, s.logFault code level index = s.updMd fun m => { m with regs := r, log := l } :=
  ⟨_, _, rfl⟩

/-! ### The end of a report window (R330) -/

/-- The module with `l` for the reports whose windows are still open. -/
def State.windowsLeft (s : State) (l : List (Nat × Bool)) : State := s.updMd fun m => { m with reportDue := l }

/-- The module notes that its own report of `tick` went without an ACK. -/
def State.reportLate (s : State) (tick : Nat) : State :=
  (s.noteLate true s.groupIndex tick 0xFFFFFFFF).logFault logTickReportLate 3 0

theorem exec_reportWindowExpiry_acked {s : State} {tick : Nat} {l : List (Nat × Bool)} (h : s.md.reportDue = (tick, true) :: l) :
    exec .reportWindowExpiry s = .next (s.windowsLeft l) := by
  show execReportWindowExpiry s = _
  simp only [execReportWindowExpiry, h]
  rfl

theorem exec_reportWindowExpiry_late {s : State} {tick : Nat} {l : List (Nat × Bool)} (h : s.md.reportDue = (tick, false) :: l) :
    exec .reportWindowExpiry s = .next ((s.windowsLeft l).reportLate tick) := by
  show execReportWindowExpiry s = _
  simp only [execReportWindowExpiry, h]
  rfl

theorem State.reportLate_md (s : State) (tick : Nat) :
    ∃ r l, s.reportLate tick = s.updMd fun m => { m with regs := r, log := l } := by
  obtain ⟨r, hr⟩ := s.noteLate_regs true s.groupIndex tick 0xFFFFFFFF
  obtain ⟨r', l, hl⟩ := (s.noteLate true s.groupIndex tick 0xFFFFFFFF).logFault_md logTickReportLate 3 0
  exact ⟨r', l, by rw [State.reportLate, hl, hr]; rfl⟩

/-- The log's write index is none of the fields of a late report. -/
theorem State.rd_reportLate (s : State) (tick : Nat) {g : Fld} (h : g.key ≠ MR.LOG_WR.key) :
    (s.reportLate tick).rd g = (s.noteLate true s.groupIndex tick 0xFFFFFFFF).rd g :=
  State.rd_logFault_ne _ _ _ _ h

theorem State.logged_reportLate (s : State) (tick : Nat) : s.logged (s.reportLate tick) 2 logTickReportLate 0 := by
  have hwr : (s.noteLate true s.groupIndex tick 0xFFFFFFFF).rd MR.LOG_WR = s.rd MR.LOG_WR :=
    State.rd_noteLate_ne (by decide) (by decide) (by decide)
  have hlog := (s.noteLate true s.groupIndex tick 0xFFFFFFFF).logged_logFault logTickReportLate 3 0
  rwa [State.logged, hwr] at hlog

theorem State.rd_reportLate_ne (s : State) (tick : Nat) {g : Fld} (hcount : g.key ≠ MR.REPORTS_LATE.key)
    (hsat : g.key ≠ MR.LATE_SAT.key) (hrecord : ∀ f ∈ lateRecordFields, g.key ≠ f.key) (hlog : g.key ≠ MR.LOG_WR.key) :
    (s.reportLate tick).rd g = s.rd g :=
  (s.rd_reportLate tick hlog).trans (State.rd_noteLate_ne hcount hsat hrecord)

theorem State.rd_reportLate_count (s : State) (tick : Nat) :
    (s.reportLate tick).rd MR.REPORTS_LATE = satAdd 16 (s.rd MR.REPORTS_LATE) 1 :=
  (s.rd_reportLate tick (by decide)).trans State.rd_noteLate_count

theorem State.rd_reportLate_free {s : State} (tick : Nat) (h : s.rd MR.LATE_VALID = 0) :
    ∀ e ∈ lateRecord true s.groupIndex tick 0xFFFFFFFF, (s.reportLate tick).rd e.1 = e.2 % 2 ^ e.1.w :=
  fun _ he => (s.rd_reportLate tick (lateRecordFields_ne_log _ (List.mem_map_of_mem he))).trans (State.rd_noteLate_free h he)

theorem State.rd_reportLate_held {s : State} (tick : Nat) (h : s.rd MR.LATE_VALID ≠ 0) {f : Fld} (hf : f ∈ lateRecordFields) :
    (s.reportLate tick).rd f = s.rd f :=
  (s.rd_reportLate tick (lateRecordFields_ne_log f hf)).trans (State.rd_noteLate_held h hf)

/-- Settles O10: the window's end takes the oldest report from those due, and without an ACK notes it as late (`State.reportLate`),
whose count, record and log are read one by one. -/
theorem lateReport : Obligations.LateReport := by
  intro tick acked l s hdue
  refine ⟨?_, ?_⟩
  · rintro rfl
    obtain ⟨r, log, hmd⟩ := (s.windowsLeft l).reportLate_md tick
    refine ⟨_, exec_reportWindowExpiry_late hdue, by rw [hmd]; rfl, by rw [hmd]; rfl, ?_, State.rd_reportLate_count _ tick,
      State.logged_reportLate _ tick, ?_, ?_⟩
    · intro f hf
      simp only [List.forall_mem_cons] at hf
      obtain ⟨hcount, hsat, hvalid, hself, hmember, htick, helapsed, hlog, -⟩ := hf
      have hrecord : ∀ g ∈ lateRecordFields, f.key ≠ g.key := by
        simp [lateRecordFields, hvalid, hself, hmember, htick, helapsed]
      exact State.rd_reportLate_ne _ tick hcount hsat hrecord hlog
    · intro hfree
      have hrecord := State.rd_reportLate_free (s := s.windowsLeft l) tick hfree
      simp only [lateRecord, List.forall_mem_cons] at hrecord
      obtain ⟨hvalid, hself, hmember, htick, helapsed, -⟩ := hrecord
      exact ⟨hvalid, hself, htick, hmember, helapsed⟩
    · intro hheld f hf
      exact State.rd_reportLate_held (s := s.windowsLeft l) tick hheld hf
  · rintro rfl
    exact ⟨_, exec_reportWindowExpiry_acked hdue, rfl, rfl⟩

end Sys2Proof.Machine
end

section
/-!
PROOFS. The power cap and its slew (R364).
-/
namespace Sys2Proof.Machine

/-- A write of a module register changes no other register and nothing else. -/
theorem State.onlyMdRegs_wr (s : State) (f : Fld) (v : Nat) : s.onlyMdRegs (s.wr f v) [f] :=
  ⟨rfl, fun _ h => State.rd_wr_ne s v (h f List.mem_cons_self)⟩

/-! ### One microsecond of the slew (R364) -/

/-- CAP_EFF in mW one microsecond later: W per ms are mW per µs, so the clamped CAP_SLEW_W is the step toward the clamped cap. -/
def State.slewedCap (s : State) : Nat :=
  let want := 1000 * clampTo 5000 27000 (s.rd MR.POWER_CAP_W)
  let slew := clampTo 100 27000 (s.rd MR.CAP_SLEW_W)
  if s.md.pw.capMilli < want then min want (s.md.pw.capMilli + slew) else max want (s.md.pw.capMilli - slew)

/-- The module with `cap` mW for the cap in force; CAP_EFF_W shows it in whole watts. -/
def State.capMoved (s : State) (cap : Nat) : State :=
  (s.updMd fun m => { m with pw := { m.pw with capMilli := cap } }).wr MR.CAP_EFF_W (cap / 1000)

theorem State.onlyMd_capMoved (s : State) (cap : Nat) : s.onlyMd (s.capMoved cap) := rfl

theorem State.capMilli_capMoved (s : State) (cap : Nat) : (s.capMoved cap).md.pw.capMilli = cap := rfl

theorem State.rd_capMoved_capEff (s : State) (cap : Nat) : (s.capMoved cap).rd MR.CAP_EFF_W = cap / 1000 % 2 ^ 16 :=
  State.rd_wr ..

theorem exec_powerCapWrite (v : BitVec 16) (s : State) : exec (.powerCapWrite v) s = .next (s.wr MR.POWER_CAP_W v.toNat) := rfl

theorem exec_capSlewUpdate (s : State) : exec .capSlewUpdate s = .next (s.capMoved s.slewedCap) := rfl

/-- POWER_CAP_W is as wide as the word written. -/
theorem State.rd_powerCapWritten (s : State) (v : BitVec 16) : (s.wr MR.POWER_CAP_W v.toNat).rd MR.POWER_CAP_W = v.toNat :=
  (State.rd_wr ..).trans (Nat.mod_eq_of_lt v.isLt)

/-- Settles O8: a write stores the value in POWER_CAP_W alone, and a microsecond moves the cap in force to `State.slewedCap`. -/
theorem powerCapSlews : Obligations.PowerCapSlews := by
  intro s
  refine ⟨fun v => ?_, ?_⟩
  · exact ⟨_, exec_powerCapWrite v s, s.onlyMdRegs_wr _ _, s.rd_powerCapWritten v⟩
  · refine ⟨_, exec_capSlewUpdate s, s.onlyMd_capMoved _, s.capMilli_capMoved _, ?_⟩
    rw [State.capMilli_capMoved, State.rd_capMoved_capEff]

end Sys2Proof.Machine
end

section
/-!
PROOFS. The module's identity, fuses and flash (`Sec`, 15) stay as they are through register writes, mesh traffic, aborts, bezel
changes and the resets of cores, regions and hubs (R391).
-/
namespace Sys2Proof.Machine

/-! ### Folds -/

/-- What every step of a fold keeps, the fold keeps. -/
theorem foldl_keeps {σ α β : Type} (π : σ → β) {f : σ → α → σ} (hf : ∀ x a, π (f x a) = π x) (l : List α) (x : σ) :
    π (l.foldl f x) = π x := by
  induction l generalizing x with
  | nil => rfl
  | cons a l ih => exact (ih _).trans (hf x a)

theorem State.foldl_sec {α : Type} {f : State → α → State} (hf : ∀ s a, (f s a).md.sec = s.md.sec) (l : List α) (s : State) :
    (l.foldl f s).md.sec = s.md.sec :=
  foldl_keeps (fun s : State => s.md.sec) hf l s

/-- The same of a fold that answers a value beside the state. -/
theorem State.foldl_snd_sec {α β : Type} {f : β × State → α → β × State} (hf : ∀ r a, (f r a).2.md.sec = r.2.md.sec) (l : List α)
    (r : β × State) : (l.foldl f r).2.md.sec = r.2.md.sec :=
  foldl_keeps (fun r : β × State => r.2.md.sec) hf l r

/-! ### Registers, log and counters of the module -/

@[simp] theorem State.wr_sec (s : State) (f : Fld) (v : Nat) : (s.wr f v).md.sec = s.md.sec := rfl
@[simp] theorem State.wrs_sec (s : State) (l : List (Fld × Nat)) : (s.wrs l).md.sec = s.md.sec := rfl
@[simp] theorem State.updQp_sec (s : State) (q : Nat) (f : Qp → Qp) : (s.updQp q f).md.sec = s.md.sec := rfl
@[simp] theorem State.logRec_sec (s : State) (k c r lv i d : Nat) : (s.logRec k c r lv i d).md.sec = s.md.sec := rfl
@[simp] theorem State.noteReset_sec (s : State) (d i c : Nat) : (s.noteReset d i c).md.sec = s.md.sec := rfl
@[simp] theorem State.fmNotice_sec (s : State) : s.fmNotice.md.sec = s.md.sec := rfl
@[simp] theorem State.postEvent_sec (s : State) (bs : List Byte) : (s.postEvent bs).md.sec = s.md.sec := rfl
@[simp] theorem State.setDom_sec (s : State) (d v : Nat) : (s.setDom d v).md.sec = s.md.sec := rfl
@[simp] theorem State.domAdd_sec (s : State) (d : Nat) (on : Bool) : (s.domAdd d on).md.sec = s.md.sec := rfl

theorem State.wrBytes_sec (s : State) (f : Fld) (bs : List Byte) : (s.wrBytes f bs).md.sec = s.md.sec :=
  State.foldl_sec (fun s _ => s.wr_sec ..) _ s

theorem State.addrFault_sec (s : State) (a : Nat) (who : Requester) (why : Cause) (id : Nat) :
    (s.addrFault a who why id).md.sec = s.md.sec := by
  unfold State.addrFault
  dsimp only
  split <;> rfl

theorem State.agentFault_sec (s : State) (own : Option Nat) (a : Nat) : (s.agentFault own a).md.sec = s.md.sec := by
  cases own <;> exact s.addrFault_sec ..

theorem State.markTopo_sec (s : State) : s.markTopo.md.sec = s.md.sec := by
  unfold State.markTopo
  split <;> rfl

/-! ### Counters and registers of the hubs -/

@[simp] theorem State.hubCount_sec (s : State) (h : Nat) (f : Fld) (k : Nat) : (s.hubCount h f k).md.sec = s.md.sec := rfl
@[simp] theorem State.portWr_sec (s : State) (p : Nat) (f : Fld) (v : Nat) : (s.portWr p f v).md.sec = s.md.sec := rfl
@[simp] theorem State.downCount_sec (s : State) (p : Nat) : (s.downCount p).md.sec = s.md.sec := rfl
@[simp] theorem State.setTx_sec (s : State) (h : Nat) (f : TxFlow) : (s.setTx h f).md.sec = s.md.sec := rfl

/-! ### Control messages and the mesh -/

theorem State.ctrlArrive_sec (s : State) (m : Ctrl) : (s.ctrlArrive m).md.sec = s.md.sec := by
  unfold State.ctrlArrive
  split <;> rfl

theorem State.updLink_sec (s : State) (e : LinkEnd) (f : Link → Link) : (s.updLink e f).md.sec = s.md.sec := by
  cases e <;> rfl

theorem State.hubPump_sec (s : State) (h k n : Nat) : (s.hubPump h k n).md.sec = s.md.sec := by
  induction n generalizing s with
  | zero => exact s.updLink_sec ..
  | succ n ih =>
    unfold State.hubPump
    split
    · exact s.updLink_sec ..
    · exact (ih _).trans (State.updLink_sec ..)

theorem State.hubSend_sec (s : State) (h dest : Nat) (p : Payload) : (s.hubSend h dest p).md.sec = s.md.sec := by
  unfold State.hubSend
  split
  · rfl
  · exact State.hubPump_sec ..

theorem State.toRegion_sec (s : State) (r : Nat) (b : CtrlBody) : (s.toRegion r b).md.sec = s.md.sec := by
  unfold State.toRegion
  split
  · exact s.ctrlArrive_sec _
  · exact s.hubSend_sec ..

theorem State.sink_sec (s : State) (p : Payload) : (s.sink p).md.sec = s.md.sec := by
  unfold State.sink
  split
  · exact s.ctrlArrive_sec _
  · rfl
  · rfl

theorem State.answer_sec (s : State) (h : Nat) (q : MReq) (r : Reply) : (s.answer h q r).md.sec = s.md.sec := by
  unfold State.answer
  split
  · exact s.sink_sec _
  · exact s.hubSend_sec ..

theorem State.farWaits_sec (s : State) (q : MReq) (f : Thread → Thread) : (s.farWaits q f).md.sec = s.md.sec := by
  unfold State.farWaits
  split <;> rfl

/-! ### Aborts -/

theorem State.sendAbort_sec (s : State) (a : AbortMsg) : (s.sendAbort a).md.sec = s.md.sec := by
  unfold State.sendAbort
  split <;> rfl

theorem State.unitFault_sec (s : State) (n : Nat) (i : FaultInfo) : (s.unitFault n i).md.sec = s.md.sec :=
  State.sendAbort_sec ..

theorem State.beginAbort_sec (s : State) (a : AbortMsg) : (s.beginAbort a).md.sec = s.md.sec := by
  unfold State.beginAbort
  dsimp only
  split
  · split <;> rfl
  · split
    · rfl
    · split
      · exact State.foldl_sec (fun s r => s.toRegion_sec r .abort) _ _
      · rfl

theorem State.abortForReset_sec (s : State) (i : Nat) : (s.abortForReset i).md.sec = s.md.sec := by
  unfold State.abortForReset
  split
  · exact s.beginAbort_sec _
  · rfl

/-! ### Bezels -/

theorem State.laneSend_sec (s : State) (n d : Nat) (m : LaneMsg) : (s.laneSend n d m).md.sec = s.md.sec := by
  unfold State.laneSend
  split <;> rfl

theorem State.bzNotify_sec (s : State) (n b gen : Nat) (opened : Bool) : (s.bzNotify n b gen opened).md.sec = s.md.sec :=
  State.foldl_sec (fun s d => s.laneSend_sec n d _) _ s

theorem State.orphans_sec (s : State) (n : Nat) : (s.orphans n).md.sec = s.md.sec :=
  State.foldl_sec (fun s _ => s.unitFault_sec n _) _ _

theorem State.bzDoOpen_sec (s : State) (n b base len mask : Nat) : (s.bzDoOpen n b base len mask).md.sec = s.md.sec := by
  unfold State.bzDoOpen
  rw [State.orphans_sec, State.bzNotify_sec, State.updCore_md]

theorem State.bzNext_sec (s : State) (n b k : Nat) : (s.bzNext n b k).md.sec = s.md.sec := by
  induction k generalizing s with
  | zero => rfl
  | succ k ih =>
    unfold State.bzNext
    dsimp only
    split
    · refine (ih _).trans ?_
      split
      · exact State.bzNotify_sec ..
      · exact State.bzDoOpen_sec ..
    · rfl

theorem State.bzRestart_sec (s : State) (n b : Nat) :  (s.bzRestart n b).md.sec = s.md.sec := by
  unfold State.bzRestart State.bzQueue
  rw [State.bzNext_sec, State.updCore_md, State.updCore_md]

theorem State.bzAbort_sec (s : State) (n : Nat) : (s.bzAbort n).md.sec = s.md.sec := by
  unfold State.bzAbort
  rw [State.orphans_sec, State.foldl_sec fun s b => s.bzRestart_sec n b]

/-! ### Resets of cores, regions and hubs -/

theorem State.resetCore_sec (s : State) (n : Nat) : (s.resetCore n).md.sec = s.md.sec := by
  unfold State.resetCore
  rw [State.bzAbort_sec, State.updCore_md]

theorem State.resetRegion_sec (s : State) (r : Nat) : (s.resetRegion r).md.sec = s.md.sec := by
  show (s.cores.foldl (fun s e => if regionOf e.1 = r then s.resetCore e.1 else s) s).md.sec = _
  refine State.foldl_sec (fun s e => ?_) _ s
  split
  · exact s.resetCore_sec _
  · rfl

theorem State.resetHub_sec (s : State) (h : Nat) : (s.resetHub h).md.sec = s.md.sec := by
  refine State.foldl_sec (fun s x => ?_) (s.hub h).held _
  split
  · exact (State.answer_sec ..).trans (State.farWaits_sec ..)
  · rfl

end Sys2Proof.Machine
end

section
/-!
PROOFS. The module's identity, fuses and flash (`Sec`, 15) stay as they are through memory accesses, queue pairs, rings and flows (11,
12), through requests of power domains (13), and through stage reports and RECOVERY (14).
-/
namespace Sys2Proof.Machine

/-- Both branches of a choice keep `Sec`. -/
theorem State.ite_snd_sec {β : Type} {c : Prop} [Decidable c] {a b : β × State} {x : Sec} (ha : a.2.md.sec = x) (hb : b.2.md.sec = x) :
    (if c then a else b).2.md.sec = x := by
  split
  · exact ha
  · exact hb

/-! ### Reads and writes of HBM -/

theorem State.hbmRead_sec (s : State) (pa : Nat) (w : Bool) : (s.hbmRead pa w).2.md.sec = s.md.sec := by
  unfold State.hbmRead
  dsimp only
  split
  · rfl
  · split
    · rfl
    · split <;> rfl

theorem State.rangeRead_sec (s : State) (a len : Nat) : (s.rangeRead a len).2.md.sec = s.md.sec := by
  refine State.foldl_snd_sec (fun r b => ?_) _ (some [], s)
  obtain ⟨acc, s⟩ := r
  cases acc with
  | none => rfl
  | some acc =>
    dsimp only
    split
    · next h => exact (h ▸ s.hbmRead_sec (64 * b) false :)
    · next h => exact (h ▸ s.hbmRead_sec (64 * b) false :)

theorem State.hbmWrite_sec (s : State) (pa : Nat) (row : Row) (mask : Nat) : (s.hbmWrite pa row mask).2.md.sec = s.md.sec := by
  unfold State.hbmWrite
  dsimp only
  split
  · rfl
  · split
    · rfl
    · split
      · next h => exact (h ▸ s.hbmRead_sec pa true :)
      · next h => exact (h ▸ s.hbmRead_sec pa true :)

theorem State.rangeWrite_sec (s : State) (a : Nat) (bs : List Byte) : (s.rangeWrite a bs).2.md.sec = s.md.sec := by
  refine State.foldl_snd_sec (fun r b => ?_) _ (true, s)
  exact r.2.hbmWrite_sec ..

theorem State.mpWrite_sec (s : State) (a : Nat) (bs : List Byte) (own : Option Nat) : (s.mpWrite a bs own).2.md.sec = s.md.sec := by
  unfold State.mpWrite
  split
  · exact s.agentFault_sec ..
  · exact s.rangeWrite_sec ..

/-! ### Translation -/

theorem State.walkFrom_sec (s : State) (va : Nat) (w host : Bool) (n level t reads : Nat) (l3 : Option Nat) :
    (s.walkFrom va w host n level t reads l3).2.md.sec = s.md.sec := by
  induction n generalizing s level t reads l3 with
  | zero => rfl
  | succ n ih =>
    have hread := s.rangeRead_sec (t + entryOff va level) 8
    unfold State.walkFrom
    dsimp only
    split
    · next h => rwa [h] at hread
    · next h =>
      rw [h] at hread
      refine State.ite_snd_sec hread <| State.ite_snd_sec hread <| State.ite_snd_sec ?_ <| State.ite_snd_sec ?_ <|
        State.ite_snd_sec hread <| State.ite_snd_sec hread <| (ih ..).trans hread
      · exact State.ite_snd_sec hread hread
      · exact State.ite_snd_sec hread hread

theorem State.walk_sec (s : State) (h va : Nat) (w host : Bool) : (s.walk h va w host).2.md.sec = s.md.sec := by
  unfold State.walk
  dsimp only [State.updHub_md]
  split
  · exact s.walkFrom_sec ..
  · split
    · rfl
    · exact s.walkFrom_sec ..

theorem State.translate_sec (s : State) (h va : Nat) (w host : Bool) : (s.translate h va w host).2.md.sec = s.md.sec := by
  unfold State.translate
  split
  · rfl
  · exact State.walk_sec ..

theorem State.agentTrans_sec (s : State) (b : Nat) (w host : Bool) (own : Nat) : (s.agentTrans b w host own).2.md.sec = s.md.sec := by
  have ht := s.translate_sec (hubOf (64 * b)) (64 * b % 2 ^ 48) w host
  unfold State.agentTrans
  split
  · next h =>
    rw [h] at ht
    refine State.ite_snd_sec ?_ ht
    dsimp only
    split
    · exact ht
    · exact (State.agentFault_sec ..).trans ht
  · exact ht

theorem State.vCheck_sec (s : State) (va len : Nat) (w host : Bool) (own : Nat) : (s.vCheck va len w host own).2.md.sec = s.md.sec := by
  refine State.foldl_snd_sec (fun r b => ?_) _ (none, s)
  obtain ⟨t, s⟩ := r
  cases t with
  | some t => rfl
  | none =>
    have ht := s.agentTrans_sec b w host own
    dsimp only
    split
    · next h => rwa [h] at ht
    · next h => rwa [h] at ht

theorem State.vWrite_sec (s : State) (va : Nat) (bs : List Byte) (host : Bool) (own : Nat) :
    (s.vWrite va bs host own).2.md.sec = s.md.sec := by
  refine State.foldl_snd_sec (fun r b => ?_) _ (VRes.ok [], s)
  split
  · rfl
  · next s _ =>
    have ht := s.agentTrans_sec b true host own
    split
    · next h =>
      rw [h] at ht
      exact (State.hbmWrite_sec ..).trans ht
    · next h => rwa [h] at ht

/-! ### Queue pairs, flows and rings -/

theorem State.sendNotice_sec (s : State) (q imm : Nat) : (s.sendNotice q imm).md.sec = s.md.sec := by
  unfold State.sendNotice
  split <;> rfl

theorem State.qpAnswer_sec (s : State) (q : Nat) (r : QpReq) (pmtu msn : Nat) : (s.qpAnswer q r pmtu msn).md.sec = s.md.sec := by
  unfold State.qpAnswer
  split
  · exact State.foldl_sec (fun s _ => congrArg Module.sec (s.emit_md _)) _ s
  · rfl

theorem State.qpDrain_sec (s : State) (q n : Nat) : (s.qpDrain q n).md.sec = s.md.sec := by
  induction n generalizing s with
  | zero => rfl
  | succ n ih =>
    unfold State.qpDrain
    dsimp only
    split
    · rfl
    · split
      · rfl
      · split
        · rw [ih, State.qpAnswer_sec, State.updQp_sec]
        · rfl

theorem State.qpLost_sec (s : State) (q node : Nat) : (s.qpLost q node).md.sec = s.md.sec := by
  unfold State.qpLost State.qpRun
  dsimp only
  split
  · rw [State.qpDrain_sec, State.updQp_sec]
  · rfl

theorem State.peerUnreachable_sec (s : State) (h node flow : Nat) : (s.peerUnreachable h node flow).md.sec = s.md.sec := by
  have hrecorded (s1 : State) (h1 : s1.md.sec = s.md.sec) :
      (if 0x1000 ≤ flow then s1.qpLost (flow - 0x1000) node else s1).md.sec = s.md.sec := by
    split
    · rw [State.qpLost_sec, h1]
    · exact h1
  unfold State.peerUnreachable
  dsimp only
  rw [apply_ite (fun s : State => s.md.sec), State.postEvent_sec, ite_self]
  refine hrecorded _ ?_
  rw [State.sendAbort_sec]
  split <;> rfl

theorem State.sendPacket_sec (s : State) (h p node flow : Nat) (bs : List Byte) : (s.sendPacket h p node flow bs).md.sec = s.md.sec := by
  unfold State.sendPacket
  split <;> rfl

theorem State.transmit_sec (s : State) (h : Nat) (f : TxFlow) (k : TxPkt) (retx : Bool) (mask : Nat) :
    (s.transmit h f k retx mask).md.sec = s.md.sec := by
  unfold State.transmit
  dsimp only
  rw [apply_ite (fun s : State => s.md.sec), State.hubCount_sec, ite_self, State.sendPacket_sec]

theorem State.pump_sec (s : State) (h node flow n : Nat) : (s.pump h node flow n).md.sec = s.md.sec := by
  induction n generalizing s with
  | zero => rfl
  | succ n ih =>
    unfold State.pump
    split
    · rfl
    · split
      · rfl
      · split
        · rw [ih, State.transmit_sec, State.setTx_sec]
        · rfl

theorem State.noteTable_sec (s : State) (h a len : Nat) : (s.noteTable h a len).md.sec = s.md.sec := by
  unfold State.noteTable
  split
  · exact s.agentFault_sec ..
  · rfl

theorem State.netSend_sec (s : State) (h node flow : Nat) (m : TxMsg) : (s.netSend h node flow m).md.sec = s.md.sec := by
  unfold State.netSend
  split
  · rfl
  · split
    · rw [State.peerUnreachable_sec]
      split
      · exact s.noteTable_sec ..
      · rfl
    · rw [State.pump_sec, State.setTx_sec]

theorem State.notify_sec (s : State) (h r qp : Nat) : (s.notify h r qp).md.sec = s.md.sec := by
  unfold State.notify
  dsimp only
  split
  · exact s.sendNotice_sec ..
  · exact s.netSend_sec ..

/-- A record that passed its checks is written, its tail moved, and its reader told. -/
theorem State.ringPost_sec (s : State) (r tag : Nat) (msg : List Byte) : (s.ringPost r tag msg).2.md.sec = s.md.sec := by
  unfold State.ringPost
  dsimp only
  split
  · rw [State.hubCount_sec, State.noteTable_sec]
  · refine State.ite_snd_sec rfl <| State.ite_snd_sec rfl <| State.ite_snd_sec rfl ?_
    next g _ =>
    split
    · next hc => exact (hc ▸ s.vCheck_sec _ _ _ _ _ :)
    · next s1 hc =>
      have hs1 : s1.md.sec = s.md.sec := (hc ▸ s.vCheck_sec _ _ _ _ _ :)
      dsimp only
      rw [apply_ite (fun s : State => s.md.sec), State.notify_sec, ite_self, State.mpWrite_sec, State.vWrite_sec]
      exact State.ite_snd_sec ((State.vWrite_sec ..).trans hs1) hs1

theorem State.ringStep_sec {s s1 : State} (h : s.ringStep = some s1) : s1.md.sec = s.md.sec := by
  unfold State.ringStep at h
  dsimp only at h
  split at h
  · cases h
  · obtain ⟨-, hposted⟩ := Option.ite_none_left_eq_some.1 h
    cases Option.some.inj hposted
    split <;> exact State.ringPost_sec ..

theorem State.ringDrain_sec (s : State) (n : Nat) : (s.ringDrain n).md.sec = s.md.sec := by
  induction n generalizing s with
  | zero => rfl
  | succ n ih =>
    unfold State.ringDrain
    split
    · next h => exact (ih _).trans (State.ringStep_sec h)
    · rfl

theorem State.ringRun_sec (s : State) : s.ringRun.md.sec = s.md.sec :=
  s.ringDrain_sec _

/-! ### Messages to the fabric manager, stage reports -/

theorem State.fmSend_sec (s : State) (body : List Byte) : (s.fmSend body).md.sec = s.md.sec := by
  unfold State.fmSend State.send
  dsimp only
  split
  · split
    · rw [State.ringRun_sec]; rfl
    · rfl
  · rw [State.ringRun_sec, State.netSend_sec]

theorem State.sendResetReport_sec (s : State) (domain cause gen index : Nat) :
    (s.sendResetReport domain cause gen index).md.sec = s.md.sec := by
  unfold State.sendResetReport
  dsimp only
  split
  · rw [State.fmSend_sec, State.fmNotice_sec]; rfl
  · rfl

theorem State.sendStatus_sec (s : State) : s.sendStatus.md.sec = s.md.sec := by
  unfold State.sendStatus
  dsimp only
  split
  · rw [State.fmSend_sec, State.fmNotice_sec]; rfl
  · rfl

theorem State.report_sec (s : State) (k result detail : Nat) : (s.report k result detail).md.sec = s.md.sec := by
  unfold State.report
  rw [State.sendStatus_sec, State.wrs_sec, State.logRec_sec]

theorem State.failStage_sec (s : State) (k detail : Nat) : (s.failStage k detail).md.sec = s.md.sec := by
  unfold State.failStage
  rw [State.report_sec, State.wrs_sec]

/-! ### Links and power domains -/

theorem State.changeSource_sec (s : State) (dest : Nat) : (s.changeSource dest).md.sec = s.md.sec := by
  unfold State.changeSource
  dsimp only
  split
  · rfl
  · rw [State.foldl_sec fun s r => congrArg Module.sec (s.updRegion_md r _)]; rfl

theorem State.toChassis_sec (s : State) : s.toChassis.md.sec = s.md.sec := by
  unfold State.toChassis
  dsimp only
  split
  · rfl
  · rw [State.changeSource_sec, State.wr_sec, State.wr_sec]

theorem State.refPort_sec (s : State) (p : Nat) (up : Bool) : (s.refPort p up).md.sec = s.md.sec := by
  unfold State.refPort
  split
  · rfl
  · split
    · rfl
    · exact s.toChassis_sec

theorem State.onPort_sec (s : State) (h p : Nat) (f : TxFlow) : (s.onPort h p f).md.sec = s.md.sec := by
  unfold State.onPort
  dsimp only
  rw [State.foldl_sec fun s k => s.transmit_sec .., State.setTx_sec]

theorem State.rebind_sec (s : State) (p : Nat) : (s.rebind p).md.sec = s.md.sec := by
  refine State.foldl_sec (fun s f => ?_) _ s
  dsimp only
  split
  · exact s.onPort_sec ..
  · exact s.peerUnreachable_sec ..

theorem State.linkDown_sec (s : State) (p state : Nat) : (s.linkDown p state).md.sec = s.md.sec := by
  unfold State.linkDown
  dsimp only
  rw [State.ringRun_sec, State.refPort_sec, State.rebind_sec, State.downCount_sec, State.markTopo_sec, State.portWr_sec,
    State.portWr_sec, State.portWr_sec]

theorem State.portOff_sec (s : State) (p : Nat) : (s.portOff p).md.sec = s.md.sec := by
  unfold State.portOff
  split
  · exact s.linkDown_sec ..
  · rfl

theorem State.rampDown_sec (s : State) (d : Nat) : (s.rampDown d).md.sec = s.md.sec := by
  unfold State.rampDown
  dsimp only
  split
  · rw [State.foldl_sec fun s p => s.portOff_sec p, State.setDom_sec]
  · rfl

theorem State.domTry_sec {s s1 : State} {d : Nat} {on : Bool} (h : s.domTry d on = some s1) : s1.md.sec = s.md.sec := by
  unfold State.domTry at h
  dsimp only at h
  split at h
  · split at h
    · split at h
      · cases h; rfl
      · cases h
    · split at h <;> cases h <;> rfl
  · split at h
    · split at h
      · cases h; exact s.rampDown_sec d
      · cases h
    · split at h
      · cases h; exact s.rampDown_sec d
      · cases h; rfl

theorem State.domLook_sec (s : State) : s.domLook.md.sec = s.md.sec := by
  unfold State.domLook
  dsimp only
  rw [State.foldl_sec]
  · rfl
  · intro s x
    split
    · next h => exact State.domTry_sec h
    · rfl

theorem State.domRequest_sec (s : State) (d : Nat) (on : Bool) : (s.domRequest d on).md.sec = s.md.sec := by
  unfold State.domRequest
  split
  · rfl
  · rw [State.domLook_sec, State.foldl_sec fun s x => s.domAdd_sec x on]

theorem State.trainPort_sec (s : State) (p : Nat) : (s.trainPort p).md.sec = s.md.sec := by
  unfold State.trainPort
  split <;> rfl

/-! ### Stages of the start -/

theorem State.beginStage_sec (s : State) (k : Nat) : (s.beginStage k).md.sec = s.md.sec := by
  have hon (s : State) (d : Nat) : (if s.dom d = domFailed then s else s.domRequest d true).md.sec = s.md.sec := by
    split
    · rfl
    · exact s.domRequest_sec d true
  have htrain (s : State) (p : Nat) : (if s.portRd p PR.LINK_UP = 1 then s else s.trainPort p).md.sec = s.md.sec := by
    split
    · rfl
    · exact s.trainPort_sec p
  unfold State.beginStage
  dsimp only
  split
  · rw [State.foldl_sec htrain, State.foldl_sec hon, State.wrs_sec]
  · rw [State.foldl_sec hon, State.wrs_sec]

theorem State.endStage_sec (s : State) (k result detail : Nat) : (s.endStage k result detail).md.sec = s.md.sec := by
  unfold State.endStage
  rw [State.beginStage_sec, State.report_sec]

theorem State.recovery_sec (s : State) (code : Nat) : (s.recovery code).md.sec = s.md.sec := by
  unfold State.recovery
  dsimp only
  rw [apply_ite (fun s : State => s.md.sec), State.trainPort_sec, ite_self, State.domRequest_sec, State.portWr_sec,
    State.foldl_sec fun s p => s.portOff_sec (p + 1), State.foldl_sec fun s d => s.domRequest_sec d false, State.failStage_sec,
    State.wrs_sec]

end Sys2Proof.Machine
end

section
/-!
PROOFS. The rollback fuses (R417): their level, what ROLLBACK_COMMIT programs, and that neither the rest of a module reset nor the
loading of an image touches them.
-/
namespace Sys2Proof.Machine

/-! ### The level of a thermometer code -/

theorem thermometer_succ (k v : Nat) : thermometer (k + 1) v = if v.testBit 0 then 1 + thermometer k (v / 2) else 0 := by
  simp [thermometer, Nat.testBit_zero]

theorem thermometer_le (k v : Nat) : thermometer k v ≤ k := by
  induction k generalizing v with
  | zero => exact le_rfl
  | succ k ih =>
    have := ih (v / 2)
    rw [thermometer_succ]
    split <;> omega

/-- The bits that the level counts are set. -/
theorem testBit_of_lt_thermometer {k v i : Nat} (h : i < thermometer k v) : v.testBit i = true := by
  induction k generalizing v i with
  | zero => exact absurd h (Nat.not_lt_zero i)
  | succ k ih =>
    rw [thermometer_succ] at h
    split at h
    · next hbit =>
      cases i with
      | zero => exact hbit
      | succ i =>
        rw [Nat.testBit_succ]
        exact ih (by omega)
    · exact absurd h (Nat.not_lt_zero i)

/-- The bit at which the count ends is clear. -/
theorem testBit_thermometer {k v : Nat} (h : thermometer k v < k) : v.testBit (thermometer k v) = false := by
  induction k generalizing v with
  | zero => exact absurd h (Nat.not_lt_zero _)
  | succ k ih =>
    rw [thermometer_succ] at h ⊢
    split at h
    · next hbit =>
      rw [if_pos hbit, Nat.add_comm, Nat.testBit_succ]
      exact ih (by omega)
    · next hbit =>
      rw [if_neg hbit]
      exact Bool.eq_false_iff.2 hbit

/-- Programming a level sets the bits below it, of which there are 64, and no other. -/
theorem testBit_fuseLevel (fuses level i : Nat) :
    (fuseLevel fuses level).testBit i = (fuses.testBit i || decide (i < min 64 level)) := by
  rw [fuseLevel, Nat.testBit_or, Nat.testBit_two_pow_sub_one]

/-- The bits below the level in force are set already. -/
theorem State.testBit_rollbackLevel (s : State) (i : Nat) :
    s.md.sec.rollback.testBit i = (s.md.sec.rollback.testBit i || decide (i < min 64 s.rollbackLevel)) := by
  by_cases h : i < s.rollbackLevel
  · rw [testBit_of_lt_thermometer h, Bool.true_or]
  · rw [decide_eq_false (by omega), Bool.or_false]

/-! ### ROLLBACK_COMMIT -/

section
variable {s : State}

/-- A commit that the module takes up: busy, and in progress. -/
def State.commitBegun (s : State) : State :=
  (s.wrs [(MR.UPD_BUSY, 1), (MR.UPD_RESULT, 1)]).updSec fun x => { x with commit := true }

/-- A commit at its end. -/
def State.commitEnded (s : State) : State :=
  (s.updSec fun x => { x with rollback := fuseLevel x.rollback (s.rd MR.IMAGE_ROLLBACK), commit := false }).wrs
    [(MR.UPD_BUSY, 0), (MR.UPD_RESULT, 0)]

theorem State.updCmd_idle (h : s.rd MR.UPD_BUSY = 0) (f : State → State) : s.updCmd f = f s :=
  if_neg (by omega)

/-- ROLLBACK_COMMIT of a module that writes no update: refused while not HALTED, and with nothing to commit. -/
theorem exec_rollbackCommit (hb : s.rd MR.UPD_BUSY = 0) : exec .rollbackCommit s =
    .next (if s.rd MR.RUN_STATE ≠ rsHalted then s.wr MR.UPD_RESULT 8
      else if s.rd MR.IMAGE_ROLLBACK ≤ s.rollbackLevel then s.wr MR.UPD_RESULT 9 else s.commitBegun) :=
  congrArg Host.Outcome.next (State.updCmd_idle hb _)

theorem exec_rollbackCommit_notHalted (hb : s.rd MR.UPD_BUSY = 0) (hr : s.rd MR.RUN_STATE ≠ rsHalted) :
    exec .rollbackCommit s = .next (s.wr MR.UPD_RESULT 8) := by
  rw [exec_rollbackCommit hb, if_pos hr]

theorem exec_rollbackCommit_nothing (hb : s.rd MR.UPD_BUSY = 0) (hr : s.rd MR.RUN_STATE = rsHalted)
    (hl : s.rd MR.IMAGE_ROLLBACK ≤ s.rollbackLevel) : exec .rollbackCommit s = .next (s.wr MR.UPD_RESULT 9) := by
  rw [exec_rollbackCommit hb, if_neg (not_not.2 hr), if_pos hl]

theorem exec_rollbackCommit_begins (hb : s.rd MR.UPD_BUSY = 0) (hr : s.rd MR.RUN_STATE = rsHalted)
    (hl : s.rollbackLevel < s.rd MR.IMAGE_ROLLBACK) : exec .rollbackCommit s = .next s.commitBegun := by
  rw [exec_rollbackCommit hb, if_neg (not_not.2 hr), if_neg (Nat.not_le.2 hl)]

theorem exec_rollbackCommitDone (h : s.md.sec.commit = true) : exec .rollbackCommitDone s = .next s.commitEnded :=
  congrArg Host.Outcome.next (if_pos h)

theorem State.onlyMd_commitBegun (s : State) : s.onlyMd s.commitBegun := rfl

theorem State.commit_commitBegun (s : State) : s.commitBegun.md.sec.commit = true := rfl

theorem State.onlyMd_commitEnded (s : State) : s.onlyMd s.commitEnded := rfl

theorem State.commit_commitEnded (s : State) : s.commitEnded.md.sec.commit = false := rfl

theorem State.rollback_commitEnded (s : State) :
    s.commitEnded.md.sec.rollback = fuseLevel s.md.sec.rollback (s.rd MR.IMAGE_ROLLBACK) := rfl

/-- UPD_BUSY and UPD_RESULT stand at different places of their word. -/
theorem State.rd_updStatus (s : State) (busy result : Nat) :
    (s.wrs [(MR.UPD_BUSY, busy), (MR.UPD_RESULT, result)]).rd MR.UPD_BUSY = busy % 2 ^ 1 ∧
      (s.wrs [(MR.UPD_BUSY, busy), (MR.UPD_RESULT, result)]).rd MR.UPD_RESULT = result % 2 ^ 4 := by
  have hd : [MR.UPD_BUSY, MR.UPD_RESULT].Pairwise fun f g => f.key ≠ g.key := by decide
  have hmem {e : Fld × Nat} (he : e ∈ [(MR.UPD_BUSY, busy), (MR.UPD_RESULT, result)]) :=
    State.rd_wrs_mem s (l := [(MR.UPD_BUSY, busy), (MR.UPD_RESULT, result)]) hd he
  exact ⟨hmem List.mem_cons_self, hmem (List.mem_cons_of_mem _ List.mem_cons_self)⟩

theorem State.rd_commitBegun_busy (s : State) : s.commitBegun.rd MR.UPD_BUSY = 1 :=
  (s.rd_updStatus 1 1).1

theorem State.rd_commitEnded (s : State) : s.commitEnded.rd MR.UPD_BUSY = 0 ∧ s.commitEnded.rd MR.UPD_RESULT = 0 :=
  State.rd_updStatus _ 0 0

/-! ### A commit cut short (R417, log 72) -/

/-- The fuses then hold some level from the one in force to IMAGE_ROLLBACK. -/
theorem State.rollback_cutCommit (hc : s.md.sec.commit = true) (hl : s.rollbackLevel ≤ s.rd MR.IMAGE_ROLLBACK) :
    ∃ k, s.rollbackLevel ≤ k ∧ k ≤ s.rd MR.IMAGE_ROLLBACK ∧ s.cutCommit.md.sec.rollback = fuseLevel s.md.sec.rollback k := by
  have hk : (s.fresh 7).1.toNat % (s.rd MR.IMAGE_ROLLBACK - s.rollbackLevel + 1) < s.rd MR.IMAGE_ROLLBACK - s.rollbackLevel + 1 :=
    Nat.mod_lt _ (Nat.succ_pos _)
  refine ⟨s.rollbackLevel + (s.fresh 7).1.toNat % (s.rd MR.IMAGE_ROLLBACK - s.rollbackLevel + 1), by omega, by omega, ?_⟩
  rw [State.cutCommit, if_pos hc]
  rfl

/-- The restart of the MP leaves the fuses. -/
theorem Module.restart_rollback (m : Module) : m.restart.sec.rollback = m.sec.rollback := by
  show m.sec.cutShort.rollback = _
  unfold Sec.cutShort
  split
  · split <;> rfl
  · rfl

/-- After the commit is cut short a module reset leaves the fuses. -/
theorem State.doResetModule_rollback (s : State) (cause : Nat) :
    (s.doResetModule cause).md.sec.rollback = s.cutCommit.md.sec.rollback := by
  have hregions (s : State) (f : Region → Region) : ((List.range 56).foldl (fun s r => s.updRegion r f) s).md.sec = s.md.sec :=
    State.foldl_sec (fun s r => congrArg Module.sec (s.updRegion_md r f)) _ s
  unfold State.doResetModule
  dsimp only
  rw [State.sendResetReport_sec, State.noteReset_sec, State.wr_sec, hregions]
  refine (Module.restart_rollback _).trans ?_
  rw [State.foldl_sec fun s h => s.resetHub_sec h, State.foldl_sec fun s r => s.resetRegion_sec r, State.abortForReset_sec]

theorem exec_mpWatchdogExpiry (s : State) :
    exec .mpWatchdogExpiry s = .next (if s.resetHot then s else s.doResetModule 4) := rfl

/-- The watchdog's reset cuts a commit short, unless the module is too hot for it. -/
theorem State.mpWatchdogExpiry_rollback (hc : s.md.sec.commit = true) (hl : s.rollbackLevel ≤ s.rd MR.IMAGE_ROLLBACK) :
    ∃ s' k, exec .mpWatchdogExpiry s = .next s' ∧ s.rollbackLevel ≤ k ∧ k ≤ s.rd MR.IMAGE_ROLLBACK ∧
      ∀ i, s'.md.sec.rollback.testBit i = (s.md.sec.rollback.testBit i || decide (i < min 64 k)) := by
  by_cases hot : s.resetHot = true
  · refine ⟨s, s.rollbackLevel, ?_, le_rfl, hl, s.testBit_rollbackLevel⟩
    rw [exec_mpWatchdogExpiry, if_pos hot]
  · obtain ⟨k, hlow, hhigh, hk⟩ := State.rollback_cutCommit hc hl
    refine ⟨s.doResetModule 4, k, ?_, hlow, hhigh, fun i => ?_⟩
    · rw [exec_mpWatchdogExpiry, if_neg hot]
    · rw [State.doResetModule_rollback, hk, testBit_fuseLevel]

end

/-! ### The loading of an image -/

theorem State.countBoot_rollback (s : State) : s.countBoot.md.sec.rollback = s.md.sec.rollback := rfl

theorem State.signet_rollback (s : State) : s.signet.md.sec.rollback = s.md.sec.rollback := rfl

theorem State.ucalApply_rollback (s : State) : s.ucalApply.md.sec.rollback = s.md.sec.rollback := by
  unfold State.ucalApply
  dsimp only
  split
  · rw [State.wrBytes_sec]; rfl
  · split <;> (rw [State.wrBytes_sec]; rfl)

/-- The MP starts in the image's body. -/
theorem State.startBody_rollback (s : State) (b : List Byte) (e : Option Nat) :
    (s.updMd fun m => { m with sec := { m.sec with body := b, entry := e } }).md.sec.rollback = s.md.sec.rollback := rfl

/-- Stage 2 leaves the fuses, whether the image passes its checks or not. -/
theorem exec_stageImage_rollback (readOk : Bool) (s : State) :
    ∃ s', exec (.stageImage readOk) s = .next s' ∧ s'.md.sec.rollback = s.md.sec.rollback := by
  refine ⟨_, rfl, ?_⟩
  split
  · rfl
  · dsimp only
    split
    · rw [State.recovery_sec, State.countBoot_rollback]
    · rw [State.endStage_sec, State.startBody_rollback, State.signet_rollback, State.ucalApply_rollback, State.wrBytes_sec,
        State.wrs_sec, State.countBoot_rollback]

/-- Settles O9: the level is what `thermometer` counts, a commit programs `fuseLevel`, a commit cut short programs a part of it whose
size log 72 leaves free, and every other part of a module reset and of the loading of an image leaves the fuses. -/
theorem rollbackResult : Obligations.RollbackResult := by
  intro s
  refine ⟨⟨thermometer_le _ _, fun _ => testBit_of_lt_thermometer, testBit_thermometer⟩, fun hb => ⟨fun hr => ?_, fun hr hl => ?_,
    fun hr hl => ?_⟩, fun hc => ?_, State.mpWatchdogExpiry_rollback, fun readOk => exec_stageImage_rollback readOk s⟩
  · exact ⟨_, exec_rollbackCommit_notHalted hb hr, s.onlyMdRegs_wr _ _, State.rd_wr ..⟩
  · exact ⟨_, exec_rollbackCommit_nothing hb hr hl, s.onlyMdRegs_wr _ _, State.rd_wr ..⟩
  · exact ⟨_, exec_rollbackCommit_begins hb hr hl, s.onlyMd_commitBegun, s.rd_commitBegun_busy, s.commit_commitBegun⟩
  · obtain ⟨hbusy, hresult⟩ := s.rd_commitEnded
    refine ⟨_, exec_rollbackCommitDone hc, s.onlyMd_commitEnded, hbusy, hresult, s.commit_commitEnded, fun i => ?_⟩
    rw [State.rollback_commitEnded, testBit_fuseLevel]

end Sys2Proof.Machine
end
